-- ==== Sys2Proof/Word.lean ====
section
/-! DEFINITION. The words of the machine and the plain operand types of its commands. -/

namespace Sys2Proof

/-- A register word, a Hearth word, an engine address. -/
abbrev Word := BitVec 32

/-- One byte of the Mantel or of a tile RAM. -/
abbrev Byte := BitVec 8

/-- A 10-bit master ID (R46). -/
abbrev Mid := Fin 1024

/-- The number of a Hearth, 0 to 191 (R41). -/
abbrev HearthId := Fin 192

/-- An access size (R43); the codes are those of SYS_VIOL_INFO.size. -/
inductive AccSize where
  | b8 | b16 | b32 | b64
deriving DecidableEq, Repr

/-- The values wider than 32 bits that are read through a shadow (R53): the counters of R53 to R58 and the snapshot
pairs of R104, R135, R358, R410, R487, R497 and R498; and the latest frame of the LTC reader (R372). -/
inductive WideVal where
  | tod | rally | rtc
  | mifPos (m : Fin 4)
  | freq | hold
  | rallyOffset | deuceOffset
  | srvOffs (d : Fin 2)
  | leadSerial
  | causeRtc | xpRatio | xpNow
  | idxCap (m : Fin 4)
  | idxLoad (m : Fin 4)
  | ltci (m : Fin 4)
deriving DecidableEq, Repr

/-- The counters that software loads through their HI word (R54). -/
inductive WideCtr where
  | tod | rally | rtc
  | mifPos (m : Fin 4)
deriving DecidableEq, Repr

/-- A g register field of a Hearth instruction (R262). -/
abbrev GReg := Fin 32

/-- A pointer number p0 to p7. -/
abbrev PtrNo := Fin 8

/-- A pointer-file operand: class in [4:3] (p, m, b, l), index in [2:0] (R262). -/
abbrev PtrReg := Fin 32

/-- An accumulator a0 to a3. -/
abbrev AccNo := Fin 4

/-- A Hearth input queue q0 to q3. -/
abbrev QueueNo := Fin 4

/-- The conditions of BC and SEL (R263), in the order of their codes. -/
inductive Cond where
  | al | eq | ne | lt | ge | gt | le | ltu | geu | gtu | leu | mi | pl | vs | vc | sat
deriving DecidableEq, Repr

/-- A shift count: a register, or an immediate (R267). -/
inductive ShiftCount where
  | reg (rt : GReg)
  | imm (k : Fin 32)
deriving DecidableEq, Repr

/-- The size of a local memory access (R229). -/
inductive LocSize where
  | b | h | w
deriving DecidableEq, Repr

/-- MOV's forms: between g registers, to the pointer file, from it (R269). -/
inductive MovForm where
  | gg (rd rs : GReg)
  | toPtr (x : PtrReg) (rs : GReg)
  | fromPtr (rd : GReg) (x : PtrReg)
deriving DecidableEq, Repr

/-- MOVA's forms: a part read to rd, or a part written from rs (R272). -/
inductive MovaForm where
  | read (rd : GReg) (x : AccNo) (part : Fin 4)
  | write (x : AccNo) (rs : GReg) (part : Fin 4)
deriving DecidableEq, Repr

/-- The two registers that hold near (R36). -/
inductive NearReg where
  | hrt (h : HearthId)
  | sys (i : Fin 6)
deriving DecidableEq, Repr

/-- A port of a Flue router; the codes 0 to 4 are those of FLUE_STALL_INFO. -/
inductive FPort where
  | l | n | e | s | w
deriving DecidableEq, Repr

/-- A router of the Flue: of the sample plane, or of the move plane (mv), with the number of its Hearth (R194). -/
structure Router where
  mv : Bool
  node : HearthId
deriving DecidableEq, Repr

/-- What the RSG measured of a candidate over the last 10 ms window (R79, R85): whether it was seen throughout, and its
offsets over 10 ms and 1 s, in ppb or, for MEDIUM, in 0.0001 %. -/
structure CandMeas where
  seen : Bool
  off10 : Int
  off1s : Int
deriving DecidableEq, Repr

/-- What a Pdelay_Req carries beside its domain and sequence ID: its correctionField in 1/65536 ns, the port identity it comes
from, and whether it came over UDP (R108). -/
structure PdelayFrom where
  corr : Int
  who : BitVec 80
  udp : Bool
deriving DecidableEq, Repr

/-- The capture instant of an LTC frame (R371): the elapsed fraction of its Ts in 1/256, and the net tach counts and the Rally
instants that followed it up to the frame's last bit, for a frame read in reverse, whose sync word comes first. -/
structure LtcCapture where
  phase : BitVec 8
  counts : BitVec 32
  samples : BitVec 16
deriving DecidableEq, Repr

/-- What the SerDes lane of a MAC reports: a link, and in the in-band status word of SGMII 1000 Mb/s and full duplex (R168). -/
structure LaneStatus where
  link : Bool
  gigabit : Bool
  fullDuplex : Bool
deriving DecidableEq, Repr

/-- A port with the direction that its frames have (05); a serial audio port has both. -/
inductive PortId where
  | sap (p : Fin 16)
  | aesRx (i : Fin 8)
  | aesTx (i : Fin 8)
  | madiRx (m : Fin 2)
  | madiTx (m : Fin 2)
deriving DecidableEq, Repr

/-- What a load point belongs to: a slot of a port, or the present sample of a network transmit stream (R28, R186). -/
inductive OutSlot where
  | port (p : PortId) (j : Fin 64)
  | net (i : Fin 64)
deriving DecidableEq, Repr

/-- A control register of an AES3 direction or of a MADI port. -/
inductive AesmReg where
  | aesRx (i : Fin 8)
  | aesTx (i : Fin 8)
  | madi (m : Fin 2)
deriving DecidableEq, Repr

/-- A Chimney packet (R402): type, header, data blocks, and bytes 1 to 7 of the END block: CRC-32C in [31:0], the
acknowledgement in [47:32], poison in [48]. -/
structure ChmPacket where
  typ : Byte
  hdr : BitVec 56
  data : List (BitVec 64)
  fin : BitVec 56
deriving DecidableEq, Repr

/-- Blocks of 66 bits as a Chimney port receives them in a row, and the 31 payload bits that came before them, newest lowest (R399,
R400). A block holds its bits in the order sent, the first one lowest. -/
structure ChmLine where
  before : BitVec 31
  blocks : List (BitVec 66)
deriving DecidableEq, Repr

/-- A link of the system by one of its ends: an engine and its port. -/
structure ChmEnd where
  engine : Fin 64
  port : Fin 4
deriving DecidableEq, Repr

/-- A lane of the Bellows. -/
abbrev LaneId := Fin 8

/-- A register selector of a Bellows instruction (R380): 0 to 7 name x0 to x7, 8 to 11 a0 to a3, 15 none. -/
abbrev BelSel := Fin 16

/-- The count of a Bellows LOOP (R382): an x register, or an immediate. -/
inductive BelCount where
  | reg (r : Fin 15)
  | imm (c : BitVec 11)
deriving DecidableEq, Repr

/-- A step of the Keeper's command (17): its issue by a write of SKP_CMD, or the Keeper's work on it, in pages, pairs of the
scan, or checks. -/
inductive SkpEvt where
  | issue (m : Mid) (v : Word)
  | work (units : Nat)
deriving DecidableEq, Repr

/-- A PCIe memory request (R506): BAR2 or BAR0, the 4-byte aligned offset of its first DW, and each byte from there with its
enable. An AtomicOp or a locked request is no memory request (R505). -/
structure PcieReq where
  bar2 : Bool
  offset : BitVec 26
  write : Bool
  bytes : List (Bool × Byte)
  plain : Bool
deriving DecidableEq, Repr

/-- What resets the PCIe endpoint (R509): an edge of PCIE_PERST_N, a hot reset, or the link going down. -/
inductive PcieRst where
  | perst (low : Bool)
  | hot
  | linkDown
deriving DecidableEq, Repr

/-- What a PCIe configuration request sets (R508 to R510). -/
inductive PcieCfg where
  | memEn (b : Bool)
  | busMaster (b : Bool)
  | msixEn (b : Bool)
  | funcMask (b : Bool)
  | d3hot (b : Bool)
deriving DecidableEq, Repr

/-- A QSPI WRITE frame after its opcode (R512 to R514): the address (none when the frame ends inside it), the whole data
words, and whether bits follow the last of them. -/
structure QspiWr where
  addr : Option Word
  words : List Word
  rest : Bool
deriving DecidableEq, Repr

end Sys2Proof
end

