-- ==== Sys2Proof/Syntax.lean ====
section
/-! DEFINITION. The commands of the block: one constructor for each row of spec/opcode_table.json, with the row's
operands. The table gives no bits to any row, so the operands are what the row's rule names: the master of a register
access (`m`, its MID by R46), the instance of the register or unit, the value written, or what the event brings in. -/

namespace Sys2Proof

/-- One command. The doc comment of a constructor is its row of the table: mnemonic, rule, summary. -/
inductive Instr where
  /-- REGISTER_WRITE (R9). A write to a register field with no behaviour of its own sets, clears or ignores bits as its access code gives. -/
  | registerWrite (m : Mid) (a v : Word)
  /-- BUS_ACCESS (R47). A master's read or write reaches its target and completes with exactly one response. -/
  | busAccess (m : Mid) (a : Word) (sz : AccSize) (w : Option (BitVec 64))
  /-- COUNTER_LO_READ (R53). A read of the LO word of a wide value copies the whole value into its shadow in one instant. -/
  | counterLoRead (m : Mid) (w : WideVal)
  /-- COUNTER_HI_WRITE (R54). A write to the HI word of a wide counter takes the staged words and arms a load for the next update event. -/
  | counterHiWrite (m : Mid) (c : WideCtr) (v : Word)
  /-- COUNTER_LOAD (R55). At the counter's update event the pending load takes effect and the staged words clear. -/
  | counterLoad (c : WideCtr) (frac : BitVec 16)
  /-- FENCE_READ (R60). A read of SYS_FENCE completes once the master's earlier accesses are applied and returns its write-error summary. -/
  | fenceRead (m : Mid)
  /-- BALL_ACQUIRE (R66). A read of SYS_BALL(n) grants a free ball, restarts the owner's lease, or reports the owner. -/
  | ballAcquire (m : Mid) (b : Fin 256)
  /-- BALL_RELEASE (R68). A write of 0 to SYS_BALL(n) by the owner frees the ball; other writes return PERM or SLVERR. -/
  | ballRelease (m : Mid) (b : Fin 256) (v : Word)
  /-- LEASE_EXPIRY (R71). A ball's lease reaches its lease-th Rally instant and the ball is turned over. -/
  | leaseExpiry (b : Fin 256)
  /-- FORCED_TURNOVER (R72). A supervisor write to SYS_BALL_TURNOVER turns a ball over if its owner is not a running Hearth. -/
  | forcedTurnover (m : Mid) (v : Word)
  /-- INPUT_SLOT_END (R17). The capturing edge of a slot's last bit forms an AUDIO token and injects it or holds it under backpressure. -/
  | inputSlotEnd (p : Fin 16) (j : Fin 32) (w : Word)
  /-- TOKEN_HOP (R201). A token entering a router is routed by its bank or direction and forks to every allowed output. -/
  | tokenHop (r : Router) (p : FPort)
  /-- STATION_TOKEN_ARRIVAL (R27). A token reaching an output station is tag-checked against the next load point and held or discarded. -/
  | stationTokenArrival (st : Fin 44)
  /-- LOAD_POINT (R28). At an output slot's load point the holding register moves to the shift register, or the substitute is sent. -/
  | loadPoint (o : OutSlot)
  /-- PACE_WINDOW_END (R35). After 2^window arrivals win_min takes the running minimum and the running minimum restarts. -/
  | paceWindowEnd (h : HearthId)
  /-- PACE_LATE_NOTICE (R37). A received late notice increments HRT_PACE_LATE and sets late. -/
  | paceLateNotice (h : HearthId)
  /-- PACE_ENABLE (R33). A write setting HRT_PACE_CTRL.en from 0 to 1 resets LAST and MIN and restarts the window. -/
  | paceEnable (m : Mid) (h : HearthId) (v : Word)
  /-- PACE_NEAR_CLEAR (R36). Writing 1 to near in HRT_PACE_STATUS or SYS_PACE_NEAR clears it in both and rearms the monitor. -/
  | paceNearClear (m : Mid) (r : NearReg) (v : Word)
  /-- DCO_UPDATE (R77). The RSG writes a new frequency word w, moving it no faster than the slew limit. -/
  | dcoUpdate (us : Nat)
  /-- RSG_EVALUATION (R82). Every 10 ms the RSG tests candidates, settles qualification and selects an entry. -/
  | rsgEvaluation (meas : List CandMeas) (phase : Nat)
  /-- HISTORY_APPEND (R96). Each second while LOCKED on a non-MEDIUM candidate the RSG appends a history entry. -/
  | historyAppend (w temp : Int) (d : Fin 3)
  /-- HOLDOVER_RECOMPUTE (R98). Each second the holdover value is recomputed under the policy. -/
  | holdoverRecompute (up : Bool)
  /-- HOLD_ELAPSED_TICK (R101). Each second in HOLDOVER the elapsed count advances and may reach the limit. -/
  | holdElapsedTick
  /-- RSG_ENABLE_WRITE (R92). A write of RSG_CTRL.en starts selection or returns the RSG to FREE_RUN with w slewing to 0. -/
  | rsgEnableWrite (m : Mid) (v : Word)
  /-- RSG_PRIO_WRITE (R81). A write to a priority entry takes effect at the next evaluation, unless frozen or duplicate. -/
  | rsgPrioWrite (m : Mid) (e : Fin 8) (v : Word)
  /-- TEMP_EXT_WRITE (R100). A write to RSG_TEMP_EXT supplies the external temperature and restarts its staleness timer. -/
  | tempExtWrite (m : Mid) (v : Word)
  /-- TEMP_EXT_STALE (R100). After 10 s without a write the RSG uses the on-die sensor and sets temp_stale. -/
  | tempExtStale
  /-- SYNC (R107). A Sync from the servo's parent is timestamped and consumed by the servo. -/
  | sync (d : Fin 2) (twoStep : Bool) (seq : BitVec 16) (origin corr : Int)
  /-- FOLLOW_UP (R107). A Follow_Up completes a two-step Sync measurement. -/
  | followUp (d : Fin 2) (seq : BitVec 16) (origin corr : Int)
  /-- DELAY_RESP (R107). A Delay_Resp gives the servo its E2E path delay measurement. -/
  | delayResp (d : Fin 2) (seq : BitVec 16) (recv corr : Int)
  /-- PDELAY_RESP (R107). A Pdelay_Resp or its follow-up gives the servo its P2P path delay measurement. -/
  | pdelayResp (d : Fin 2) (followUp twoStep : Bool) (seq : BitVec 16) (time corr : Int)
  /-- PDELAY_REQ (R108). A received Pdelay_Req is answered with a one-step Pdelay_Resp. -/
  | pdelayReq (p : Fin 2) (domain : BitVec 7) (seq : BitVec 16) (req : PdelayFrom)
  /-- DELAY_REQ_SEND (R107). At the servo's interval the TSU forms and sends Delay_Req or Pdelay_Req. -/
  | delayReqSend (d : Fin 2)
  /-- SYNC_TIMEOUT (R113). sync_timeout Sync intervals without a Sync move a servo to LISTENING or COAST. -/
  | syncTimeout (d : Fin 2)
  /-- PARENT_WRITE (R113). A write to PARENT_HI takes the parent identity and moves the servo to LISTENING or COAST. -/
  | parentWrite (m : Mid) (d : Fin 2) (v : Word)
  /-- DEUCE_REVERT (R117). Under AUTO_REVERT the preferred servo, LOCKED for wtr seconds, becomes active. -/
  | deuceRevert
  /-- DEUCE_ACTIVE_WRITE (R117). Under MANUAL a write to TSU_DEUCE_CTRL.active switches to a LOCKED servo. -/
  | deuceActiveWrite (m : Mid) (v : Word)
  /-- SLEW_COMPLETE (R119). A SLEW reaches zero offset and hands over to the new servo's loop. -/
  | slewComplete
  /-- REBASE (R120). Writing 1 to rebase starts TSU_RALLY_OFFSET slewing to 0 at 10 ppm. -/
  | rebase (m : Mid) (v : Word)
  /-- REBASE_COMPLETE (R120). TSU_RALLY_OFFSET reaches 0 and rebase reads 0. -/
  | rebaseComplete
  /-- RALLY_INSTANT (R123). The media-clock edge that begins a sample period increments RALLY_COUNT. -/
  | rallyInstant (rtcSub : BitVec 16)
  /-- TTRIG_ARM (R128). Writing 1 to CTRL.arm latches the trigger's key and arms it. -/
  | ttrigArm (m : Mid) (n : Fin 16) (v : Word)
  /-- TTRIG_DISARM (R128). Writing 1 to CTRL.disarm disarms the trigger. -/
  | ttrigDisarm (m : Mid) (n : Fin 16) (v : Word)
  /-- TTRIG_FIRE (R129). An armed trigger reaches its key, sets fired, performs its action and advances if periodic. -/
  | ttrigFire (n : Fin 16)
  /-- GPIO_PULSE_END (R130). A GPIO pulse ends after width × 10 ns. -/
  | gpioPulseEnd (i : Fin 32) (low : Bool)
  /-- TCAP_EDGE (R133). A selected edge on TCAP captures TOD, RALLY_COUNT and phase into the FIFO, or is dropped. -/
  | tcapEdge (n : Fin 8) (rising : Bool) (phase : BitVec 8)
  /-- TCAP_POP (R134). A read of TSU_TCAP(n)_NS moves the oldest capture into the shadow and returns its nanoseconds. -/
  | tcapPop (m : Mid) (n : Fin 8)
  /-- SAP_ENABLE (R142). A write of 1 to SAP_CTRL.en checks the format and starts or readies the port. -/
  | sapEnable (m : Mid) (p : Fin 16) (v : Word)
  /-- SAP_DISABLE (R147). A write of 0 to en requests the port to stop at its next frame start. -/
  | sapDisable (m : Mid) (p : Fin 16) (v : Word)
  /-- SAP_STOP (R147). At the next frame start the port stops forming tokens and drives its outputs inactive. -/
  | sapStop (p : Fin 16)
  /-- FRAME_START (R157). A port frame starts and is named, applying map changes and slipping if its phase demands. -/
  | frameStart (p : PortId) (frac : BitVec 16) (meas : Word)
  /-- MAP_WRITE (R145). A write to a slot map entry while running takes effect at the next frame start or load point. -/
  | mapWrite (m : Mid) (p : Fin 16) (out : Bool) (j : Fin 32) (v : Word)
  /-- AES_SUBFRAME_RECEIVE (R149). A locked AES3 receiver forms a token for each subframe 80 ns after its parity cell. -/
  | aesSubframeReceive (i : Fin 8) (b preOk z : Bool) (viol : Nat) (audio : BitVec 24) (v u c parityOk : Bool)
  /-- CS_COMMIT (R152). Writing 1 to cs_commit makes the CS registers the block sent from the next Z preamble. -/
  | csCommit (m : Mid) (r : AesmReg) (v : Word)
  /-- MADI_CHANNEL_RECEIVE (R155). A locked MADI receiver forms a token 64 ns after a channel's last line bit. -/
  | madiChannelReceive (m : Fin 2) (c : Fin 64) (start : Bool) (audio : BitVec 24) (v u cs parityOk : Bool)
  /-- MADI_TX_FRAME (R156). A MADI transmitter starts frame k and sends channels, truncating on overfill. -/
  | madiTxFrame (m : Fin 2) (sent : Fin 65)
  /-- ASRC_EMIT (R160). An input converter emits internal sample k as a token 200 ns after its Rally instant. -/
  | asrcEmit (p : PortId)
  /-- STEERING_READOUT (R161). A STEERING port reads frame k out of its elastic buffer 100 ns after the Rally instant. -/
  | steeringReadout (p : PortId)
  /-- ASRC_ALLOC_WRITE (R162). A write to ASRC_ALLOC ties a converter channel to a port channel and direction. -/
  | asrcAllocWrite (m : Mid) (i : Fin 128) (v : Word)
  /-- ASRC_LOCK (R163). A ratio tracker stable within 1 ppm for 200 ms locks and fades its output in. -/
  | asrcLock (p : PortId) (out : Bool) (ratio : Word)
  /-- ASRC_LOCK_LOSS (R163). A tracker losing its input or ratio cuts its output to 0 at once. -/
  | asrcLockLoss (p : PortId) (out : Bool)
  /-- DMA_FRAME_WRITE (R165). An input port applies frame k in the Mantel and then writes DIN_POS. -/
  | dmaFrameWrite (p : PortId)
  /-- DMA_FRAME_READ (R166). An output port reads frame k lead Ts before the Rally instant of k. -/
  | dmaFrameRead (p : PortId)
  /-- ETH_FRAME_RECEIVE (R170). A received Ethernet frame is classified to the TSU, a stream, the host ring or discarded. -/
  | ethFrameReceive (p : Fin 2) (bytes : List Byte) (fcsOk : Bool)
  /-- STREAM_READOUT (R178). 100 ns after the Rally instant the stream engine settles frame k, forms tokens and writes POS. -/
  | streamReadout (i : Fin 64)
  /-- TX_PACKET_QUEUE (R188). At the Rally instant of k + spp a transmit packet is queued on each leg's MAC. -/
  | txPacketQueue (i : Fin 64)
  /-- MAC_TRANSMIT (R188). A MAC sends its next frame, PTP first, then media, then host. -/
  | macTransmit (p : Fin 2)
  /-- HOST_TX_SEND (R191). The engine sends the slot at HTX_TAIL, writes its timestamp if asked and advances the tail. -/
  | hostTxSend
  /-- NET_LINK_CHANGE (R168). A MAC's link goes up or down and sets link_chg. -/
  | netLinkChange (p : Fin 2) (lane : LaneStatus)
  /-- ROUTE_SHADOW_WRITE (R206). A write to HRT_ROUTE_SH updates a router's shadow bank unless a swap is armed or copying. -/
  | routeShadowWrite (m : Mid) (h : HearthId) (w : Fin 1024) (v : Word)
  /-- ROUTE_SWAP_ARM (R207). Writing 1 to FLUE_RT_CTRL.arm arms a route swap for the key Rally count. -/
  | routeSwapArm (m : Mid) (v : Word)
  /-- ROUTE_SWAP_CANCEL (R207). Writing 1 to cancel disarms the route swap. -/
  | routeSwapCancel (m : Mid)
  /-- ROUTE_SWAP (R207). At the key Rally instant every router exchanges its active and shadow banks. -/
  | routeSwap
  /-- ROUTE_COPY_COMPLETE (R208). Once old-bank tokens have drained the active bank is copied to the shadow and done is set. -/
  | routeCopyComplete
  /-- FLUE_STALL (R216). A token waiting FLUE_STALL.limit Ts at an output is counted and captured. -/
  | flueStall (mv : Bool) (r : HearthId) (out inp : FPort) (tag : Fin 4096)
  /-- ADD (R266). ADD adds two registers, with optional saturation, and sets flags. -/
  | add (h : HearthId) (rd rs rt : GReg) (sat : Bool)
  /-- SUB (R266). SUB subtracts two registers, with optional saturation, and sets flags. -/
  | sub (h : HearthId) (rd rs rt : GReg) (sat : Bool)
  /-- AND (R266). AND forms the bitwise and of two registers. -/
  | and (h : HearthId) (rd rs rt : GReg)
  /-- OR (R266). OR forms the bitwise or of two registers. -/
  | or (h : HearthId) (rd rs rt : GReg)
  /-- XOR (R266). XOR forms the bitwise exclusive or of two registers. -/
  | xor (h : HearthId) (rd rs rt : GReg)
  /-- NOT (R266). NOT forms the bitwise complement of a register. -/
  | not (h : HearthId) (rd rs : GReg)
  /-- SHL (R267). SHL shifts left, with optional saturation. -/
  | shl (h : HearthId) (rd rs : GReg) (k : ShiftCount) (sat : Bool)
  /-- SHR (R267). SHR shifts right logically. -/
  | shr (h : HearthId) (rd rs : GReg) (k : ShiftCount)
  /-- SAR (R267). SAR shifts right arithmetically. -/
  | sar (h : HearthId) (rd rs : GReg) (k : ShiftCount)
  /-- ROL (R267). ROL rotates left by the count mod 32. -/
  | rol (h : HearthId) (rd rs : GReg) (k : ShiftCount)
  /-- MIN (R266). MIN selects the smaller of two registers, signed or unsigned. -/
  | min (h : HearthId) (rd rs rt : GReg) (u : Bool)
  /-- MAX (R266). MAX selects the larger of two registers, signed or unsigned. -/
  | max (h : HearthId) (rd rs rt : GReg) (u : Bool)
  /-- ABS (R268). ABS forms the magnitude, with optional saturation. -/
  | abs (h : HearthId) (rd rs : GReg) (sat : Bool)
  /-- NEG (R268). NEG negates a register, with optional saturation. -/
  | neg (h : HearthId) (rd rs : GReg) (sat : Bool)
  /-- CLZ (R266). CLZ counts leading zero bits. -/
  | clz (h : HearthId) (rd rs : GReg)
  /-- CLS (R266). CLS counts leading sign bits minus 1. -/
  | cls (h : HearthId) (rd rs : GReg)
  /-- SEL (R263). SEL selects one of two registers by a condition. -/
  | sel (h : HearthId) (rd rs rt : GReg) (c : Cond)
  /-- CMP (R266). CMP subtracts and sets flags, discarding the result. -/
  | cmp (h : HearthId) (rs rt : GReg)
  /-- MOV (R269). MOV copies between g registers and the pointer file. -/
  | mov (h : HearthId) (f : MovForm)
  /-- ADDI (R266). ADDI adds a sign-extended immediate. -/
  | addi (h : HearthId) (rd rs : GReg) (imm : BitVec 16)
  /-- SUBI (R266). SUBI subtracts a sign-extended immediate. -/
  | subi (h : HearthId) (rd rs : GReg) (imm : BitVec 16)
  /-- CMPI (R266). CMPI compares with an immediate and sets flags. -/
  | cmpi (h : HearthId) (rs : GReg) (imm : BitVec 16)
  /-- MOVI (R269). MOVI loads a sign-extended immediate into a g register. -/
  | movi (h : HearthId) (rd : GReg) (imm : BitVec 16)
  /-- MOVHI (R269). MOVHI loads the upper half of a register. -/
  | movhi (h : HearthId) (rd : GReg) (imm : BitVec 16)
  /-- MOVI_POINTER (R269). MOVI to the pointer file loads an immediate into a p, m, b or l register. -/
  | moviPointer (h : HearthId) (x : PtrReg) (imm : BitVec 16)
  /-- MAC (R270). MAC adds a product into an accumulator with A80 saturation. -/
  | mac (h : HearthId) (x : AccNo) (rs rt : GReg) (f : Bool)
  /-- MSU (R270). MSU subtracts a product from an accumulator. -/
  | msu (h : HearthId) (x : AccNo) (rs rt : GReg) (f : Bool)
  /-- MUL (R270). MUL writes a product into an accumulator. -/
  | mul (h : HearthId) (x : AccNo) (rs rt : GReg) (f : Bool)
  /-- MACX (R271). MACX accumulates two cross products in one step. -/
  | macx (h : HearthId) (x : AccNo) (rs rt : GReg) (f : Bool)
  /-- MACD (R271). MACD accumulates two paired products in one step. -/
  | macd (h : HearthId) (x : AccNo) (rs rt : GReg) (f : Bool)
  /-- CLRA (R270). CLRA clears the accumulators its mask names. -/
  | clra (h : HearthId) (mask : BitVec 4)
  /-- MOVA (R272). MOVA reads or writes one part of an accumulator. -/
  | mova (h : HearthId) (f : MovaForm)
  /-- MOVAR (R272). MOVAR reads an accumulator rounded half-up and saturated to Q31. -/
  | movar (h : HearthId) (rd : GReg) (x : AccNo)
  /-- MOVAS (R272). MOVAS reads an accumulator truncated and saturated to Q31. -/
  | movas (h : HearthId) (rd : GReg) (x : AccNo)
  /-- SHA (R270). SHA shifts an accumulator with saturation. -/
  | sha (h : HearthId) (x : AccNo) (k : BitVec 5)
  /-- ADDA (R270). ADDA adds or subtracts two accumulators with saturation. -/
  | adda (h : HearthId) (x y : AccNo) (neg : Bool)
  /-- LDB (R273). LDB loads a byte from local memory. -/
  | ldb (h : HearthId) (rd ra : GReg) (off : BitVec 13) (u : Bool)
  /-- LDH (R273). LDH loads a halfword from local memory. -/
  | ldh (h : HearthId) (rd ra : GReg) (off : BitVec 13) (u : Bool)
  /-- LDW (R273). LDW loads a word from data RAM or a pending slot. -/
  | ldw (h : HearthId) (rd ra : GReg) (off : BitVec 13)
  /-- STB (R275). STB stores a byte into the store buffer. -/
  | stb (h : HearthId) (rd ra : GReg) (off : BitVec 13)
  /-- STH (R275). STH stores a halfword into the store buffer. -/
  | sth (h : HearthId) (rd ra : GReg) (off : BitVec 13)
  /-- STW (R275). STW stores a word into the store buffer. -/
  | stw (h : HearthId) (rd ra : GReg) (off : BitVec 13)
  /-- LDP (R273). LDP loads through a pointer and post-modifies it. -/
  | ldp (h : HearthId) (rd : GReg) (i : PtrNo) (sz : LocSize) (u : Bool)
  /-- STP (R275). STP stores through a pointer and post-modifies it. -/
  | stp (h : HearthId) (rd : GReg) (i : PtrNo) (sz : LocSize)
  /-- LDM (R276). LDM reads an engine address as MOVE tokens and stalls for the data. -/
  | ldm (h : HearthId) (rd ra : GReg) (off : BitVec 13) (sz : AccSize) (u : Bool)
  /-- STM (R276). STM posts a write to an engine address. -/
  | stm (h : HearthId) (rd ra : GReg) (off : BitVec 13) (sz : AccSize)
  /-- ROTM (R277). ROTM reads the next word and merges the wrapped bytes of an unaligned read. -/
  | rotm (h : HearthId) (rd ra : GReg) (off : BitVec 13) (sz : AccSize)
  /-- MOVE (R278). MOVE posts a block copy of 64-bit words within the Mantel. -/
  | move (h : HearthId) (rd ra : GReg) (w : Fin 256)
  /-- B (R279). B branches after its delay slot. -/
  | b (h : HearthId) (q p : Bool) (target : Fin 4096)
  /-- BC (R279). BC branches after its delay slot when its condition holds. -/
  | bc (h : HearthId) (q p : Bool) (c : Cond) (target : Fin 4096)
  /-- BAL (R279). BAL stores the return address and branches. -/
  | bal (h : HearthId) (q p : Bool) (rd : GReg) (target : Fin 4096)
  /-- CALL (R281). CALL rotates the windows forward and branches. -/
  | call (h : HearthId) (q : Bool) (target : Fin 4096)
  /-- RET (R281). RET returns through g31 and rotates the windows backward. -/
  | ret (h : HearthId) (q p : Bool)
  /-- JMP (R279). JMP branches to a register address. -/
  | jmp (h : HearthId) (q p : Bool) (rs : GReg)
  /-- LOOP (R282). LOOP pushes a hardware loop with a register count. -/
  | loop (h : HearthId) (rs : GReg) (stop : Fin 4096)
  /-- LOOPI (R282). LOOPI pushes a hardware loop with an immediate count. -/
  | loopi (h : HearthId) (count stop : Fin 4096)
  /-- PUSHL (R283). PUSHL stores the loop image and empties the loop stack. -/
  | pushl (h : HearthId) (i : PtrNo)
  /-- POPL (R283). POPL loads a loop image and replaces the loop stack. -/
  | popl (h : HearthId) (i : PtrNo)
  /-- TRAP (R246). TRAP takes a software trap with its immediate in XVAL. -/
  | trap (h : HearthId) (imm : BitVec 16)
  /-- RETT (R246). RETT restores STAT from XSTAT and resumes at XPC then XNPC. -/
  | rett (h : HearthId)
  /-- RETI (R245). RETI restores STAT from SSTAT, rotates backward and resumes at SPC then SNPC. -/
  | reti (h : HearthId)
  /-- WAITS (R241). WAITS waits for the Rally latch, sets the current tag and RALLY and returns k. -/
  | waits (h : HearthId) (rd : GReg)
  /-- FENCE (R285). FENCE retires once all earlier accesses have completed and their errors have trapped. -/
  | fence (h : HearthId)
  /-- NOP (R264). NOP takes one step and does nothing. -/
  | nop (h : HearthId)
  /-- SEND (R286). SEND enqueues an AUDIO or EVENT token stamped with the current tag. -/
  | send (h : HearthId) (rs : GReg) (ctag : Fin 4096) (kind : Fin 16)
  /-- SENDT (R286). SENDT enqueues a token with a tag from a register. -/
  | sendt (h : HearthId) (rs rt : GReg) (ctag : Fin 4096) (kind : Fin 16)
  /-- RECV (R287). RECV takes the oldest token from a queue, setting the current tag and making any armed swap. -/
  | recv (h : HearthId) (rd rm : GReg) (q : QueueNo)
  /-- PEEK (R287). PEEK reads the oldest token without removing it. -/
  | peek (h : HearthId) (rd rm : GReg) (q : QueueNo) (w : Bool)
  /-- QSTAT (R287). QSTAT reads the queue fills into a register. -/
  | qstat (h : HearthId) (rd : GReg)
  /-- DIV (R289). DIV issues a division to the Assist. -/
  | div (h : HearthId) (int : Bool) (rs rt : GReg)
  /-- RCP (R289). RCP issues a reciprocal to the Assist. -/
  | rcp (h : HearthId) (rs : GReg)
  /-- SQRT (R289). SQRT issues a square root to the Assist. -/
  | sqrt (h : HearthId) (rs : GReg)
  /-- RSQ (R289). RSQ issues a reciprocal square root to the Assist. -/
  | rsq (h : HearthId) (rs : GReg)
  /-- LOG2 (R289). LOG2 issues a base-2 logarithm to the Assist. -/
  | log2 (h : HearthId) (rs : GReg)
  /-- EXP2 (R289). EXP2 issues a base-2 exponential to the Assist. -/
  | exp2 (h : HearthId) (rs : GReg)
  /-- ASRD (R290). ASRD waits for the Assist to be idle and reads ASR. -/
  | asrd (h : HearthId) (rd : GReg)
  /-- ASSIST_COMPLETE (R239). The Assist finishes, writes ASR and sets dz or dom, or discards a squashed result. -/
  | assistComplete (h : HearthId)
  /-- BEXP (R291). BEXP finds the smallest CLS over a block of words. -/
  | bexp (h : HearthId) (rd : GReg) (i : PtrNo) (rt : GReg)
  /-- BFLY (R292). BFLY computes a scaled radix-2 butterfly in place. -/
  | bfly (h : HearthId) (pa pb pw : PtrNo) (k : Fin 4)
  /-- SCL (R293). SCL scales a register by the block exponent plus k. -/
  | scl (h : HearthId) (rd rs : GReg) (k : BitVec 5)
  /-- ZAPPLY (R254). ZAPPLY applies a group's zc-pending slots on a zero crossing and stores the sign. -/
  | zapply (h : HearthId) (rs : GReg) (g : Fin 16)
  /-- SYSR (R228). SYSR reads a numbered system register. -/
  | sysr (h : HearthId) (rd : GReg) (nr : Fin 32)
  /-- SYSW (R228). SYSW writes a numbered system register that has no action of its own. -/
  | sysw (h : HearthId) (nr : Fin 32) (rs : GReg)
  /-- WSTOW (R225). SYSW WSTOW stores the oldest resident window to the spill area. -/
  | wstow (h : HearthId)
  /-- WFETCH (R225). SYSW WFETCH reloads a window from the spill area. -/
  | wfetch (h : HearthId)
  /-- DOORBELL (R228). SYSW DOORBELL raises the Hearth's doorbell source. -/
  | doorbell (h : HearthId)
  /-- WDKICK (R250). SYSW WDKICK restarts the Hearth watchdog. -/
  | wdkick (h : HearthId)
  /-- BALL (R296). BALL acquires a ball through SYS_BALL and sets z from the grant. -/
  | ball (h : HearthId) (rd rs : GReg) (k : Byte)
  /-- BALL_R (R296). BALL.r releases a ball and traps on PERM. -/
  | ballR (h : HearthId) (rs : GReg) (k : Byte)
  /-- STALL_CLEAR (R237). An interlocked instruction retires once its data, room, token or sample event arrives. -/
  | stallClear (h : HearthId) (steps : BitVec 16)
  /-- STORE_DRAIN (R238). The store buffer drains its oldest entry to data RAM. -/
  | storeDrain (h : HearthId)
  /-- IMPRECISE_TRAP (R247). An error on a posted access or draining store raises a trap at the next boundary. -/
  | impreciseTrap (h : HearthId)
  /-- INTERRUPT_ENTRY (R244). An enabled pending interrupt is taken at a boundary, saving state and entering IBASE. -/
  | interruptEntry (h : HearthId) (squash : Bool)
  /-- WATCHDOG_EXPIRY (R250). The Hearth watchdog reaches its limit, records WDOG and raises the fault source. -/
  | watchdogExpiry (h : HearthId)
  /-- PARAM_VALUE (R252). A VALUE token writes a pending slot's shadow with policy STEP. -/
  | paramValue (h : HearthId)
  /-- PARAM_VALUE_ZC (R252). A VALUE_ZC token writes a pending slot's shadow with policy ZCSTEP. -/
  | paramValueZc (h : HearthId)
  /-- PARAM_ARM (R252). An ARM token arms a swap for sample N with a ZCSTEP window. -/
  | paramArm (h : HearthId)
  /-- PARAM_CANCEL (R252). A CANCEL token disarms the swap. -/
  | paramCancel (h : HearthId)
  /-- ZC_WINDOW_EXPIRY (R254). The ZCSTEP window runs out and remaining zc-pending slots apply at the next consumption point. -/
  | zcWindowExpiry (h : HearthId)
  /-- SLOT_SHADOW_WRITE (R255). A supervisor write to HRT_SLOT_SH acts as a VALUE. -/
  | slotShadowWrite (m : Mid) (h : HearthId) (i : Fin 256) (v : Word)
  /-- HEARTH_HALT (R256). A write of 0 to HRT_CTRL.run halts the Hearth at its next boundary. -/
  | hearthHalt (m : Mid) (h : HearthId)
  /-- HEARTH_RESUME (R256). A write of 1 to run resumes the Hearth at HRT_PC. -/
  | hearthResume (m : Mid) (h : HearthId)
  /-- HEARTH_RESET (R258). A write of 1 to HRT_CTRL.reset while halted resets the Hearth's state. -/
  | hearthReset (m : Mid) (h : HearthId) (run : Bool)
  /-- FENCE_GATE (R257). A write to HRT_FENCE.gate gates or ungates the Hearth's Flue output. -/
  | fenceGate (m : Mid) (h : HearthId) (v : Word)
  /-- IRQ_SET (R244). A write to HRT_IRQ_SET sets software interrupt pending bits. -/
  | irqSet (m : Mid) (h : HearthId) (v : Word)
  /-- PRIV_WRITE (R232). A write to SYS_HEARTH_PRIV changes Hearth privilege at their next boundary. -/
  | privWrite (m : Mid) (i : Fin 6) (v : Word)
  /-- INJ_ARM (R318). Writing 1 to MEMC_INJ_CTRL.arm arms check-bit injection for a word. -/
  | injArm (m : Mid) (v : Word)
  /-- SCRUB_ENABLE (R321). A write of 1 to MEMC_SCRUB_CTRL.en checks the range and starts a pass. -/
  | scrubEnable (m : Mid) (v : Word)
  /-- SCRUB_WORD (R322). The scrubber reads one word, correcting single-bit errors and counting others. -/
  | scrubWord
  /-- SCRUB_STOP (R324). A write of 0 to en stops the scrubber after the word in progress with a partial summary. -/
  | scrubStop (m : Mid) (v : Word)
  /-- CLEAR_ON_WAKE (R326). On power-up from OFF the hardware zeroes every Mantel and tile RAM word. -/
  | clearOnWake
  /-- CLEAR_DONE (R327). The clear ends, sets clear_done and admits held accesses. -/
  | clearDone
  /-- DMP_SET_PARAM (R332). A write to DMP_SET(s)_PARAM latches a parameter ID for the set. -/
  | dmpSetParam (m : Mid) (i : Fin 16) (v : Word)
  /-- DMP_SET_VALUE (R332). A write to DMP_SET(s)_VALUE appends an entry and increments COUNT. -/
  | dmpSetValue (m : Mid) (i : Fin 16) (v : Word)
  /-- DMP_SET_COUNT (R333). A write to DMP_SET(s)_COUNT sets or empties the set unless pending. -/
  | dmpSetCount (m : Mid) (i : Fin 16) (v : Word)
  /-- DMP_WR_VALUE (R334). A write to DMP_WR_VALUE queues a direct write with its commit count. -/
  | dmpWrValue (m : Mid) (v : Word)
  /-- DMP_KICK (R336). A write to DMP_KICK_AT_HI issues a Kickoff locally or by broadcast. -/
  | dmpKick (m : Mid) (v : Word)
  /-- DMP_ENABLE_WRITE (R339). A write of DMP_CTRL.en stops or resumes acceptance of new items. -/
  | dmpEnableWrite (m : Mid) (v : Word)
  /-- GROUP_CLOSE (R338). The group for N closes at N − lead, resolving ranks and completing direct writes. -/
  | groupClose
  /-- GROUP_DELIVERY (R341). The Damper sends a closed group's values and ARMs to each Hearth. -/
  | groupDelivery
  /-- KICK_REPORT_RECEIVE (R345). The issuer records a Kickoff report in DMP_KREP and updates the summary. -/
  | kickReportReceive
  /-- CUE_KEY_WRITE (R346). A write to CUE_KEY_HI loads the cue's key and initialises its state. -/
  | cueKeyWrite (m : Mid) (c : Fin 4096) (v : Word)
  /-- CUE_EVAL_NOW (R347). Writing 1 to CUE_EVAL_NOW requests a time-cue pass at the next Rally instant. -/
  | cueEvalNow (m : Mid) (v : Word)
  /-- CUE_LOG_POP (R353). A read of CUE_LOG pops the oldest firing entry. -/
  | cueLogPop (m : Mid)
  /-- TACH_EDGE (R355). An accepted tach edge counts the position and may change direction. -/
  | tachEdge (m : Fin 4) (a b : Bool)
  /-- INDEX_EDGE (R358). An accepted index edge captures and may load the position. -/
  | indexEdge (m : Fin 4) (rising : Bool)
  /-- SPEED_UPDATE (R359). Every 1 ms MIF updates speed and ratio and judges STALL and spool. -/
  | speedUpdate (m : Fin 4)
  /-- GATE_REQUEST (R368). MIF applies or refuses a GATE request from the cue engine. -/
  | gateRequest
  /-- MIF_GATE_SET (R370). A write to MIF_GATE_SET requests gates open under the refusal rules. -/
  | mifGateSet (m : Mid) (v : Word)
  /-- MIF_GATE_CLR (R370). A write to MIF_GATE_CLR closes gates. -/
  | mifGateClr (m : Mid) (v : Word)
  /-- MIF_DISABLE (R374). A write of 0 to MIF_CFG.en holds the position, reports STALL and closes gates. -/
  | mifDisable (m : Mid) (i : Fin 4) (v : Word)
  /-- LTC_FRAME_RECEIVE (R372). A good LTC frame is recorded as the latest frame and updates ltc_valid. -/
  | ltcFrameReceive (m : Fin 4) (b : BitVec 80) (periods : Bool) (speed : BitVec 16) (at_ : LtcCapture)
  /-- LTC_TIMEOUT (R372). No good LTC frame for 500 ms clears ltc_valid. -/
  | ltcTimeout (m : Fin 4)
  /-- LTC_ARM (R373). Writing 1 to MIF_LTCO_CTRL.arm schedules the generator's first frame. -/
  | ltcArm (m : Mid) (i : Fin 4) (v : Word)
  /-- LTC_FRAME_START (R373). The LTC generator starts a frame with the next time address. -/
  | ltcFrameStart (m : Fin 4)
  /-- LTC_UB_COMMIT (R373). Writing 1 to ub_commit makes the user bits those of the next frame. -/
  | ltcUbCommit (m : Mid) (i : Fin 4) (v : Word)
  /-- LTC_STOP (R373). A write of 0 to en stops the generator at the end of the frame. -/
  | ltcStop (m : Mid) (i : Fin 4) (v : Word)
  /-- LANE_RUN_START (R385). An idle lane starts its lowest pending loop at its entry. -/
  | laneRunStart (l : LaneId)
  /-- BEL_LD (R380). LD loads a data word or keep into a register. -/
  | belLd (l : LaneId) (r : BelSel) (i : Bool) (a : Fin 1024)
  /-- BEL_ST (R380). ST stores a register into a data word or keep. -/
  | belSt (l : LaneId) (r : BelSel) (i : Bool) (a : Fin 1024)
  /-- BEL_IN (R383). IN reads a port value into an accumulator, with a shift. -/
  | belIn (l : LaneId) (a : Fin 4) (n : Fin 32) (p : Fin 256)
  /-- BEL_OUT (R383). OUT writes a register to a port, which acts on it. -/
  | belOut (l : LaneId) (r : Fin 8) (p : Fin 256)
  /-- BEL_IN_MBOX (R392). IN from MBOX returns the mailbox payload and clears fresh. -/
  | belInMbox (l : LaneId) (a : Fin 4) (n : Fin 32) (i : Fin 4)
  /-- BEL_IN_MRD (R394). IN from MRD reads a Mantel window half-word and advances the index. -/
  | belInMrd (l : LaneId) (a : Fin 4) (n : Fin 32)
  /-- BEL_OUT_PWM (R390). OUT to PWM sets a compare value, or a signed pair drive. -/
  | belOutPwm (l : LaneId) (r : Fin 8) (n : Fin 32)
  /-- BEL_OUT_SPI_GO (R391). OUT to SPI_GO queues a servo SPI transfer on its select. -/
  | belOutSpiGo (l : LaneId) (r : Fin 8) (c : Fin 4) (j : Fin 8)
  /-- BEL_OUT_TXH (R383). OUT to TXH sets the lane's upper-half latch for an SPI master. -/
  | belOutTxh (l : LaneId) (r : Fin 8) (c : Fin 4)
  /-- BEL_OUT_EVT (R393). OUT to EVT sends an EVENT token from the Bellows station. -/
  | belOutEvt (l : LaneId) (r : Fin 8) (i : Fin 4)
  /-- BEL_OUT_EVTH (R383). OUT to EVTH sets the upper-half latch for EVT. -/
  | belOutEvth (l : LaneId) (r : Fin 8)
  /-- BEL_OUT_MIDX (R394). OUT to MIDX sets the Mantel window index. -/
  | belOutMidx (l : LaneId) (r : Fin 8)
  /-- BEL_OUT_MWR (R394). OUT to MWR posts a half-word write to the Mantel window and advances the index. -/
  | belOutMwr (l : LaneId) (r : Fin 8)
  /-- BEL_OUT_TEMP (R384). OUT to TEMP writes RSG_TEMP_EXT. -/
  | belOutTemp (l : LaneId) (r : Fin 8)
  /-- BEL_MAC (R380). MAC adds a 16 × 16 product into an A40 accumulator. -/
  | belMac (l : LaneId) (d a b : BelSel)
  /-- BEL_MSU (R380). MSU subtracts a product from an accumulator. -/
  | belMsu (l : LaneId) (d a b : BelSel)
  /-- BEL_MUL (R380). MUL writes a product into an accumulator. -/
  | belMul (l : LaneId) (d a b : BelSel)
  /-- BEL_ADD (R380). ADD adds two registers with wrap. -/
  | belAdd (l : LaneId) (d a b : BelSel)
  /-- BEL_SUB (R380). SUB subtracts two registers with wrap. -/
  | belSub (l : LaneId) (d a b : BelSel)
  /-- BEL_SHL (R380). SHL shifts left by n. -/
  | belShl (l : LaneId) (d a : BelSel) (n : Fin 64)
  /-- BEL_SHR (R380). SHR shifts right arithmetically by n. -/
  | belShr (l : LaneId) (d a : BelSel) (n : Fin 64)
  /-- BEL_MIN (R380). MIN selects the smaller signed value. -/
  | belMin (l : LaneId) (d a b : BelSel)
  /-- BEL_MAX (R380). MAX selects the larger signed value. -/
  | belMax (l : LaneId) (d a b : BelSel)
  /-- BEL_ABS (R380). ABS forms the magnitude. -/
  | belAbs (l : LaneId) (d a : BelSel)
  /-- BEL_NEG (R380). NEG negates a register. -/
  | belNeg (l : LaneId) (d a : BelSel)
  /-- BEL_CLR (R380). CLR clears an accumulator. -/
  | belClr (l : LaneId) (d : BelSel)
  /-- BEL_MOVA (R380). MOVA moves between an accumulator and an x register with a shift. -/
  | belMova (l : LaneId) (d a : BelSel) (n : Fin 64)
  /-- BEL_BFN (R379). BFN forms a BF16 mantissa at a given exponent. -/
  | belBfn (l : LaneId) (d a b : BelSel)
  /-- BEL_BFN_E (R379). BFN.e finds the smallest exponent at which a value fits. -/
  | belBfnE (l : LaneId) (d a : BelSel)
  /-- BEL_BFX (R379). BFX expands a BF16 mantissa into A40. -/
  | belBfx (l : LaneId) (d a b : BelSel)
  /-- BEL_JMP (R381). JMP jumps to a target. -/
  | belJmp (l : LaneId) (t : Fin 1024)
  /-- BEL_JZ (R381). JZ jumps if a register is zero. -/
  | belJz (l : LaneId) (r : BelSel) (t : Fin 1024)
  /-- BEL_JN (R381). JN jumps if a register is negative. -/
  | belJn (l : LaneId) (r : BelSel) (t : Fin 1024)
  /-- BEL_LOOP (R382). LOOP pushes a lane loop entry. -/
  | belLoop (l : LaneId) (c : BelCount) (stop : Fin 1024)
  /-- BEL_TICK_INSTR (R385). TICK ends the run and starts the next pending loop. -/
  | belTickInstr (l : LaneId)
  /-- LANE_HALT (R396). A write of 0 to BEL_LANE_CTRL.run halts the lane at its next boundary. -/
  | laneHalt (m : Mid) (l : LaneId)
  /-- LANE_RESUME (R396). A write of 1 to run resumes the lane. -/
  | laneResume (m : Mid) (l : LaneId)
  /-- LANE_RESET (R396). A write of 1 to reset while halted clears the lane's run state. -/
  | laneReset (m : Mid) (l : LaneId)
  /-- ENC_EDGE (R389). An accepted encoder edge counts, captures an index or counts an error. -/
  | encEdge (n : Fin 16) (a b i : Bool)
  /-- SPI_TRANSFER_START (R391). A servo SPI master starts the next queued transfer on its select. -/
  | spiTransferStart (c : Fin 4)
  /-- SPI_TRANSFER_COMPLETE (R391). A servo SPI transfer ends and stores its received word. -/
  | spiTransferComplete (c : Fin 4) (miso : Word)
  /-- MBOX_DELIVERY (R392). An EVENT token at the Bellows station overwrites matching mailboxes and sets fresh. -/
  | mboxDelivery
  /-- KEEP_WRITE (R398). A write to BEL_LANE_KHI applies the staged 40-bit keep in one instant. -/
  | keepWrite (m : Mid) (l : LaneId) (v : Word)
  /-- BLOCK_LOCK_CHANGE (R401). A Chimney receiver gains or loses block lock, taking the port DOWN on loss. -/
  | blockLockChange (p : Fin 4) (hdrs : List (BitVec 2))
  /-- TRAIN (R404). A TRAIN packet measures delay and may bring the port UP or ISOLATED. -/
  | train (p : Fin 4) (l : ChmLine)
  /-- TRAIN_TIMEOUT (R404). A port not UP after 10 ms restarts training. -/
  | trainTimeout (p : Fin 4)
  /-- BEACON_SEND (R409). Every 10 µs an engine floods a beacon naming its best leader candidate. -/
  | beaconSend
  /-- BEACON_RECEIVE (R409). A received beacon updates the election and may change the leader. -/
  | beaconReceive (down : List ChmEnd)
  /-- RALLY_FRAME_RECEIVE (R412). A follower computes d from a RALLY packet and forwards it. -/
  | rallyFrameReceive (p : Fin 4) (l : ChmLine) (frac res : BitVec 16)
  /-- UNMUTE (R415). After unmute Ts in Rally lock the follower unmutes. -/
  | unmute
  /-- RALLY_MISS (R414). No valid RALLY packet for miss Ts sets rally_miss and freezes the trim. -/
  | rallyMiss
  /-- AUDIO_GROUP_SEND (R417). At a group's send point the port sends an AUDIO packet of 64 slots. -/
  | audioGroupSend (p : Fin 4) (g : Fin 96)
  /-- AUDIO_GROUP_RECEIVE (R420). A good group forms tokens for its mapped slots and forwards slots. -/
  | audioGroupReceive (p : Fin 4) (l : ChmLine)
  /-- GROUP_DEADLINE (R420). A group missing at its deadline forms substitute tokens and counts late. -/
  | groupDeadline (p : Fin 4) (g : Fin 96)
  /-- ACK_RECEIVE (R423). An acknowledgement frees acknowledged packets from the send buffer. -/
  | ackReceive (p : Fin 4) (f : BitVec 16)
  /-- NAK_RECEIVE (R423). A NAK starts a Let from the oldest unacknowledged packet. -/
  | nakReceive (p : Fin 4) (f : BitVec 16)
  /-- LET_TIMEOUT (R423). 600 ns without acknowledgement starts a Let, or takes the port DOWN after LET_MAX. -/
  | letTimeout (p : Fin 4)
  /-- CTRL_PACKET_RECEIVE (R402). A CTRL packet is delivered or forwarded by kind. -/
  | ctrlPacketReceive (p : Fin 4) (l : ChmLine)
  /-- RA_READ (R425). A read of CHM_RA_RDATA issues a remote 32-bit read. -/
  | raRead (m : Mid)
  /-- RA_WRITE (R425). A write to CHM_RA_WDATA issues a remote 32-bit write. -/
  | raWrite (m : Mid) (v : Word)
  /-- REMOTE_REQUEST (R425). A remote request is made at the target under its remote MID and answered. -/
  | remoteRequest
  /-- REMOTE_COMPLETION (R428). A completion frees its tag, or is counted late if the tag is quarantined or idle. -/
  | remoteCompletion
  /-- RT_TIMEOUT (R427). A remote request without completion completes with TIMEOUT and its tag is quarantined. -/
  | rtTimeout (t : Fin 256)
  /-- QUARANTINE_EXPIRY (R428). A quarantined tag becomes free after 2 × CHM_RT_TIMEOUT. -/
  | quarantineExpiry (t : Fin 256)
  /-- KICKOFF_RECEIVE (R429). A broadcast Kickoff reaches an engine's Damper and is forwarded. -/
  | kickoffReceive
  /-- CHM_MAP_ARM (R421). Writing 1 to CHM_MAP_CTRL.arm starts loading the slot maps into the shadow tables. -/
  | chmMapArm (m : Mid) (v : Word)
  /-- CHM_MAP_LOAD_DONE (R421). The slot map load completes, or aborts on ECC. -/
  | chmMapLoadDone
  /-- CHM_MAP_SWAP (R421). At the key Rally instant the active and shadow slot tables exchange. -/
  | chmMapSwap
  /-- CHM_EVENT_FORWARD (R422). A matching EVENT token at an outbound station is carried to a remote engine. -/
  | chmEventForward (p : Fin 4)
  /-- CHM_WAKE (R430). Writing 1 to a CHM_WAKE bit makes the port send TRAIN blocks while DOWN. -/
  | chmWake (m : Mid) (v : Word)
  /-- SOURCE_RAISE (R435). An EVC source is raised or changes level and changes state. -/
  | sourceRaise (n : Fin 512) (level : Bool)
  /-- EVC_CLAIM (R440). A read of EVC_CLAIM(t) returns and pushes the highest deliverable source. -/
  | evcClaim (m : Mid) (t : Fin 8)
  /-- EVC_COMPLETE (R441). A write to EVC_COMPLETE(t) pops a matching source or is an Offside. -/
  | evcComplete (m : Mid) (t : Fin 8) (v : Word)
  /-- STACK_RESET (R446). A write to EVC_STACK_RESET(t) empties the stack and unfreezes the target. -/
  | stackReset (m : Mid) (t : Fin 8) (v : Word)
  /-- EVC_PEND_CLEAR (R435). Writing 1 to an edge source's EVC_PEND bit returns it to IDLE. -/
  | evcPendClear (m : Mid) (p : Fin 16) (v : Word)
  /-- EVC_SOFT (R433). Writing 1 to EVC_SOFT raises SRC_EVC_SOFT. -/
  | evcSoft (m : Mid) (v : Word)
  /-- EVC_SRC_CFG_WRITE (R450). A write to EVC_SRC_CFG applies at once or when the source leaves ACTIVE. -/
  | evcSrcCfgWrite (m : Mid) (n : Fin 512) (v : Word)
  /-- EVC_TGT_CFG_WRITE (R437). A write to EVC_TGT_CFG configures a target under its privilege and stack checks. -/
  | evcTgtCfgWrite (m : Mid) (t : Fin 8) (v : Word)
  /-- LOAD (R458). The Keeper LOAD command copies a pair's current payload into the Mantel. -/
  | load (e : SkpEvt)
  /-- STORE (R459). The Keeper STORE command writes a buffer into the non-current slot in commit order. -/
  | store (e : SkpEvt)
  /-- SCAN (R464). The Keeper SCAN command writes the pair table into the Mantel. -/
  | scan (e : SkpEvt)
  /-- ERASE (R465). The Keeper ERASE command makes a pair empty. -/
  | erase (e : SkpEvt)
  /-- LOAD_BOOT (R458). The Keeper LOAD_BOOT command loads the boot pair's current copy. -/
  | loadBoot (e : SkpEvt)
  /-- STORE_BOOT (R459). The Keeper STORE_BOOT command stores a boot image into the boot pair. -/
  | storeBoot (e : SkpEvt)
  /-- HASH (R457). The Keeper HASH command computes SHA-256 and CRC-32C of a Mantel range. -/
  | hash (e : SkpEvt)
  /-- SKP_ABORT (R463). Writing 1 to SKP_CMD.abort stops a command at its next page boundary. -/
  | skpAbort (m : Mid) (v : Word)
  /-- FLASH_POLL (R453). Every 10 µs the Keeper polls flash status, ending the operation or timing out with FLASH. -/
  | flashPoll (ready : Bool)
  /-- PFAIL (R461). PFAIL_N falling stops the Keeper's flash commands with result PFAIL. -/
  | pfail (low : Bool)
  /-- BOOT_ROM_START (R466). After clear_done Hearth 0 runs the boot ROM under the sampled straps. -/
  | bootRomStart
  /-- BOOT_GO (R471). A write of 1 to SKP_BOOT_GO.go makes the ROM check and apply a staged image. -/
  | bootGo (m : Mid) (v : Word)
  /-- OTP_PROGRAM (R469). Writing 1 to SKP_OTP_CTRL.go programs an OTP word. -/
  | otpProgram (m : Mid) (v : Word)
  /-- OTP_PROGRAM_DONE (R469). An OTP program ends and sets done. -/
  | otpProgramDone
  /-- PWR_GO (R476). A write of go to SYS_PWR_CTRL requests LIGHT, STANDBY or OFF, or is refused. -/
  | pwrGo (m : Mid) (v : Word)
  /-- LIGHT_ENTRY (R479). At the first Rally instant after go the engine stops ports and lanes and enters LIGHT. -/
  | lightEntry
  /-- LIGHT_EXIT (R481). A wake condition ends LIGHT and restarts ports, lanes and the RSG. -/
  | lightExit
  /-- STANDBY_ENTRY (R482). Entry into STANDBY or OFF halts everything, snapshots the extrapolator and steps the enables down. -/
  | standbyEntry
  /-- PWR_EN_STEP (R484). The Ember changes the next PWR_EN output after its sequencing delay. -/
  | pwrEnStep
  /-- PWR_GOOD_TIMEOUT (R484). Rails not good within 20 ms return the enables and record PWR_FAIL. -/
  | pwrGoodTimeout
  /-- WATCH_HIT (R495). A watched source meets its condition and starts a wake or ends LIGHT. -/
  | watchHit (i : Fin 32)
  /-- WAKE (R485). A wake powers up the rails and releases a system reset, clearing RAM if from OFF. -/
  | wake
  /-- RTC_TICK (R491). Each 32.768 kHz tick advances the RTC and may set the alarm. -/
  | rtcTick (phase : BitVec 8)
  /-- TEMP_SAMPLE (R500). Each 1 ms SYS_TEMP updates and SRC_TEMP follows the alarm threshold. -/
  | tempSample (temp rate : BitVec 16)
  /-- THERMAL_SHUTDOWN (R501). Temperature at crit for 1 ms forces the engine into OFF with cause THERMAL. -/
  | thermalShutdown
  /-- VAON_POWER_ON (R488). VAON rising resets the Ember and wakes the engine with cause VAON_POR. -/
  | vaonPowerOn
  /-- RESET_N (R489). RESET_N low raises a system reset lasting until 20 µs after it rises. -/
  | resetN (low : Bool)
  /-- SOFTWARE_RESET (R490). A keyed write to SYS_RST_CTRL raises a 20 µs system reset. -/
  | softwareReset (m : Mid) (v : Word)
  /-- PCIE_REQUEST (R506). A PCIe memory request is split into engine accesses and completed. -/
  | pcieRequest (r : PcieReq)
  /-- PCIE_RESET (R509). PERST, hot reset or link down resets the endpoint and optionally the system. -/
  | pcieReset (r : PcieRst)
  /-- MSIX_UNMASK (R510). Unmasking a vector with its PBA bit set sends the message and clears the bit. -/
  | msixUnmask (m : Mid) (v : Fin 64)
  /-- HIF_DB_WRITE (R511). A write to HIF_DB(i) stores the value, sets full and raises SRC_HOST_DB. -/
  | hifDbWrite (m : Mid) (i : Fin 4) (v : Word)
  /-- QSPI_WRITE (R513). A QSPI WRITE frame issues posted 32-bit writes. -/
  | qspiWrite (f : QspiWr)
  /-- QSPI_READ (R514). A QSPI READ frame issues reads and returns marker, words and status. -/
  | qspiRead (addr : Option Word) (count : Option (Fin 64)) (cut : Bool)
  /-- QSPI_STATUS (R512). A QSPI STATUS frame returns one status byte. -/
  | qspiStatus
  /-- JTAG_DBG_UPDATE (R516). Update-DR of DBG issues one 32-bit access under MID 0x302. -/
  | jtagDbgUpdate (op : Fin 4) (a v : Word)
  /-- HRT_DBG_STEP (R517). Writing 1 to HRT_DBG_CTRL.step executes one instruction of a halted Hearth. -/
  | hrtDbgStep (m : Mid) (h : HearthId) (v : Word)
  /-- HRT_DBG_DATA (R518). An access to HRT_DBG_DATA reads or writes the selected register of a halted Hearth. -/
  | hrtDbgData (m : Mid) (h : HearthId) (w : Option Word)
  /-- BEL_DBG_STEP (R519). A lane debug step executes one instruction or starts a pending loop. -/
  | belDbgStep (m : Mid) (l : LaneId) (v : Word)
  /-- BEL_DBG_DATA (R519). An access to BEL_LANE_DBG_DATA reads or writes a selected lane register. -/
  | belDbgData (m : Mid) (l : LaneId) (w : Option Word)
  /-- UART_TX (R520). A write to HIF_UART_TX queues a byte for sending. -/
  | uartTx (m : Mid) (v : Word)
  /-- UART_RX_BYTE (R520). A byte arriving on DBG_RX enters the receive FIFO or is dropped. -/
  | uartRxByte (b : Byte) (stop : Bool)
  /-- UART_RX_POP (R520). A read of HIF_UART_RX pops a received byte. -/
  | uartRxPop (m : Mid)
  /-- GPIO_OUT_SET (R521). A write to HIF_GPIO_OUT_SET sets output bits. -/
  | gpioOutSet (m : Mid) (v : Word)
  /-- GPIO_OUT_CLR (R521). A write to HIF_GPIO_OUT_CLR clears output bits. -/
  | gpioOutClr (m : Mid) (v : Word)
  /-- AES_RX_LOCK (R148). An unlocked AES3 receiver sees three frames in a row with valid preambles and becomes locked. -/
  | aesRxLock (i : Fin 8)
  /-- MADI_RX_LOCK (R155). A MADI receiver gains or loses frame lock on its line data and signal detect. -/
  | madiRxLock (m : Fin 2) (lock : Bool)
  /-- WCLK_EDGE (R79). A rising edge on WCLK0 or WCLK1 is timed against the XO for the candidate's rate and phase. -/
  | wclkEdge (n : Fin 2)
  /-- MED_DIR_EDGE (R361). An accepted edge on MEDm_DIR changes the direction of a transport with dir_src 1. -/
  | medDirEdge (m : Fin 4) (level : Bool)
  /-- RESERVED_ENCODING (R261). A Hearth fetches a reserved instruction word and takes trap ILLEGAL. -/
  | reservedEncoding (h : HearthId) (w : Word)
  /-- BEL_RESERVED_WORD (R380). A Bellows lane fetches a reserved word and raises lane fault ILLEGAL. -/
  | belReservedWord (l : LaneId) (w : Word)
  /-- RAILS_GOOD (R484). After the last enable change up, the on-die monitors find VCORE, VMEM and the XO good, and the wake goes on to release reset. -/
  | railsGood
  /-- XO_LOSS (R558). XO_IN stops, halting the media clock, the port clocks, the time bases and every Ts while the Ember runs on. -/
  | xoLoss
  /-- PCIE_LINK_UP (R509). The PCIe link trains up, setting link_up and link_chg and asserting SRC_PCIE. -/
  | pcieLinkUp (speed width : Fin 8)
  /-- PCIE_CONFIG_REQUEST (R508). A configuration request sets Memory Space Enable, Bus Master Enable, MSI-X Enable, the Function Mask or D3hot. -/
  | pcieConfigRequest (c : PcieCfg)
  /-- QSPI_UNKNOWN_OPCODE (R514). A QSPI frame with an unknown opcode sets frame_err, makes no access and raises SRC_QSPI. -/
  | qspiUnknownOpcode (op : Byte)
  /-- UART_TX_BYTE_SENT (R520). The debug UART finishes sending a byte and removes it from the transmit FIFO. -/
  | uartTxByteSent
  /-- JTAG_IR_UPDATE (R515). The TAP updates its instruction register, or Test-Logic-Reset selects IDCODE, choosing the data register. -/
  | jtagIrUpdate (code : Option Byte)
  /-- SERVO_ENABLE (R113). A write of TSU_SRV(d)_CFG.en moves the servo to LISTENING or DISABLED and raises SRC_TSU_SERVO. -/
  | servoEnable (m : Mid) (d : Fin 2) (v : Word)
  /-- CHM_ENABLE (R431). A write of CHM_CTRL.en or CHM_P_CTRL.en checks the topology and slot budget and starts the Chimney or a port. -/
  | chmEnable (m : Mid) (port : Option (Fin 4)) (v : Word)
  /-- NET_STREAM_ENABLE (R173). A write of 1 to a stream's CTRL.en checks the channel, packet and buffer limits and starts the stream with its SEQ. -/
  | netStreamEnable (m : Mid) (tx : Bool) (i : Fin 64) (v : Word)
  /-- PORT_DMA_ENABLE (R164). A write of 1 to a port's DIN or DOUT _CFG.en checks the ring layout and starts port DMA. -/
  | portDmaEnable (m : Mid) (p : PortId) (out : Bool) (v : Word)
  /-- MIF_ENABLE (R374). A write of 1 to MIF_CFG(m).en starts the transport counting and leaves the disabled STALL state. -/
  | mifEnable (m : Mid) (i : Fin 4) (v : Word)
  /-- AESM_PORT_ENABLE (R160). A write of en on an AES3 or MADI direction checks its ASRC allocation and starts or stops that port. -/
  | aesmPortEnable (m : Mid) (r : AesmReg) (v : Word)
  /-- ENC_COUNT_WRITE (R389). A write to BEL_ENC_COUNT loads the encoder count at the next 10 ns slot, ahead of any edge in that slot. -/
  | encCountWrite (m : Mid) (n : Fin 16) (v : Word)
deriving DecidableEq, Repr

end Sys2Proof
end

