-- ==== Sys2Proof/Decode.lean ====
section
/-! DEFINITION. The commands that words spell by the table's bits. No row of spec/opcode_table.json has bits: the block takes
commands, and no word spells one. The words of the Hearth's instructions are in Machine/HearthDecode.lean. -/

namespace Sys2Proof

/-- The command that a word spells by the table's bits: none, as no row has any. -/
def decodeTableWord (_nbits _w : Nat) : Option Instr := none

end Sys2Proof
end

