-- ==== Sys2Proof/Config.lean ====
section
/-! DEFINITION. What the manual fixes per part or leaves open: the free values. -/

namespace Sys2Proof.Config

/-- A value that the manual leaves open. Nothing constrains it: every use applies it to a fresh number, so no two uses
are known to be equal. DESIGN CHOICE, log entry 3. -/
opaque freeValue : Nat → BitVec 64

/-- Which of the results within the error bound of R289 an Assist operation gives, for an operation and its operand. The
same operand always gives the same result (R24). DESIGN CHOICE, log entry 3. -/
opaque assistPick : Nat → Word → BitVec 64

end Sys2Proof.Config
end

