-- ==== Sys2Proof/Machine/RegTable.lean ====
section
/-! DEFINITION. The register tables of spec/00 to spec/19, row by row: engine address, reset value and the access code
of every field (R9). A row that the spec repeats over instances carries its counts and strides (the Hearth windows of
R41 are 192 at a stride of 0x1_0000). -/

namespace Sys2Proof.Machine

/-- A bit field [hi:lo] of a register. -/
structure Fld where
  hi : Nat
  lo : Nat
deriving DecidableEq, Repr

/-- One row of a register table. `rw`, `w1c`, `rc` and `w1s` are the masks of the fields with that access code; every
other bit is read-only, write-only or reserved, and a plain write leaves it (R10). `special` lists the instances whose
reset value differs. -/
structure RegRow where
  base : Nat
  n1 : Nat
  s1 : Nat
  n2 : Nat
  s2 : Nat
  reset : Nat
  rw : Nat
  w1c : Nat
  rc : Nat
  w1s : Nat
  special : List (Nat × Nat)
deriving DecidableEq, Repr

/-! Engine addresses of the registers, by name; the arguments are the instances in the order of the spec's tables. -/

/-- HRT_PACE_CTRL (01, R33). -/
abbrev HRT_PACE_CTRL (i : Nat) : Nat := 0x0100C100 + 0x10000 * i
/-- HRT_PACE_THRESH (01, R36). -/
abbrev HRT_PACE_THRESH (i : Nat) : Nat := 0x0100C104 + 0x10000 * i
/-- HRT_PACE_LAST (01, R34). -/
abbrev HRT_PACE_LAST (i : Nat) : Nat := 0x0100C108 + 0x10000 * i
/-- HRT_PACE_MIN (01, R35). -/
abbrev HRT_PACE_MIN (i : Nat) : Nat := 0x0100C10C + 0x10000 * i
/-- HRT_PACE_MAXSTEPS (01, R34). -/
abbrev HRT_PACE_MAXSTEPS (i : Nat) : Nat := 0x0100C110 + 0x10000 * i
/-- HRT_PACE_STATUS (01, R36). -/
abbrev HRT_PACE_STATUS (i : Nat) : Nat := 0x0100C114 + 0x10000 * i
/-- HRT_PACE_OVERRUNS (01, R34). -/
abbrev HRT_PACE_OVERRUNS (i : Nat) : Nat := 0x0100C118 + 0x10000 * i
/-- HRT_PACE_LATE (01, R37). -/
abbrev HRT_PACE_LATE (i : Nat) : Nat := 0x0100C11C + 0x10000 * i
/-- SYS_PACE_NEAR (01, R36). -/
abbrev SYS_PACE_NEAR (i : Nat) : Nat := 0x02000600 + 0x4 * i
/-- SYS_VIOL_ADDR (02, R50). -/
abbrev SYS_VIOL_ADDR : Nat := 0x02000100
/-- SYS_VIOL_INFO (02, R50). -/
abbrev SYS_VIOL_INFO : Nat := 0x02000104
/-- SYS_VIOL_COUNT (02, R50). -/
abbrev SYS_VIOL_COUNT : Nat := 0x02000108
/-- SYS_FENCE (02, R60). -/
abbrev SYS_FENCE : Nat := 0x02000110
/-- SYS_BALL_TURNOVER (02, R72). -/
abbrev SYS_BALL_TURNOVER : Nat := 0x02000200
/-- SYS_BALL_TURN_INFO (02, R73). -/
abbrev SYS_BALL_TURN_INFO : Nat := 0x02000204
/-- SYS_BALL_TURNED (02, R73). The summary table prints the eight words at 0x0210 to 0x021C, where four have room; they lie at
0x0210 to 0x022C. DESIGN CHOICE, log entry 172. -/
abbrev SYS_BALL_TURNED (i : Nat) : Nat := 0x02000210 + 0x4 * i
/-- SYS_BALL (02, R66). -/
abbrev SYS_BALL (i : Nat) : Nat := 0x02001000 + 0x4 * i
/-- SYS_BALL_PEEK (02, R66). -/
abbrev SYS_BALL_PEEK (i : Nat) : Nat := 0x02001400 + 0x4 * i
/-- SYS_BALL_LEASE (02, R71). -/
abbrev SYS_BALL_LEASE (i : Nat) : Nat := 0x02001800 + 0x4 * i
/-- RSG_CTRL (03, R92). -/
abbrev RSG_CTRL : Nat := 0x02040000
/-- RSG_STATE (03, R92). -/
abbrev RSG_STATE : Nat := 0x02040004
/-- RSG_STATUS (03, R92). -/
abbrev RSG_STATUS : Nat := 0x02040008
/-- RSG_FREQ_LO (03, R104). -/
abbrev RSG_FREQ_LO : Nat := 0x02040010
/-- RSG_HOLD_LO (03, R104). -/
abbrev RSG_HOLD_LO : Nat := 0x02040018
/-- RSG_PRIO (03, R81). -/
abbrev RSG_PRIO (i : Nat) : Nat := 0x02040020 + 0x4 * i
/-- RSG_HOLD_CFG (03, R97). -/
abbrev RSG_HOLD_CFG : Nat := 0x02040040
/-- RSG_HOLD_ELAPSED (03, R101). -/
abbrev RSG_HOLD_ELAPSED : Nat := 0x02040044
/-- RSG_HIST_COUNT (03, R96). -/
abbrev RSG_HIST_COUNT : Nat := 0x02040048
/-- RSG_SLEW (03, R78). -/
abbrev RSG_SLEW : Nat := 0x02040050
/-- RSG_LOCK (03, R94). -/
abbrev RSG_LOCK : Nat := 0x02040054
/-- RSG_TYPE_LIM (03, R85). -/
abbrev RSG_TYPE_LIM (i : Nat) : Nat := 0x02040080 + 0x10 * i
/-- RSG_TYPE_QUAL (03, R86). -/
abbrev RSG_TYPE_QUAL (i : Nat) : Nat := 0x02040084 + 0x10 * i
/-- RSG_CAND_STAT (03, R90). -/
abbrev RSG_CAND_STAT (i : Nat) : Nat := 0x02040100 + 0x4 * i
/-- RSG_CAND_OFFS (03, R85). -/
abbrev RSG_CAND_OFFS (i : Nat) : Nat := 0x02040180 + 0x4 * i
/-- RSG_TEMP_C (03, R99). -/
abbrev RSG_TEMP_C (i : Nat) : Nat := 0x02040200 + 0x4 * i
/-- RSG_AGE_A (03, R98). -/
abbrev RSG_AGE_A : Nat := 0x0204020C
/-- RSG_AGE_B (03, R98). -/
abbrev RSG_AGE_B : Nat := 0x02040210
/-- RSG_AGE_EPOCH (03, R98). -/
abbrev RSG_AGE_EPOCH : Nat := 0x02040214
/-- RSG_TEMP_EXT (03, R100). -/
abbrev RSG_TEMP_EXT : Nat := 0x02040218
/-- RSG_TEMP_NOW (03, R100). -/
abbrev RSG_TEMP_NOW : Nat := 0x0204021C
/-- RSG_MED_NOM (03, R79). -/
abbrev RSG_MED_NOM (i : Nat) : Nat := 0x02040220 + 0x4 * i
/-- RSG_BUFLEVEL_SRC (03, R79). -/
abbrev RSG_BUFLEVEL_SRC : Nat := 0x02040230
/-- TSU_STATUS (04, Table: TSU_STATUS). -/
abbrev TSU_STATUS : Nat := 0x02050000
/-- TSU_TOD_NS (04, R111). -/
abbrev TSU_TOD_NS : Nat := 0x02050010
/-- TSU_TOD_STAT (04, R56). -/
abbrev TSU_TOD_STAT : Nat := 0x0205001C
/-- TSU_TOD_FREQ (04, R112). -/
abbrev TSU_TOD_FREQ : Nat := 0x02050020
/-- TSU_RALLY_LO (04, R123). -/
abbrev TSU_RALLY_LO : Nat := 0x02050030
/-- TSU_RALLY_STAT (04, R56). -/
abbrev TSU_RALLY_STAT : Nat := 0x02050038
/-- TSU_RALLY_CFG (04, R124). -/
abbrev TSU_RALLY_CFG : Nat := 0x02050040
/-- TSU_RALLY_JUMP (04, R126). -/
abbrev TSU_RALLY_JUMP : Nat := 0x02050044
/-- TSU_RALLY_ERR (04, R125). -/
abbrev TSU_RALLY_ERR : Nat := 0x02050048
/-- TSU_RALLY_OFFSET_LO (04, R135). -/
abbrev TSU_RALLY_OFFSET_LO : Nat := 0x02050050
/-- TSU_CLKID_LO (04, R107). -/
abbrev TSU_CLKID_LO : Nat := 0x02050060
/-- TSU_CLKID_HI (04, R107). -/
abbrev TSU_CLKID_HI : Nat := 0x02050064
/-- TSU_PORTNUM (04, R107). -/
abbrev TSU_PORTNUM : Nat := 0x02050068
/-- TSU_DEUCE_CTRL (04, R117). -/
abbrev TSU_DEUCE_CTRL : Nat := 0x02050080
/-- TSU_DEUCE_STAT (04, R117). -/
abbrev TSU_DEUCE_STAT : Nat := 0x02050084
/-- TSU_DEUCE_OFFSET_LO (04, R135). -/
abbrev TSU_DEUCE_OFFSET_LO : Nat := 0x02050088
/-- TSU_DEUCE_SWITCHES (04, R118). -/
abbrev TSU_DEUCE_SWITCHES : Nat := 0x02050090
/-- TSU_SRV_CFG (04, R113). -/
abbrev TSU_SRV_CFG (i : Nat) : Nat := 0x02050100 + 0x80 * i
/-- TSU_SRV_LOOP (04, R114). -/
abbrev TSU_SRV_LOOP (i : Nat) : Nat := 0x02050104 + 0x80 * i
/-- TSU_SRV_LOCK (04, R113). -/
abbrev TSU_SRV_LOCK (i : Nat) : Nat := 0x02050108 + 0x80 * i
/-- TSU_SRV_FILT (04, R113). -/
abbrev TSU_SRV_FILT (i : Nat) : Nat := 0x0205010C + 0x80 * i
/-- TSU_SRV_PARENT_LO (04, R113). -/
abbrev TSU_SRV_PARENT_LO (i : Nat) : Nat := 0x02050110 + 0x80 * i
/-- TSU_SRV_PARENT_MID (04, R113). -/
abbrev TSU_SRV_PARENT_MID (i : Nat) : Nat := 0x02050114 + 0x80 * i
/-- TSU_SRV_PARENT_HI (04, R113). -/
abbrev TSU_SRV_PARENT_HI (i : Nat) : Nat := 0x02050118 + 0x80 * i
/-- TSU_SRV_VLAN (04, R106). -/
abbrev TSU_SRV_VLAN (i : Nat) : Nat := 0x0205011C + 0x80 * i
/-- TSU_SRV_STATE (04, R113). -/
abbrev TSU_SRV_STATE (i : Nat) : Nat := 0x02050120 + 0x80 * i
/-- TSU_SRV_OFFS_LO (04, R135). -/
abbrev TSU_SRV_OFFS_LO (i : Nat) : Nat := 0x02050124 + 0x80 * i
/-- TSU_SRV_FREQ (04, R114). -/
abbrev TSU_SRV_FREQ (i : Nat) : Nat := 0x0205012C + 0x80 * i
/-- TSU_SRV_MPD (04, R109). -/
abbrev TSU_SRV_MPD (i : Nat) : Nat := 0x02050130 + 0x80 * i
/-- TSU_SRV_OUTLIERS (04, R109). -/
abbrev TSU_SRV_OUTLIERS (i : Nat) : Nat := 0x02050134 + 0x80 * i
/-- TSU_MAC_LAT (04, R106). -/
abbrev TSU_MAC_LAT (i : Nat) : Nat := 0x02050200 + 0x10 * i
/-- TSU_MAC_ASYM (04, R109). -/
abbrev TSU_MAC_ASYM (i : Nat) : Nat := 0x02050204 + 0x10 * i
/-- TSU_TTRIG_CTRL (04, R128). -/
abbrev TSU_TTRIG_CTRL (i : Nat) : Nat := 0x02050300 + 0x20 * i
/-- TSU_TTRIG_KEY_LO (04, R128). -/
abbrev TSU_TTRIG_KEY_LO (i : Nat) : Nat := 0x02050304 + 0x20 * i
/-- TSU_TTRIG_KEY_MID (04, R128). -/
abbrev TSU_TTRIG_KEY_MID (i : Nat) : Nat := 0x02050308 + 0x20 * i
/-- TSU_TTRIG_KEY_HI (04, R128). -/
abbrev TSU_TTRIG_KEY_HI (i : Nat) : Nat := 0x0205030C + 0x20 * i
/-- TSU_TTRIG_PERIOD (04, R131). -/
abbrev TSU_TTRIG_PERIOD (i : Nat) : Nat := 0x02050310 + 0x20 * i
/-- TSU_TTRIG_STAT (04, R131). -/
abbrev TSU_TTRIG_STAT (i : Nat) : Nat := 0x02050314 + 0x20 * i
/-- TSU_TCAP_CTRL (04, R133). -/
abbrev TSU_TCAP_CTRL (i : Nat) : Nat := 0x02050600 + 0x20 * i
/-- TSU_TCAP_NS (04, R134). -/
abbrev TSU_TCAP_NS (i : Nat) : Nat := 0x02050604 + 0x20 * i
/-- TSU_TCAP_STAT (04, R133). -/
abbrev TSU_TCAP_STAT (i : Nat) : Nat := 0x02050618 + 0x20 * i
/-- SAP_GLOBAL (05, R540). -/
abbrev SAP_GLOBAL : Nat := 0x02060000
/-- SAP_CTRL (05, R142). -/
abbrev SAP_CTRL (i : Nat) : Nat := 0x02061000 + 0x400 * i
/-- SAP_FMT (05, R142). -/
abbrev SAP_FMT (i : Nat) : Nat := 0x02061004 + 0x400 * i
/-- SAP_TURN (05, R25). -/
abbrev SAP_TURN (i : Nat) : Nat := 0x02061008 + 0x400 * i
/-- SAP_STAT (05, R158). -/
abbrev SAP_STAT (i : Nat) : Nat := 0x0206100C + 0x400 * i
/-- SAP_SLIPS (05, R157). -/
abbrev SAP_SLIPS (i : Nat) : Nat := 0x02061010 + 0x400 * i
/-- SAP_MEAS (05, R158). -/
abbrev SAP_MEAS (i : Nat) : Nat := 0x02061014 + 0x400 * i
/-- SAP_FILL (05, R161). -/
abbrev SAP_FILL (i : Nat) : Nat := 0x02061018 + 0x400 * i
/-- SAP_DIN_BASE (05, R164). -/
abbrev SAP_DIN_BASE (i : Nat) : Nat := 0x02061020 + 0x400 * i
/-- SAP_DOUT_BASE (05, R164). -/
abbrev SAP_DOUT_BASE (i : Nat) : Nat := 0x02061030 + 0x400 * i
/-- SAP_IMAP (05, R145). -/
abbrev SAP_IMAP (i j : Nat) : Nat := 0x02061100 + 0x400 * i + 0x4 * j
/-- SAP_OMAP (05, R145). -/
abbrev SAP_OMAP (i j : Nat) : Nat := 0x02061200 + 0x400 * i + 0x4 * j
/-- AES_RX_CTRL (05, R148). -/
abbrev AES_RX_CTRL (i : Nat) : Nat := 0x02071000 + 0x100 * i
/-- AES_RX_TAGS (05, R149). -/
abbrev AES_RX_TAGS (i : Nat) : Nat := 0x02071004 + 0x100 * i
/-- AES_RX_STAT (05, R150). -/
abbrev AES_RX_STAT (i : Nat) : Nat := 0x02071008 + 0x100 * i
/-- AES_RX_ERRS (05, R149). -/
abbrev AES_RX_ERRS (i : Nat) : Nat := 0x0207100C + 0x100 * i
/-- AES_RX_SLIPS (05, R157). -/
abbrev AES_RX_SLIPS (i : Nat) : Nat := 0x02071010 + 0x100 * i
/-- AES_RX_MEAS (05, R158). -/
abbrev AES_RX_MEAS (i : Nat) : Nat := 0x02071014 + 0x100 * i
/-- AES_RX_FILL (05, R161). -/
abbrev AES_RX_FILL (i : Nat) : Nat := 0x02071018 + 0x100 * i
/-- AES_RX_DIN_BASE (05, R164). -/
abbrev AES_RX_DIN_BASE (i : Nat) : Nat := 0x02071020 + 0x100 * i
/-- AES_RX_CS_A (05, R150). -/
abbrev AES_RX_CS_A (i j : Nat) : Nat := 0x02071040 + 0x100 * i + 0x4 * j
/-- AES_RX_CS_B (05, R150). -/
abbrev AES_RX_CS_B (i j : Nat) : Nat := 0x02071058 + 0x100 * i + 0x4 * j
/-- AES_RX_U_A (05, R150). -/
abbrev AES_RX_U_A (i j : Nat) : Nat := 0x02071070 + 0x100 * i + 0x4 * j
/-- AES_RX_U_B (05, R150). -/
abbrev AES_RX_U_B (i j : Nat) : Nat := 0x02071088 + 0x100 * i + 0x4 * j
/-- AES_TX_CTRL (05, R152). -/
abbrev AES_TX_CTRL (i : Nat) : Nat := 0x02072000 + 0x100 * i
/-- AES_TX_TAGS (05, R151). -/
abbrev AES_TX_TAGS (i : Nat) : Nat := 0x02072004 + 0x100 * i
/-- AES_TX_STAT (05, R158). -/
abbrev AES_TX_STAT (i : Nat) : Nat := 0x02072008 + 0x100 * i
/-- AES_TX_OWN (05, R30). -/
abbrev AES_TX_OWN (i : Nat) : Nat := 0x0207200C + 0x100 * i
/-- AES_TX_DOUT_BASE (05, R164). -/
abbrev AES_TX_DOUT_BASE (i : Nat) : Nat := 0x02072030 + 0x100 * i
/-- AES_TX_CS (05, R152). -/
abbrev AES_TX_CS (i j : Nat) : Nat := 0x02072040 + 0x100 * i + 0x4 * j
/-- MADI_CTRL (05, R153). -/
abbrev MADI_CTRL (i : Nat) : Nat := 0x02074000 + 0x400 * i
/-- MADI_TAGS (05, R155). -/
abbrev MADI_TAGS (i : Nat) : Nat := 0x02074004 + 0x400 * i
/-- MADI_STAT (05, R154). -/
abbrev MADI_STAT (i : Nat) : Nat := 0x02074008 + 0x400 * i
/-- MADI_ERRS (05, R155). -/
abbrev MADI_ERRS (i : Nat) : Nat := 0x0207400C + 0x400 * i
/-- MADI_SLIPS (05, R157). -/
abbrev MADI_SLIPS (i : Nat) : Nat := 0x02074010 + 0x400 * i
/-- MADI_MEAS (05, R158). -/
abbrev MADI_MEAS (i : Nat) : Nat := 0x02074014 + 0x400 * i
/-- MADI_FILL (05, R161). -/
abbrev MADI_FILL (i : Nat) : Nat := 0x02074018 + 0x400 * i
/-- MADI_OWN (05, R30). -/
abbrev MADI_OWN (i : Nat) : Nat := 0x0207401C + 0x400 * i
/-- MADI_DIN_BASE (05, R164). -/
abbrev MADI_DIN_BASE (i : Nat) : Nat := 0x02074020 + 0x400 * i
/-- MADI_DOUT_BASE (05, R164). -/
abbrev MADI_DOUT_BASE (i : Nat) : Nat := 0x02074030 + 0x400 * i
/-- MADI_TX_PHASE (05, R156). -/
abbrev MADI_TX_PHASE (i : Nat) : Nat := 0x02074038 + 0x400 * i
/-- MADI_RX_CS (05, R155). -/
abbrev MADI_RX_CS (i j : Nat) : Nat := 0x02074040 + 0x400 * i + 0x4 * j
/-- MADI_TX_CS (05, R156). -/
abbrev MADI_TX_CS (i j : Nat) : Nat := 0x02074060 + 0x400 * i + 0x4 * j
/-- ASRC_ALLOC (05, R162). -/
abbrev ASRC_ALLOC (i : Nat) : Nat := 0x02081000 + 0x4 * i
/-- ASRC_RATIO (05, R163). -/
abbrev ASRC_RATIO (i : Nat) : Nat := 0x02081400 + 0x4 * i
/-- ASRC_LOCK (05, R163). -/
abbrev ASRC_LOCK (i : Nat) : Nat := 0x02081600 + 0x4 * i
/-- ASRC_STAT (05, R163). -/
abbrev ASRC_STAT : Nat := 0x02081610
/-- NET_MAC_CTRL (06, R168). -/
abbrev NET_MAC_CTRL (i : Nat) : Nat := 0x02090000 + 0x100 * i
/-- NET_MAC_STAT (06, R168). -/
abbrev NET_MAC_STAT (i : Nat) : Nat := 0x02090004 + 0x100 * i
/-- NET_MAC_ADDR_LO (06, R192). -/
abbrev NET_MAC_ADDR_LO (i : Nat) : Nat := 0x02090008 + 0x100 * i
/-- NET_MAC_ADDR_HI (06, R192). -/
abbrev NET_MAC_ADDR_HI (i : Nat) : Nat := 0x0209000C + 0x100 * i
/-- NET_MAC_IP (06, R192). -/
abbrev NET_MAC_IP (i : Nat) : Nat := 0x02090010 + 0x100 * i
/-- NET_MAC_MC_HASH (06, R170). -/
abbrev NET_MAC_MC_HASH (i j : Nat) : Nat := 0x02090014 + 0x100 * i + 0x4 * j
/-- NET_MAC_RX_FRAMES (06, R170). -/
abbrev NET_MAC_RX_FRAMES (i : Nat) : Nat := 0x02090020 + 0x100 * i
/-- NET_MAC_RX_BAD (06, R170). -/
abbrev NET_MAC_RX_BAD (i : Nat) : Nat := 0x02090024 + 0x100 * i
/-- NET_MAC_RX_UNMATCHED (06, R170). -/
abbrev NET_MAC_RX_UNMATCHED (i : Nat) : Nat := 0x02090028 + 0x100 * i
/-- NET_MAC_TX_FRAMES (06, R188). -/
abbrev NET_MAC_TX_FRAMES (i : Nat) : Nat := 0x0209002C + 0x100 * i
/-- NET_MAC_TX_DROPS (06, R188). -/
abbrev NET_MAC_TX_DROPS (i : Nat) : Nat := 0x02090030 + 0x100 * i
/-- NET_HRX_BASE (06, R190). -/
abbrev NET_HRX_BASE : Nat := 0x02090400
/-- NET_HRX_CFG (06, R190). -/
abbrev NET_HRX_CFG : Nat := 0x02090404
/-- NET_HRX_HEAD (06, R190). -/
abbrev NET_HRX_HEAD : Nat := 0x02090408
/-- NET_HRX_TAIL (06, R190). -/
abbrev NET_HRX_TAIL : Nat := 0x0209040C
/-- NET_HTX_BASE (06, R191). -/
abbrev NET_HTX_BASE : Nat := 0x02090410
/-- NET_HTX_CFG (06, R191). -/
abbrev NET_HTX_CFG : Nat := 0x02090414
/-- NET_HTX_HEAD (06, R191). -/
abbrev NET_HTX_HEAD : Nat := 0x02090418
/-- NET_HTX_TAIL (06, R191). -/
abbrev NET_HTX_TAIL : Nat := 0x0209041C
/-- NET_RXS_CTRL (06, R173). -/
abbrev NET_RXS_CTRL (i : Nat) : Nat := 0x02091000 + 0x40 * i
/-- NET_RXS_TIMING (06, R178). -/
abbrev NET_RXS_TIMING (i : Nat) : Nat := 0x02091004 + 0x40 * i
/-- NET_RXS_RTP_OFFSET (06, R176). -/
abbrev NET_RXS_RTP_OFFSET (i : Nat) : Nat := 0x02091008 + 0x40 * i
/-- NET_RXS_SSRC (06, R180). -/
abbrev NET_RXS_SSRC (i : Nat) : Nat := 0x0209100C + 0x40 * i
/-- NET_RXS_BUF_BASE (06, R177). -/
abbrev NET_RXS_BUF_BASE (i : Nat) : Nat := 0x02091010 + 0x40 * i
/-- NET_RXS_BUF_CFG (06, R177). -/
abbrev NET_RXS_BUF_CFG (i : Nat) : Nat := 0x02091014 + 0x40 * i
/-- NET_RXS_POS (06, R178). -/
abbrev NET_RXS_POS (i : Nat) : Nat := 0x02091018 + 0x40 * i
/-- NET_RXS_FILL (06, R182). -/
abbrev NET_RXS_FILL (i : Nat) : Nat := 0x0209101C + 0x40 * i
/-- NET_RXS_LEG0_IP (06, R170). -/
abbrev NET_RXS_LEG0_IP (i : Nat) : Nat := 0x02091020 + 0x40 * i
/-- NET_RXS_LEG1_IP (06, R170). -/
abbrev NET_RXS_LEG1_IP (i : Nat) : Nat := 0x02091030 + 0x40 * i
/-- NET_RXS_STAT (06, R179). -/
abbrev NET_RXS_STAT (i : Nat) : Nat := 0x02092000 + 0x40 * i
/-- NET_RXS_PKTS0 (06, R184). -/
abbrev NET_RXS_PKTS0 (i : Nat) : Nat := 0x02092004 + 0x40 * i
/-- NET_RXS_PKTS1 (06, R184). -/
abbrev NET_RXS_PKTS1 (i : Nat) : Nat := 0x02092008 + 0x40 * i
/-- NET_RXS_LOST0 (06, R184). -/
abbrev NET_RXS_LOST0 (i : Nat) : Nat := 0x0209200C + 0x40 * i
/-- NET_RXS_LOST1 (06, R184). -/
abbrev NET_RXS_LOST1 (i : Nat) : Nat := 0x02092010 + 0x40 * i
/-- NET_RXS_DUPS (06, R183). -/
abbrev NET_RXS_DUPS (i : Nat) : Nat := 0x02092014 + 0x40 * i
/-- NET_RXS_LATE (06, R179). -/
abbrev NET_RXS_LATE (i : Nat) : Nat := 0x02092018 + 0x40 * i
/-- NET_RXS_EARLY (06, R179). -/
abbrev NET_RXS_EARLY (i : Nat) : Nat := 0x0209201C + 0x40 * i
/-- NET_RXS_SUBST (06, R178). -/
abbrev NET_RXS_SUBST (i : Nat) : Nat := 0x02092020 + 0x40 * i
/-- NET_RXS_BAD (06, R180). -/
abbrev NET_RXS_BAD (i : Nat) : Nat := 0x02092024 + 0x40 * i
/-- NET_RXS_SLIPS (06, R182). -/
abbrev NET_RXS_SLIPS (i : Nat) : Nat := 0x02092028 + 0x40 * i
/-- NET_TXS_CTRL (06, R173). -/
abbrev NET_TXS_CTRL (i : Nat) : Nat := 0x02093000 + 0x40 * i
/-- NET_TXS_HDR (06, R187). -/
abbrev NET_TXS_HDR (i : Nat) : Nat := 0x02093004 + 0x40 * i
/-- NET_TXS_OWN (06, R30). -/
abbrev NET_TXS_OWN (i : Nat) : Nat := 0x02093008 + 0x40 * i
/-- NET_TXS_RTP_OFFSET (06, R187). -/
abbrev NET_TXS_RTP_OFFSET (i : Nat) : Nat := 0x0209300C + 0x40 * i
/-- NET_TXS_SSRC (06, R187). -/
abbrev NET_TXS_SSRC (i : Nat) : Nat := 0x02093010 + 0x40 * i
/-- NET_TXS_SEQ (06, R187). -/
abbrev NET_TXS_SEQ (i : Nat) : Nat := 0x02093014 + 0x40 * i
/-- NET_TXS_BUF_BASE (06, R186). -/
abbrev NET_TXS_BUF_BASE (i : Nat) : Nat := 0x02093018 + 0x40 * i
/-- NET_TXS_BUF_CFG (06, R186). -/
abbrev NET_TXS_BUF_CFG (i : Nat) : Nat := 0x0209301C + 0x40 * i
/-- NET_TXS_LEG0_IP (06, R188). -/
abbrev NET_TXS_LEG0_IP (i : Nat) : Nat := 0x02093020 + 0x40 * i
/-- NET_TXS_LEG0_CFG (06, R188). -/
abbrev NET_TXS_LEG0_CFG (i : Nat) : Nat := 0x02093024 + 0x40 * i
/-- NET_TXS_LEG1_IP (06, R188). -/
abbrev NET_TXS_LEG1_IP (i : Nat) : Nat := 0x02093030 + 0x40 * i
/-- NET_TXS_STAT (06, R188). -/
abbrev NET_TXS_STAT (i : Nat) : Nat := 0x02094000 + 0x10 * i
/-- NET_TXS_PKTS (06, R188). -/
abbrev NET_TXS_PKTS (i : Nat) : Nat := 0x02094004 + 0x10 * i
/-- NET_TXS_LATE (06, R185). -/
abbrev NET_TXS_LATE (i : Nat) : Nat := 0x02094008 + 0x10 * i
/-- NET_TXS_DROPS (06, R188). -/
abbrev NET_TXS_DROPS (i : Nat) : Nat := 0x0209400C + 0x10 * i
/-- FLUE_RT_CTRL (07, R207). -/
abbrev FLUE_RT_CTRL : Nat := 0x02020000
/-- FLUE_RT_STAT (07, R208). -/
abbrev FLUE_RT_STAT : Nat := 0x02020004
/-- FLUE_RT_KEY_LO (07, R207). -/
abbrev FLUE_RT_KEY_LO : Nat := 0x02020008
/-- FLUE_RT_KEY_HI (07, R207). -/
abbrev FLUE_RT_KEY_HI : Nat := 0x0202000C
/-- FLUE_STALL (07, R216). -/
abbrev FLUE_STALL : Nat := 0x02020010
/-- FLUE_STALL_INFO (07, R216). -/
abbrev FLUE_STALL_INFO : Nat := 0x02020014
/-- FLUE_STALL_COUNT (07, R216). -/
abbrev FLUE_STALL_COUNT : Nat := 0x02020018
/-- FLUE_MIS_INFO (07, R202). -/
abbrev FLUE_MIS_INFO : Nat := 0x02020020
/-- FLUE_MIS_COUNT (07, R202). -/
abbrev FLUE_MIS_COUNT : Nat := 0x02020024
/-- FLUE_ST_SUM (07, R219). -/
abbrev FLUE_ST_SUM (i : Nat) : Nat := 0x02020030 + 0x4 * i
/-- FLUE_ST_LATE (07, R218). -/
abbrev FLUE_ST_LATE (i : Nat) : Nat := 0x02021000 + 0x20 * i
/-- FLUE_ST_STAT (07, R219). -/
abbrev FLUE_ST_STAT (i : Nat) : Nat := 0x02021018 + 0x20 * i
/-- FLUE_ST_IRQ_EN (07, R219). -/
abbrev FLUE_ST_IRQ_EN (i : Nat) : Nat := 0x0202101C + 0x20 * i
/-- HRT_ROUTE_SH (07, R206). -/
abbrev HRT_ROUTE_SH (i j : Nat) : Nat := 0x0100E000 + 0x10000 * i + 0x4 * j
/-- HRT_ROUTE_ACT (07, R206). -/
abbrev HRT_ROUTE_ACT (i j : Nat) : Nat := 0x0100F000 + 0x10000 * i + 0x4 * j
/-- HRT_CTRL (08, R256). -/
abbrev HRT_CTRL (i : Nat) : Nat := 0x0100C000 + 0x10000 * i
/-- HRT_STAT (08, R256). -/
abbrev HRT_STAT (i : Nat) : Nat := 0x0100C004 + 0x10000 * i
/-- HRT_PC (08, R256). -/
abbrev HRT_PC (i : Nat) : Nat := 0x0100C008 + 0x10000 * i
/-- HRT_FAULT (08, R248). -/
abbrev HRT_FAULT (i : Nat) : Nat := 0x0100C00C + 0x10000 * i
/-- HRT_FAULT_VAL (08, R248). -/
abbrev HRT_FAULT_VAL (i : Nat) : Nat := 0x0100C010 + 0x10000 * i
/-- HRT_FENCE (08, R257). -/
abbrev HRT_FENCE (i : Nat) : Nat := 0x0100C014 + 0x10000 * i
/-- HRT_IRQ_SET (08, R244). -/
abbrev HRT_IRQ_SET (i : Nat) : Nat := 0x0100C018 + 0x10000 * i
/-- HRT_IRQ_PEND (08, R244). -/
abbrev HRT_IRQ_PEND (i : Nat) : Nat := 0x0100C01C + 0x10000 * i
/-- HRT_IRQ_EN (08, R244). -/
abbrev HRT_IRQ_EN (i : Nat) : Nat := 0x0100C020 + 0x10000 * i
/-- HRT_VEC (08, R246). -/
abbrev HRT_VEC (i : Nat) : Nat := 0x0100C024 + 0x10000 * i
/-- HRT_SPILL_LIM (08, R225). -/
abbrev HRT_SPILL_LIM (i : Nat) : Nat := 0x0100C028 + 0x10000 * i
/-- HRT_RESET_PC (08, R258). -/
abbrev HRT_RESET_PC (i : Nat) : Nat := 0x0100C02C + 0x10000 * i
/-- HRT_WDOG (08, R250). -/
abbrev HRT_WDOG (i : Nat) : Nat := 0x0100C030 + 0x10000 * i
/-- HRT_ECC_CORR (08, R231). -/
abbrev HRT_ECC_CORR (i : Nat) : Nat := 0x0100C034 + 0x10000 * i
/-- HRT_ECC_UNC (08, R231). -/
abbrev HRT_ECC_UNC (i : Nat) : Nat := 0x0100C038 + 0x10000 * i
/-- HRT_ECC_ADDR (08, R231). -/
abbrev HRT_ECC_ADDR (i : Nat) : Nat := 0x0100C03C + 0x10000 * i
/-- HRT_MPR_BASE (08, R233). -/
abbrev HRT_MPR_BASE (i j : Nat) : Nat := 0x0100C040 + 0x10000 * i + 0x8 * j
/-- HRT_MPR_LIMIT (08, R233). -/
abbrev HRT_MPR_LIMIT (i j : Nat) : Nat := 0x0100C044 + 0x10000 * i + 0x8 * j
/-- HRT_PARAM_STAT (08, R252). -/
abbrev HRT_PARAM_STAT (i : Nat) : Nat := 0x0100C080 + 0x10000 * i
/-- HRT_PARAM_ARM (08, R252). -/
abbrev HRT_PARAM_ARM (i : Nat) : Nat := 0x0100C084 + 0x10000 * i
/-- HRT_PARAM_LAST (08, R253). -/
abbrev HRT_PARAM_LAST (i : Nat) : Nat := 0x0100C088 + 0x10000 * i
/-- HRT_SLOT_ACT (08, R252). -/
abbrev HRT_SLOT_ACT (i j : Nat) : Nat := 0x0100C400 + 0x10000 * i + 0x4 * j
/-- HRT_SLOT_SH (08, R255). -/
abbrev HRT_SLOT_SH (i j : Nat) : Nat := 0x0100C800 + 0x10000 * i + 0x4 * j
/-- HRT_QSTAT (08, R287). -/
abbrev HRT_QSTAT (i : Nat) : Nat := 0x0100CC00 + 0x10000 * i
/-- HRT_QDISC (08, R258). -/
abbrev HRT_QDISC (i : Nat) : Nat := 0x0100CC04 + 0x10000 * i
/-- SYS_HEARTH_PRIV (08, R232). -/
abbrev SYS_HEARTH_PRIV (i : Nat) : Nat := 0x02000040 + 0x4 * i
/-- MEMC_STATUS (11, R326). -/
abbrev MEMC_STATUS : Nat := 0x02030000
/-- MEMC_EVT (11, R323). -/
abbrev MEMC_EVT : Nat := 0x02030004
/-- MEMC_CE_COUNT (11, R314). -/
abbrev MEMC_CE_COUNT : Nat := 0x02030010
/-- MEMC_CE_ADDR (11, R314). -/
abbrev MEMC_CE_ADDR : Nat := 0x02030014
/-- MEMC_CE_INFO (11, R314). -/
abbrev MEMC_CE_INFO : Nat := 0x02030018
/-- MEMC_UE_COUNT (11, R315). -/
abbrev MEMC_UE_COUNT : Nat := 0x02030020
/-- MEMC_UE_ADDR (11, R315). -/
abbrev MEMC_UE_ADDR : Nat := 0x02030024
/-- MEMC_UE_INFO (11, R315). -/
abbrev MEMC_UE_INFO : Nat := 0x02030028
/-- MEMC_SCRUB_CTRL (11, R321). -/
abbrev MEMC_SCRUB_CTRL : Nat := 0x02030040
/-- MEMC_SCRUB_START (11, R321). -/
abbrev MEMC_SCRUB_START : Nat := 0x02030044
/-- MEMC_SCRUB_END (11, R321). -/
abbrev MEMC_SCRUB_END : Nat := 0x02030048
/-- MEMC_SCRUB_RATE (11, R325). -/
abbrev MEMC_SCRUB_RATE : Nat := 0x0203004C
/-- MEMC_SCRUB_POS (11, R321). -/
abbrev MEMC_SCRUB_POS : Nat := 0x02030050
/-- MEMC_SCRUB_STAT (11, R323). -/
abbrev MEMC_SCRUB_STAT : Nat := 0x02030054
/-- MEMC_SCRUB_PASSES (11, R323). -/
abbrev MEMC_SCRUB_PASSES : Nat := 0x02030058
/-- MEMC_SCRUB_CHECKED (11, R323). -/
abbrev MEMC_SCRUB_CHECKED : Nat := 0x02030060
/-- MEMC_SCRUB_CORR (11, R323). -/
abbrev MEMC_SCRUB_CORR : Nat := 0x02030064
/-- MEMC_SCRUB_UNC (11, R323). -/
abbrev MEMC_SCRUB_UNC : Nat := 0x02030068
/-- MEMC_SCRUB_UE_FIRST (11, R323). -/
abbrev MEMC_SCRUB_UE_FIRST : Nat := 0x0203006C
/-- MEMC_SCRUB_UE_LAST (11, R323). -/
abbrev MEMC_SCRUB_UE_LAST : Nat := 0x02030070
/-- MEMC_INJ_ADDR (11, R318). -/
abbrev MEMC_INJ_ADDR : Nat := 0x02030080
/-- MEMC_INJ_CTRL (11, R318). -/
abbrev MEMC_INJ_CTRL : Nat := 0x02030084
/-- DMP_CTRL (12, R339). -/
abbrev DMP_CTRL : Nat := 0x020B0000
/-- DMP_STAT (12, R344). -/
abbrev DMP_STAT : Nat := 0x020B0004
/-- DMP_MAP_BASE (12, R330). -/
abbrev DMP_MAP_BASE : Nat := 0x020B0008
/-- DMP_STG_BASE (12, R331). -/
abbrev DMP_STG_BASE : Nat := 0x020B000C
/-- DMP_SUPERSEDED (12, R338). -/
abbrev DMP_SUPERSEDED : Nat := 0x020B0010
/-- DMP_SUP_INFO (12, R338). -/
abbrev DMP_SUP_INFO : Nat := 0x020B0014
/-- DMP_ERR_COUNT (12, R335). -/
abbrev DMP_ERR_COUNT : Nat := 0x020B0018
/-- DMP_ERR_INFO (12, R335). -/
abbrev DMP_ERR_INFO : Nat := 0x020B001C
/-- DMP_MERGED (12, R341). -/
abbrev DMP_MERGED : Nat := 0x020B0020
/-- DMP_WR_PARAM (12, R334). -/
abbrev DMP_WR_PARAM : Nat := 0x020B0030
/-- DMP_WR_AT (12, R334). -/
abbrev DMP_WR_AT : Nat := 0x020B0034
/-- DMP_WR_VALUE (12, R334). -/
abbrev DMP_WR_VALUE : Nat := 0x020B0038
/-- DMP_KICK_AT_LO (12, R336). -/
abbrev DMP_KICK_AT_LO : Nat := 0x020B0040
/-- DMP_KICK_AT_HI (12, R336). -/
abbrev DMP_KICK_AT_HI : Nat := 0x020B0044
/-- DMP_LAST_LO (12, R344). -/
abbrev DMP_LAST_LO : Nat := 0x020B0050
/-- DMP_LAST_INFO (12, R344). -/
abbrev DMP_LAST_INFO : Nat := 0x020B0054
/-- DMP_SET_COUNT (12, R333). -/
abbrev DMP_SET_COUNT (i : Nat) : Nat := 0x020B0080 + 0x4 * i
/-- DMP_SET_PARAM (12, R332). -/
abbrev DMP_SET_PARAM (i : Nat) : Nat := 0x020B00C0 + 0x8 * i
/-- DMP_SET_VALUE (12, R332). -/
abbrev DMP_SET_VALUE (i : Nat) : Nat := 0x020B00C4 + 0x8 * i
/-- DMP_RANK (12, R338). -/
abbrev DMP_RANK (i : Nat) : Nat := 0x020B0200 + 0x4 * i
/-- DMP_KREP_SUM (12, R345). -/
abbrev DMP_KREP_SUM : Nat := 0x020B03C0
/-- DMP_KREP (12, R345). -/
abbrev DMP_KREP (i : Nat) : Nat := 0x020B0400 + 0x4 * i
/-- CUE_CTRL (12, R347). -/
abbrev CUE_CTRL : Nat := 0x020C0000
/-- CUE_STAT (12, R353). -/
abbrev CUE_STAT : Nat := 0x020C0004
/-- CUE_ACT_BASE (12, R351). -/
abbrev CUE_ACT_BASE : Nat := 0x020C0008
/-- CUE_EVAL_NOW (12, R347). -/
abbrev CUE_EVAL_NOW : Nat := 0x020C000C
/-- CUE_FIRED (12, R353). -/
abbrev CUE_FIRED : Nat := 0x020C0010
/-- CUE_SKIPPED (12, R350). -/
abbrev CUE_SKIPPED : Nat := 0x020C0014
/-- CUE_ERR_COUNT (12, R352). -/
abbrev CUE_ERR_COUNT : Nat := 0x020C0018
/-- CUE_ERR_INFO (12, R352). -/
abbrev CUE_ERR_INFO : Nat := 0x020C001C
/-- CUE_LOG (12, R353). -/
abbrev CUE_LOG : Nat := 0x020C0020
/-- CUE_STATE (12, R346). -/
abbrev CUE_STATE (i : Nat) : Nat := 0x020C4000 + 0x4 * i
/-- CUE_KEY_LO (12, R346). -/
abbrev CUE_KEY_LO (i : Nat) : Nat := 0x020C8000 + 0x8 * i
/-- CUE_KEY_HI (12, R346). -/
abbrev CUE_KEY_HI (i : Nat) : Nat := 0x020C8004 + 0x8 * i
/-- MIF_GATE_STAT (13, R366). -/
abbrev MIF_GATE_STAT : Nat := 0x020D0080
/-- MIF_GATE_SET (13, R370). -/
abbrev MIF_GATE_SET : Nat := 0x020D0084
/-- MIF_GATE_CLR (13, R370). -/
abbrev MIF_GATE_CLR : Nat := 0x020D0088
/-- MIF_GATE_REFUSED (13, R368). -/
abbrev MIF_GATE_REFUSED : Nat := 0x020D008C
/-- MIF_GATE_LAST (13, R369). -/
abbrev MIF_GATE_LAST : Nat := 0x020D0090
/-- MIF_GATE_CFG (13, R366). -/
abbrev MIF_GATE_CFG (i : Nat) : Nat := 0x020D0100 + 0x8 * i
/-- MIF_GATE_ADV (13, R367). -/
abbrev MIF_GATE_ADV (i : Nat) : Nat := 0x020D0104 + 0x8 * i
/-- MIF_CFG (13, R374). -/
abbrev MIF_CFG (i : Nat) : Nat := 0x020D1000 + 0x100 * i
/-- MIF_STAT (13, R364). -/
abbrev MIF_STAT (i : Nat) : Nat := 0x020D1004 + 0x100 * i
/-- MIF_POS_LO (13, R357). -/
abbrev MIF_POS_LO (i : Nat) : Nat := 0x020D1008 + 0x100 * i
/-- MIF_POS_STAT (13, R357). -/
abbrev MIF_POS_STAT (i : Nat) : Nat := 0x020D1010 + 0x100 * i
/-- MIF_SPEED (13, R359). -/
abbrev MIF_SPEED (i : Nat) : Nat := 0x020D1014 + 0x100 * i
/-- MIF_RATIO (13, R360). -/
abbrev MIF_RATIO (i : Nat) : Nat := 0x020D1018 + 0x100 * i
/-- MIF_STALL_CFG (13, R362). -/
abbrev MIF_STALL_CFG (i : Nat) : Nat := 0x020D101C + 0x100 * i
/-- MIF_SPOOL_CFG (13, R363). -/
abbrev MIF_SPOOL_CFG (i : Nat) : Nat := 0x020D1020 + 0x100 * i
/-- MIF_IDX_CAP_LO (13, R358). -/
abbrev MIF_IDX_CAP_LO (i : Nat) : Nat := 0x020D1024 + 0x100 * i
/-- MIF_IDX_CAP_HI (13, R358). -/
abbrev MIF_IDX_CAP_HI (i : Nat) : Nat := 0x020D1028 + 0x100 * i
/-- MIF_IDX_LOAD_LO (13, R358). -/
abbrev MIF_IDX_LOAD_LO (i : Nat) : Nat := 0x020D102C + 0x100 * i
/-- MIF_IDX_LOAD_HI (13, R358). -/
abbrev MIF_IDX_LOAD_HI (i : Nat) : Nat := 0x020D1030 + 0x100 * i
/-- MIF_ERRS (13, R356). -/
abbrev MIF_ERRS (i : Nat) : Nat := 0x020D1034 + 0x100 * i
/-- MIF_LTCI_CFG (13, R372). -/
abbrev MIF_LTCI_CFG (i : Nat) : Nat := 0x020D1040 + 0x100 * i
/-- MIF_LTCI_TC (13, R372). -/
abbrev MIF_LTCI_TC (i : Nat) : Nat := 0x020D1044 + 0x100 * i
/-- MIF_LTCI_ERRS (13, R372). -/
abbrev MIF_LTCI_ERRS (i : Nat) : Nat := 0x020D1064 + 0x100 * i
/-- MIF_LTCO_CTRL (13, R373). -/
abbrev MIF_LTCO_CTRL (i : Nat) : Nat := 0x020D1070 + 0x100 * i
/-- MIF_LTCO_TC (13, R373). -/
abbrev MIF_LTCO_TC (i : Nat) : Nat := 0x020D1074 + 0x100 * i
/-- MIF_LTCO_UB (13, R373). -/
abbrev MIF_LTCO_UB (i : Nat) : Nat := 0x020D1078 + 0x100 * i
/-- MIF_LTCO_START_LO (13, R373). -/
abbrev MIF_LTCO_START_LO (i : Nat) : Nat := 0x020D107C + 0x100 * i
/-- MIF_LTCO_START_HI (13, R373). -/
abbrev MIF_LTCO_START_HI (i : Nat) : Nat := 0x020D1080 + 0x100 * i
/-- BEL_SUM (14, R397). -/
abbrev BEL_SUM : Nat := 0x020E0000
/-- BEL_PWM_CFG (14, R390). -/
abbrev BEL_PWM_CFG (i : Nat) : Nat := 0x020E0400 + 0x10 * i
/-- BEL_PWM_PERIOD (14, R390). -/
abbrev BEL_PWM_PERIOD (i : Nat) : Nat := 0x020E0404 + 0x10 * i
/-- BEL_PWM_CMP (14, R390). -/
abbrev BEL_PWM_CMP (i : Nat) : Nat := 0x020E0408 + 0x10 * i
/-- BEL_ENC_CFG (14, R389). -/
abbrev BEL_ENC_CFG (i : Nat) : Nat := 0x020E0600 + 0x10 * i
/-- BEL_ENC_COUNT (14, R389). -/
abbrev BEL_ENC_COUNT (i : Nat) : Nat := 0x020E0604 + 0x10 * i
/-- BEL_ENC_IDX (14, R389). -/
abbrev BEL_ENC_IDX (i : Nat) : Nat := 0x020E0608 + 0x10 * i
/-- BEL_ENC_ERRS (14, R389). -/
abbrev BEL_ENC_ERRS (i : Nat) : Nat := 0x020E060C + 0x10 * i
/-- BEL_SPI_CTRL (14, R391). -/
abbrev BEL_SPI_CTRL (i : Nat) : Nat := 0x020E0700 + 0x40 * i
/-- BEL_SPI_STAT (14, R391). -/
abbrev BEL_SPI_STAT (i : Nat) : Nat := 0x020E0704 + 0x40 * i
/-- BEL_SPI_SEL (14, R391). -/
abbrev BEL_SPI_SEL (i j : Nat) : Nat := 0x020E0720 + 0x40 * i + 0x4 * j
/-- BEL_LANE_CTRL (14, R396). -/
abbrev BEL_LANE_CTRL (i : Nat) : Nat := 0x020E1000 + 0x100 * i
/-- BEL_LANE_STAT (14, R396). -/
abbrev BEL_LANE_STAT (i : Nat) : Nat := 0x020E1004 + 0x100 * i
/-- BEL_LANE_PEND (14, R385). -/
abbrev BEL_LANE_PEND (i : Nat) : Nat := 0x020E1008 + 0x100 * i
/-- BEL_LANE_FAULT (14, R388). -/
abbrev BEL_LANE_FAULT (i : Nat) : Nat := 0x020E100C + 0x100 * i
/-- BEL_LANE_OVR (14, R386). -/
abbrev BEL_LANE_OVR (i : Nat) : Nat := 0x020E1010 + 0x100 * i
/-- BEL_LANE_MERR (14, R394). -/
abbrev BEL_LANE_MERR (i : Nat) : Nat := 0x020E1014 + 0x100 * i
/-- BEL_LANE_MISSED (14, R386). -/
abbrev BEL_LANE_MISSED (i : Nat) : Nat := 0x020E1018 + 0x100 * i
/-- BEL_LANE_MWIN (14, R394). -/
abbrev BEL_LANE_MWIN (i : Nat) : Nat := 0x020E101C + 0x100 * i
/-- BEL_LANE_MBOX (14, R392). -/
abbrev BEL_LANE_MBOX (i j : Nat) : Nat := 0x020E1020 + 0x100 * i + 0x4 * j
/-- BEL_LANE_EVT (14, R393). -/
abbrev BEL_LANE_EVT (i j : Nat) : Nat := 0x020E1030 + 0x100 * i + 0x4 * j
/-- BEL_LANE_KHI (14, R398). -/
abbrev BEL_LANE_KHI (i : Nat) : Nat := 0x020E1048 + 0x100 * i
/-- BEL_LOOP_CFG (14, R385). -/
abbrev BEL_LOOP_CFG (i : Nat) : Nat := 0x020E2000 + 0x10 * i
/-- BEL_LOOP_PHASE (14, R385). -/
abbrev BEL_LOOP_PHASE (i : Nat) : Nat := 0x020E2004 + 0x10 * i
/-- BEL_LOOP_MAXST (14, R387). -/
abbrev BEL_LOOP_MAXST (i : Nat) : Nat := 0x020E2008 + 0x10 * i
/-- BEL_LOOP_STAT (14, R386). -/
abbrev BEL_LOOP_STAT (i : Nat) : Nat := 0x020E200C + 0x10 * i
/-- CHM_CTRL (15, R431). -/
abbrev CHM_CTRL : Nat := 0x020A0000
/-- CHM_ID (15, R410). -/
abbrev CHM_ID : Nat := 0x020A0004
/-- CHM_STAT (15, R410). -/
abbrev CHM_STAT : Nat := 0x020A0008
/-- CHM_LET_CFG (15, R423). -/
abbrev CHM_LET_CFG : Nat := 0x020A000C
/-- CHM_LEAD_SER_LO (15, R410). -/
abbrev CHM_LEAD_SER_LO : Nat := 0x020A0010
/-- CHM_LEAD_SER_HI (15, R410). -/
abbrev CHM_LEAD_SER_HI : Nat := 0x020A0014
/-- CHM_RALLY_CFG (15, R414). -/
abbrev CHM_RALLY_CFG : Nat := 0x020A0018
/-- CHM_RALLY_ERR (15, R412). -/
abbrev CHM_RALLY_ERR : Nat := 0x020A001C
/-- CHM_REALIGN (15, R412). -/
abbrev CHM_REALIGN : Nat := 0x020A0020
/-- CHM_TRIM (15, R413). -/
abbrev CHM_TRIM : Nat := 0x020A0024
/-- CHM_TRIM_NOW (15, R413). -/
abbrev CHM_TRIM_NOW : Nat := 0x020A0028
/-- CHM_RT_TIMEOUT (15, R427). -/
abbrev CHM_RT_TIMEOUT : Nat := 0x020A0030
/-- CHM_LATE_CPL (15, R428). -/
abbrev CHM_LATE_CPL : Nat := 0x020A0034
/-- CHM_RA_STAT (15, R428). -/
abbrev CHM_RA_STAT : Nat := 0x020A0038
/-- CHM_RA_TGT (15, R425). -/
abbrev CHM_RA_TGT : Nat := 0x020A0040
/-- CHM_RA_ADDR (15, R425). -/
abbrev CHM_RA_ADDR : Nat := 0x020A0044
/-- CHM_RA_WDATA (15, R425). -/
abbrev CHM_RA_WDATA : Nat := 0x020A0048
/-- CHM_RA_RDATA (15, R425). -/
abbrev CHM_RA_RDATA : Nat := 0x020A004C
/-- CHM_RA_ALLOW (15, R426). -/
abbrev CHM_RA_ALLOW (i : Nat) : Nat := 0x020A0050 + 0x4 * i
/-- CHM_MAP_BASE (15, R421). -/
abbrev CHM_MAP_BASE : Nat := 0x020A0060
/-- CHM_MAP_CTRL (15, R421). -/
abbrev CHM_MAP_CTRL : Nat := 0x020A0064
/-- CHM_MAP_KEY_LO (15, R421). -/
abbrev CHM_MAP_KEY_LO : Nat := 0x020A0068
/-- CHM_MAP_KEY_HI (15, R421). -/
abbrev CHM_MAP_KEY_HI : Nat := 0x020A006C
/-- CHM_WAKE (15, R430). -/
abbrev CHM_WAKE : Nat := 0x020A0070
/-- CHM_KICK_LOST (15, R429). -/
abbrev CHM_KICK_LOST : Nat := 0x020A0074
/-- CHM_P_CTRL (15, R431). -/
abbrev CHM_P_CTRL (i : Nat) : Nat := 0x020A0100 + 0x40 * i
/-- CHM_P_TIME (15, R417). -/
abbrev CHM_P_TIME (i : Nat) : Nat := 0x020A0104 + 0x40 * i
/-- CHM_P_STAT (15, R404). -/
abbrev CHM_P_STAT (i : Nat) : Nat := 0x020A0108 + 0x40 * i
/-- CHM_P_DELAY (15, R404). -/
abbrev CHM_P_DELAY (i : Nat) : Nat := 0x020A010C + 0x40 * i
/-- CHM_P_NBR_SER_LO (15, R404). -/
abbrev CHM_P_NBR_SER_LO (i : Nat) : Nat := 0x020A0110 + 0x40 * i
/-- CHM_P_NBR_SER_HI (15, R404). -/
abbrev CHM_P_NBR_SER_HI (i : Nat) : Nat := 0x020A0114 + 0x40 * i
/-- CHM_P_NBR_INFO (15, R404). -/
abbrev CHM_P_NBR_INFO (i : Nat) : Nat := 0x020A0118 + 0x40 * i
/-- CHM_P_CRC_ERRS (15, R423). -/
abbrev CHM_P_CRC_ERRS (i : Nat) : Nat := 0x020A0120 + 0x40 * i
/-- CHM_P_LETS (15, R423). -/
abbrev CHM_P_LETS (i : Nat) : Nat := 0x020A0124 + 0x40 * i
/-- CHM_P_DOWNS (15, R423). -/
abbrev CHM_P_DOWNS (i : Nat) : Nat := 0x020A0128 + 0x40 * i
/-- CHM_P_RX_LATE (15, R420). -/
abbrev CHM_P_RX_LATE (i : Nat) : Nat := 0x020A012C + 0x40 * i
/-- CHM_P_FWD_LATE (15, R420). -/
abbrev CHM_P_FWD_LATE (i : Nat) : Nat := 0x020A0130 + 0x40 * i
/-- CHM_P_RALLY_BAD (15, R412). -/
abbrev CHM_P_RALLY_BAD (i : Nat) : Nat := 0x020A0134 + 0x40 * i
/-- CHM_EVT_MAP (15, R422). -/
abbrev CHM_EVT_MAP (i : Nat) : Nat := 0x020A0200 + 0x4 * i
/-- EVC_CTRL (16, R445). -/
abbrev EVC_CTRL : Nat := 0x02010000
/-- EVC_MERGED (16, R435). -/
abbrev EVC_MERGED : Nat := 0x02010004
/-- EVC_REBOUNDS (16, R443). -/
abbrev EVC_REBOUNDS : Nat := 0x02010008
/-- EVC_OFFSIDE_INFO (16, R442). -/
abbrev EVC_OFFSIDE_INFO : Nat := 0x02010010
/-- EVC_SOFT (16, R433). -/
abbrev EVC_SOFT : Nat := 0x02010014
/-- EVC_PEND (16, R435). -/
abbrev EVC_PEND (i : Nat) : Nat := 0x02010040 + 0x4 * i
/-- EVC_ACTIVE (16, R435). -/
abbrev EVC_ACTIVE (i : Nat) : Nat := 0x02010080 + 0x4 * i
/-- EVC_TGT_CFG_H (16, R437). -/
abbrev EVC_TGT_CFG_H (i : Nat) : Nat := 0x02010100 + 0x20 * i
/-- EVC_TGT_CFG_X (16, R438). -/
abbrev EVC_TGT_CFG_X (i : Nat) : Nat := 0x02010180 + 0x20 * i
/-- EVC_CLAIM (16, R440). -/
abbrev EVC_CLAIM (i : Nat) : Nat := 0x02010104 + 0x20 * i
/-- EVC_COMPLETE (16, R441). -/
abbrev EVC_COMPLETE (i : Nat) : Nat := 0x02010108 + 0x20 * i
/-- EVC_TGT_STAT (16, R439). -/
abbrev EVC_TGT_STAT (i : Nat) : Nat := 0x0201010C + 0x20 * i
/-- EVC_STACK_RESET (16, R446). -/
abbrev EVC_STACK_RESET (i : Nat) : Nat := 0x02010110 + 0x20 * i
/-- EVC_STACK (16, R436). -/
abbrev EVC_STACK (i j : Nat) : Nat := 0x02010400 + 0x40 * i + 0x4 * j
/-- EVC_SRC_CFG (16, R450). -/
abbrev EVC_SRC_CFG (i : Nat) : Nat := 0x02011000 + 0x4 * i
/-- SYS_SERIAL_LO (17, R473). -/
abbrev SYS_SERIAL_LO : Nat := 0x02000008
/-- SYS_SERIAL_HI (17, R473). -/
abbrev SYS_SERIAL_HI : Nat := 0x0200000C
/-- SKP_FLASH_CFG (17, R453). -/
abbrev SKP_FLASH_CFG : Nat := 0x020F0000
/-- SKP_SCN_CFG (17, R454). -/
abbrev SKP_SCN_CFG : Nat := 0x020F0004
/-- SKP_TIMING (17, R453). -/
abbrev SKP_TIMING : Nat := 0x020F0008
/-- SKP_CMD (17, R457). -/
abbrev SKP_CMD : Nat := 0x020F0010
/-- SKP_BUF (17, R457). -/
abbrev SKP_BUF : Nat := 0x020F0014
/-- SKP_LEN (17, R457). -/
abbrev SKP_LEN : Nat := 0x020F0018
/-- SKP_STAT (17, R457). -/
abbrev SKP_STAT : Nat := 0x020F001C
/-- SKP_RES_INFO (17, R458). -/
abbrev SKP_RES_INFO : Nat := 0x020F0020
/-- SKP_RES_GEN (17, R458). -/
abbrev SKP_RES_GEN : Nat := 0x020F0024
/-- SKP_RES_LEN (17, R458). -/
abbrev SKP_RES_LEN : Nat := 0x020F0028
/-- SKP_RES_CRC (17, R457). -/
abbrev SKP_RES_CRC : Nat := 0x020F002C
/-- SKP_DIGEST (17, R457). -/
abbrev SKP_DIGEST (i : Nat) : Nat := 0x020F0040 + 0x4 * i
/-- SKP_BOOT_STAT (17, R466). -/
abbrev SKP_BOOT_STAT : Nat := 0x020F0080
/-- SKP_BOOT_GO (17, R471). -/
abbrev SKP_BOOT_GO : Nat := 0x020F0084
/-- SKP_OTP_ADDR (17, R469). -/
abbrev SKP_OTP_ADDR : Nat := 0x020F0090
/-- SKP_OTP_WDATA (17, R469). -/
abbrev SKP_OTP_WDATA : Nat := 0x020F0094
/-- SKP_OTP_CTRL (17, R469). -/
abbrev SKP_OTP_CTRL : Nat := 0x020F0098
/-- SKP_OTP (17, R469). -/
abbrev SKP_OTP (i : Nat) : Nat := 0x020F0100 + 0x4 * i
/-- SYS_PWR_CTRL (18, R476). -/
abbrev SYS_PWR_CTRL : Nat := 0x02000300
/-- SYS_PWR_STAT (18, R477). -/
abbrev SYS_PWR_STAT : Nat := 0x02000304
/-- SYS_PWR_LWAKE (18, R481). -/
abbrev SYS_PWR_LWAKE : Nat := 0x02000308
/-- SYS_RST_CTRL (18, R490). -/
abbrev SYS_RST_CTRL : Nat := 0x02000310
/-- SYS_TEMP (18, R500). -/
abbrev SYS_TEMP : Nat := 0x02000320
/-- SYS_TEMP_CFG (18, R500). -/
abbrev SYS_TEMP_CFG : Nat := 0x02000324
/-- SYS_RATE (18, R502). -/
abbrev SYS_RATE : Nat := 0x02000328
/-- EMB_CAUSE (18, R487). -/
abbrev EMB_CAUSE : Nat := 0x02100000
/-- EMB_CAUSE_RTC_LO (18, R487). -/
abbrev EMB_CAUSE_RTC_LO : Nat := 0x02100004
/-- EMB_CAUSE_RTC_HI (18, R487). -/
abbrev EMB_CAUSE_RTC_HI : Nat := 0x02100008
/-- EMB_STAT (18, R498). -/
abbrev EMB_STAT : Nat := 0x0210000C
/-- EMB_RTC_LO (18, R491). -/
abbrev EMB_RTC_LO : Nat := 0x02100010
/-- EMB_RTC_STAT (18, R491). -/
abbrev EMB_RTC_STAT : Nat := 0x02100018
/-- EMB_ALARM_LO (18, R492). -/
abbrev EMB_ALARM_LO : Nat := 0x02100020
/-- EMB_ALARM_HI (18, R492). -/
abbrev EMB_ALARM_HI : Nat := 0x02100024
/-- EMB_XP_CFG (18, R497). -/
abbrev EMB_XP_CFG : Nat := 0x02100030
/-- EMB_XP_RATIO_LO (18, R497). -/
abbrev EMB_XP_RATIO_LO : Nat := 0x02100034
/-- EMB_XP_RATIO_HI (18, R497). -/
abbrev EMB_XP_RATIO_HI : Nat := 0x02100038
/-- EMB_XP_NOW_LO (18, R498). -/
abbrev EMB_XP_NOW_LO : Nat := 0x02100040
/-- EMB_PWR_SEQ (18, R484). -/
abbrev EMB_PWR_SEQ : Nat := 0x02100050
/-- EMB_PWR_EN (18, R483). -/
abbrev EMB_PWR_EN (i : Nat) : Nat := 0x02100060 + 0x4 * i
/-- EMB_RESUME (18, R486). -/
abbrev EMB_RESUME : Nat := 0x02100080
/-- EMB_WATCH (18, R495). -/
abbrev EMB_WATCH (i : Nat) : Nat := 0x02100100 + 0x4 * i
/-- HIF_PCIE_CTRL (19, R509). -/
abbrev HIF_PCIE_CTRL : Nat := 0x02110000
/-- HIF_PCIE_STAT (19, R509). -/
abbrev HIF_PCIE_STAT : Nat := 0x02110004
/-- HIF_DB (19, R511). -/
abbrev HIF_DB (i : Nat) : Nat := 0x02110010 + 0x4 * i
/-- HIF_DB_STAT (19, R511). -/
abbrev HIF_DB_STAT : Nat := 0x02110020
/-- HIF_QSPI_CFG (19, R512). -/
abbrev HIF_QSPI_CFG : Nat := 0x02110040
/-- HIF_QSPI_STAT (19, R513). -/
abbrev HIF_QSPI_STAT : Nat := 0x02110044
/-- HIF_QSPI_ERRS (19, R514). -/
abbrev HIF_QSPI_ERRS : Nat := 0x02110048
/-- HIF_UART_CTRL (19, R520). -/
abbrev HIF_UART_CTRL : Nat := 0x02110080
/-- HIF_UART_TX (19, R520). -/
abbrev HIF_UART_TX : Nat := 0x02110084
/-- HIF_UART_RX (19, R520). -/
abbrev HIF_UART_RX : Nat := 0x02110088
/-- HIF_UART_STAT (19, R520). -/
abbrev HIF_UART_STAT : Nat := 0x0211008C
/-- HIF_GPIO_IN (19, R521). -/
abbrev HIF_GPIO_IN : Nat := 0x021100C0
/-- HIF_GPIO_OUT (19, R521). -/
abbrev HIF_GPIO_OUT : Nat := 0x021100C4
/-- HIF_GPIO_OUT_SET (19, R521). -/
abbrev HIF_GPIO_OUT_SET : Nat := 0x021100C8
/-- HIF_GPIO_OUT_CLR (19, R521). -/
abbrev HIF_GPIO_OUT_CLR : Nat := 0x021100CC
/-- HIF_GPIO_OE (19, R521). -/
abbrev HIF_GPIO_OE : Nat := 0x021100D0
/-- HIF_GPIO_FN (19, R521). -/
abbrev HIF_GPIO_FN (i : Nat) : Nat := 0x021100E0 + 0x4 * i
/-- MSIX_TABLE (19, R510). -/
abbrev MSIX_TABLE (i j : Nat) : Nat := 0x02111000 + 0x10 * i + 0x4 * j
/-- MSIX_CTRL (19, R510). -/
abbrev MSIX_CTRL (i : Nat) : Nat := 0x0211100C + 0x10 * i
/-- MSIX_PBA (19, R510). -/
abbrev MSIX_PBA (i : Nat) : Nat := 0x02111800 + 0x4 * i
/-- HRT_DBG_CTRL (19, R517). -/
abbrev HRT_DBG_CTRL (i : Nat) : Nat := 0x0100CD00 + 0x10000 * i
/-- HRT_DBG_STAT (19, R517). -/
abbrev HRT_DBG_STAT (i : Nat) : Nat := 0x0100CD04 + 0x10000 * i
/-- HRT_DBG_SEL (19, R518). -/
abbrev HRT_DBG_SEL (i : Nat) : Nat := 0x0100CD08 + 0x10000 * i
/-- HRT_DBG_DATA (19, R518). -/
abbrev HRT_DBG_DATA (i : Nat) : Nat := 0x0100CD0C + 0x10000 * i
/-- HRT_DBG_BP (19, R517). -/
abbrev HRT_DBG_BP (i j : Nat) : Nat := 0x0100CD10 + 0x10000 * i + 0x4 * j
/-- HRT_DBG_WP_LO (19, R517). -/
abbrev HRT_DBG_WP_LO (i j : Nat) : Nat := 0x0100CD20 + 0x10000 * i + 0x8 * j
/-- HRT_DBG_WP_HI (19, R517). -/
abbrev HRT_DBG_WP_HI (i j : Nat) : Nat := 0x0100CD24 + 0x10000 * i + 0x8 * j
/-- BEL_LANE_DBG_CTRL (19, R519). -/
abbrev BEL_LANE_DBG_CTRL (i : Nat) : Nat := 0x020E1050 + 0x100 * i
/-- BEL_LANE_DBG_STAT (19, R519). -/
abbrev BEL_LANE_DBG_STAT (i : Nat) : Nat := 0x020E1054 + 0x100 * i
/-- BEL_LANE_DBG_SEL (19, R519). -/
abbrev BEL_LANE_DBG_SEL (i : Nat) : Nat := 0x020E1058 + 0x100 * i
/-- BEL_LANE_DBG_DATA (19, R519). -/
abbrev BEL_LANE_DBG_DATA (i : Nat) : Nat := 0x020E105C + 0x100 * i
/-- BEL_LANE_BP (19, R519). -/
abbrev BEL_LANE_BP (i j : Nat) : Nat := 0x020E1060 + 0x100 * i + 0x4 * j

/-! Fields, named register_field. -/

abbrev HRT_PACE_CTRL_en : Fld := ⟨0, 0⟩
abbrev HRT_PACE_CTRL_mode : Fld := ⟨1, 1⟩
abbrev HRT_PACE_CTRL_queue : Fld := ⟨3, 2⟩
abbrev HRT_PACE_CTRL_window : Fld := ⟨11, 8⟩
abbrev HRT_PACE_THRESH_thresh : Fld := ⟨15, 0⟩
abbrev HRT_PACE_MIN_run_min : Fld := ⟨15, 0⟩
abbrev HRT_PACE_MAXSTEPS_max_steps : Fld := ⟨15, 0⟩
abbrev HRT_PACE_STATUS_near : Fld := ⟨0, 0⟩
abbrev HRT_PACE_STATUS_overrun : Fld := ⟨1, 1⟩
abbrev HRT_PACE_STATUS_late : Fld := ⟨2, 2⟩
abbrev SYS_VIOL_INFO_valid : Fld := ⟨31, 31⟩
abbrev SYS_BALL_TURNOVER_ball : Fld := ⟨7, 0⟩
abbrev SYS_BALL_TURN_INFO_valid : Fld := ⟨31, 31⟩
abbrev SYS_BALL_LEASE_lease : Fld := ⟨15, 0⟩
abbrev RSG_CTRL_en : Fld := ⟨0, 0⟩
abbrev RSG_CTRL_family : Fld := ⟨1, 1⟩
abbrev RSG_CTRL_mult : Fld := ⟨3, 2⟩
abbrev RSG_CTRL_policy : Fld := ⟨4, 4⟩
abbrev RSG_CTRL_temp_src : Fld := ⟨5, 5⟩
abbrev RSG_CTRL_tbl_freeze : Fld := ⟨6, 6⟩
abbrev RSG_STATE_state : Fld := ⟨2, 0⟩
abbrev RSG_STATE_entry : Fld := ⟨6, 4⟩
abbrev RSG_STATE_cand : Fld := ⟨12, 8⟩
abbrev RSG_STATE_hold_valid : Fld := ⟨16, 16⟩
abbrev RSG_STATE_slewing : Fld := ⟨17, 17⟩
abbrev RSG_STATE_ever_locked : Fld := ⟨18, 18⟩
abbrev RSG_STATUS_state_chg : Fld := ⟨0, 0⟩
abbrev RSG_STATUS_warn : Fld := ⟨1, 1⟩
abbrev RSG_STATUS_qual : Fld := ⟨2, 2⟩
abbrev RSG_STATUS_lost : Fld := ⟨3, 3⟩
abbrev RSG_STATUS_temp_stale : Fld := ⟨4, 4⟩
abbrev RSG_PRIO_cand : Fld := ⟨4, 0⟩
abbrev RSG_PRIO_en : Fld := ⟨5, 5⟩
abbrev RSG_PRIO_revertive : Fld := ⟨6, 6⟩
abbrev RSG_PRIO_wtr : Fld := ⟨27, 16⟩
abbrev RSG_HOLD_CFG_limit : Fld := ⟨16, 0⟩
abbrev RSG_HOLD_CFG_guard : Fld := ⟨30, 22⟩
abbrev RSG_HOLD_ELAPSED_seconds : Fld := ⟨16, 0⟩
abbrev RSG_HIST_COUNT_entries : Fld := ⟨9, 0⟩
abbrev RSG_HIST_COUNT_avg : Fld := ⟨25, 16⟩
abbrev RSG_SLEW_rate : Fld := ⟨15, 0⟩
abbrev RSG_LOCK_window : Fld := ⟨7, 0⟩
abbrev RSG_LOCK_time : Fld := ⟨31, 16⟩
abbrev RSG_TYPE_LIM_warn : Fld := ⟨15, 0⟩
abbrev RSG_TYPE_LIM_limit : Fld := ⟨31, 16⟩
abbrev RSG_TYPE_QUAL_qual_time : Fld := ⟨15, 0⟩
abbrev RSG_TYPE_QUAL_drift : Fld := ⟨31, 16⟩
abbrev RSG_TYPE_BW_bw : Fld := ⟨16, 0⟩
abbrev RSG_CAND_STAT_qual : Fld := ⟨1, 0⟩
abbrev RSG_CAND_STAT_out : Fld := ⟨2, 2⟩
abbrev RSG_CAND_STAT_warn : Fld := ⟨3, 3⟩
abbrev RSG_CAND_STAT_wtr_left : Fld := ⟨27, 16⟩
abbrev RSG_BUFLEVEL_SRC_kind : Fld := ⟨1, 0⟩
abbrev RSG_BUFLEVEL_SRC_index : Fld := ⟨7, 2⟩
abbrev TSU_STATUS_servo_chg : Fld := ⟨0, 0⟩
abbrev TSU_STATUS_deuce_sw : Fld := ⟨1, 1⟩
abbrev TSU_STATUS_tod_hold : Fld := ⟨2, 2⟩
abbrev TSU_STATUS_tod_step : Fld := ⟨3, 3⟩
abbrev TSU_STATUS_realign : Fld := ⟨4, 4⟩
abbrev TSU_STATUS_slew_forced : Fld := ⟨5, 5⟩
abbrev TSU_STATUS_ttrig_late : Fld := ⟨6, 6⟩
abbrev TSU_STATUS_tcap_ovf : Fld := ⟨7, 7⟩
abbrev TSU_TOD_STAT_wrapped : Fld := ⟨0, 0⟩
abbrev TSU_RALLY_STAT_wrapped : Fld := ⟨0, 0⟩
abbrev TSU_RALLY_STAT_load_pending : Fld := ⟨1, 1⟩
abbrev TSU_RALLY_CFG_guard : Fld := ⟨7, 0⟩
abbrev TSU_RALLY_CFG_src : Fld := ⟨9, 8⟩
abbrev TSU_PORTNUM_mac0 : Fld := ⟨15, 0⟩
abbrev TSU_PORTNUM_mac1 : Fld := ⟨31, 16⟩
abbrev TSU_DEUCE_CTRL_en : Fld := ⟨0, 0⟩
abbrev TSU_DEUCE_CTRL_active : Fld := ⟨1, 1⟩
abbrev TSU_DEUCE_CTRL_sel : Fld := ⟨3, 2⟩
abbrev TSU_DEUCE_CTRL_prefer : Fld := ⟨4, 4⟩
abbrev TSU_DEUCE_CTRL_switch_mode : Fld := ⟨5, 5⟩
abbrev TSU_DEUCE_CTRL_rebase : Fld := ⟨6, 6⟩
abbrev TSU_DEUCE_CTRL_slew_max : Fld := ⟨15, 8⟩
abbrev TSU_DEUCE_CTRL_wtr : Fld := ⟨27, 16⟩
abbrev TSU_DEUCE_STAT_active : Fld := ⟨0, 0⟩
abbrev TSU_DEUCE_STAT_hold : Fld := ⟨1, 1⟩
abbrev TSU_DEUCE_STAT_slewing : Fld := ⟨2, 2⟩
abbrev TSU_DEUCE_STAT_rebasing : Fld := ⟨3, 3⟩
abbrev TSU_SRV_CFG_en : Fld := ⟨0, 0⟩
abbrev TSU_SRV_CFG_port : Fld := ⟨1, 1⟩
abbrev TSU_SRV_CFG_transport : Fld := ⟨2, 2⟩
abbrev TSU_SRV_CFG_delay : Fld := ⟨3, 3⟩
abbrev TSU_SRV_CFG_domain : Fld := ⟨14, 8⟩
abbrev TSU_SRV_CFG_log_sync : Fld := ⟨19, 16⟩
abbrev TSU_SRV_CFG_log_dreq : Fld := ⟨23, 20⟩
abbrev TSU_SRV_LOOP_bw : Fld := ⟨15, 0⟩
abbrev TSU_SRV_LOOP_step_thresh : Fld := ⟨31, 16⟩
abbrev TSU_SRV_LOCK_lock_win : Fld := ⟨15, 0⟩
abbrev TSU_SRV_LOCK_lock_count : Fld := ⟨23, 16⟩
abbrev TSU_SRV_FILT_unlock_win : Fld := ⟨15, 0⟩
abbrev TSU_SRV_FILT_outlier : Fld := ⟨31, 16⟩
abbrev TSU_SRV_PARENT_HI_port_num : Fld := ⟨15, 0⟩
abbrev TSU_SRV_VLAN_vid : Fld := ⟨11, 0⟩
abbrev TSU_SRV_VLAN_tagged : Fld := ⟨12, 12⟩
abbrev TSU_SRV_VLAN_pcp : Fld := ⟨15, 13⟩
abbrev TSU_SRV_STATE_state : Fld := ⟨2, 0⟩
abbrev TSU_MAC_LAT_rx_lat : Fld := ⟨15, 0⟩
abbrev TSU_MAC_LAT_tx_lat : Fld := ⟨31, 16⟩
abbrev TSU_TTRIG_CTRL_arm : Fld := ⟨0, 0⟩
abbrev TSU_TTRIG_CTRL_key_type : Fld := ⟨2, 2⟩
abbrev TSU_TTRIG_CTRL_periodic : Fld := ⟨3, 3⟩
abbrev TSU_TTRIG_CTRL_action : Fld := ⟨6, 4⟩
abbrev TSU_TTRIG_CTRL_target : Fld := ⟨12, 8⟩
abbrev TSU_TTRIG_CTRL_pol : Fld := ⟨13, 13⟩
abbrev TSU_TTRIG_CTRL_irq : Fld := ⟨14, 14⟩
abbrev TSU_TTRIG_STAT_fired : Fld := ⟨0, 0⟩
abbrev TSU_TTRIG_STAT_late : Fld := ⟨1, 1⟩
abbrev TSU_TTRIG_STAT_noop : Fld := ⟨2, 2⟩
abbrev TSU_TTRIG_STAT_skipped : Fld := ⟨31, 16⟩
abbrev TSU_TCAP_CTRL_en : Fld := ⟨0, 0⟩
abbrev TSU_TCAP_CTRL_edge : Fld := ⟨2, 1⟩
abbrev TSU_TCAP_CTRL_irq : Fld := ⟨3, 3⟩
abbrev TSU_TCAP_STAT_fill : Fld := ⟨2, 0⟩
abbrev TSU_TCAP_STAT_ovf : Fld := ⟨3, 3⟩
abbrev TSU_TCAP_STAT_dropped : Fld := ⟨31, 16⟩
abbrev SAP_CTRL_master : Fld := ⟨1, 1⟩
abbrev SAP_CTRL_rate_mode : Fld := ⟨3, 2⟩
abbrev SAP_CTRL_start_mode : Fld := ⟨4, 4⟩
abbrev SAP_CTRL_turn_en : Fld := ⟨5, 5⟩
abbrev SAP_FMT_fmt : Fld := ⟨1, 0⟩
abbrev SAP_FMT_slots : Fld := ⟨6, 2⟩
abbrev SAP_FMT_slot_bits : Fld := ⟨8, 7⟩
abbrev SAP_FMT_word_bits : Fld := ⟨10, 9⟩
abbrev SAP_FMT_fs_width : Fld := ⟨13, 12⟩
abbrev SAP_FMT_fs_pol : Fld := ⟨14, 14⟩
abbrev SAP_FMT_bclk_pol : Fld := ⟨15, 15⟩
abbrev SAP_FMT_frame_bits : Fld := ⟨19, 16⟩
abbrev SAP_TURN_skew : Fld := ⟨9, 0⟩
abbrev SAP_STAT_running : Fld := ⟨0, 0⟩
abbrev SAP_OMAP_src : Fld := ⟨1, 0⟩
abbrev SAP_OMAP_tag : Fld := ⟨15, 4⟩
abbrev SAP_OMAP_dch : Fld := ⟨21, 16⟩
abbrev SAP_OMAP_owner : Fld := ⟨31, 24⟩
abbrev AES_RX_CTRL_word20 : Fld := ⟨1, 1⟩
abbrev AES_RX_CTRL_rate_mode : Fld := ⟨3, 2⟩
abbrev AES_RX_CTRL_v_mute : Fld := ⟨4, 4⟩
abbrev AES_RX_TAGS_tag_a : Fld := ⟨11, 0⟩
abbrev AES_RX_TAGS_tag_b : Fld := ⟨27, 16⟩
abbrev AES_RX_TAGS_dest : Fld := ⟨31, 30⟩
abbrev AES_RX_STAT_running : Fld := ⟨0, 0⟩
abbrev AES_RX_STAT_lock : Fld := ⟨4, 4⟩
abbrev AES_TX_CTRL_v : Fld := ⟨1, 1⟩
abbrev AES_TX_CTRL_crc_gen : Fld := ⟨4, 4⟩
abbrev AES_TX_CTRL_cs_commit : Fld := ⟨5, 5⟩
abbrev AES_TX_CTRL_tx_phase : Fld := ⟨23, 16⟩
abbrev AES_TX_TAGS_tag_a : Fld := ⟨11, 0⟩
abbrev AES_TX_TAGS_tag_b : Fld := ⟨27, 16⟩
abbrev AES_TX_TAGS_src : Fld := ⟨31, 30⟩
abbrev AES_TX_OWN_owner : Fld := ⟨7, 0⟩
abbrev MADI_CTRL_tx_en : Fld := ⟨1, 1⟩
abbrev MADI_CTRL_rate_mode : Fld := ⟨3, 2⟩
abbrev MADI_CTRL_ch56 : Fld := ⟨4, 4⟩
abbrev MADI_CTRL_f96 : Fld := ⟨5, 5⟩
abbrev MADI_CTRL_cs_commit : Fld := ⟨7, 7⟩
abbrev MADI_CTRL_tx_rate_mode : Fld := ⟨13, 12⟩
abbrev MADI_TAGS_rx_tag_base : Fld := ⟨11, 0⟩
abbrev MADI_TAGS_rx_dest : Fld := ⟨15, 14⟩
abbrev MADI_TAGS_tx_tag_base : Fld := ⟨27, 16⟩
abbrev MADI_TAGS_tx_src : Fld := ⟨31, 30⟩
abbrev MADI_STAT_running : Fld := ⟨0, 0⟩
abbrev MADI_STAT_lock : Fld := ⟨4, 4⟩
abbrev MADI_STAT_overfill : Fld := ⟨7, 7⟩
abbrev MADI_STAT_channels : Fld := ⟨15, 8⟩
abbrev MADI_OWN_owner : Fld := ⟨7, 0⟩
abbrev MADI_OWN_cs_sel : Fld := ⟨13, 8⟩
abbrev MADI_TX_PHASE_tx_phase : Fld := ⟨7, 0⟩
abbrev ASRC_ALLOC_en : Fld := ⟨0, 0⟩
abbrev ASRC_ALLOC_dir : Fld := ⟨1, 1⟩
abbrev ASRC_ALLOC_kind : Fld := ⟨3, 2⟩
abbrev ASRC_ALLOC_port : Fld := ⟨7, 4⟩
abbrev ASRC_ALLOC_chan : Fld := ⟨13, 8⟩
abbrev ASRC_STAT_lost : Fld := ⟨0, 0⟩
abbrev NET_MAC_CTRL_en : Fld := ⟨0, 0⟩
abbrev NET_MAC_CTRL_mode : Fld := ⟨1, 1⟩
abbrev NET_MAC_CTRL_host_rx : Fld := ⟨2, 2⟩
abbrev NET_MAC_CTRL_host_mc_all : Fld := ⟨3, 3⟩
abbrev NET_MAC_CTRL_bcast : Fld := ⟨4, 4⟩
abbrev NET_MAC_STAT_link : Fld := ⟨0, 0⟩
abbrev NET_MAC_STAT_link_chg : Fld := ⟨1, 1⟩
abbrev NET_MAC_STAT_tx_ovf : Fld := ⟨2, 2⟩
abbrev NET_MAC_STAT_rx_ovf : Fld := ⟨3, 3⟩
abbrev NET_MAC_ADDR_HI_addr : Fld := ⟨15, 0⟩
abbrev NET_HRX_CFG_slots_log2 : Fld := ⟨3, 0⟩
abbrev NET_HRX_HEAD_index : Fld := ⟨9, 0⟩
abbrev NET_HRX_TAIL_index : Fld := ⟨9, 0⟩
abbrev NET_HTX_CFG_slots_log2 : Fld := ⟨3, 0⟩
abbrev NET_HTX_HEAD_index : Fld := ⟨9, 0⟩
abbrev NET_HTX_TAIL_index : Fld := ⟨9, 0⟩
abbrev NET_RXS_CTRL_en : Fld := ⟨0, 0⟩
abbrev NET_RXS_CTRL_dual : Fld := ⟨1, 1⟩
abbrev NET_RXS_CTRL_rate_mode : Fld := ⟨3, 2⟩
abbrev NET_RXS_CTRL_fmt : Fld := ⟨4, 4⟩
abbrev NET_RXS_CTRL_subst : Fld := ⟨5, 5⟩
abbrev NET_RXS_CTRL_dest : Fld := ⟨7, 6⟩
abbrev NET_RXS_CTRL_chans : Fld := ⟨11, 8⟩
abbrev NET_RXS_CTRL_ssrc_check : Fld := ⟨12, 12⟩
abbrev NET_RXS_CTRL_tag_base : Fld := ⟨27, 16⟩
abbrev NET_RXS_TIMING_d : Fld := ⟨11, 0⟩
abbrev NET_RXS_TIMING_pt : Fld := ⟨22, 16⟩
abbrev NET_RXS_BUF_CFG_frames_log2 : Fld := ⟨4, 1⟩
abbrev NET_RXS_BUF_CFG_irq_log2 : Fld := ⟨19, 16⟩
abbrev NET_RXS_LEG0_CFG_port : Fld := ⟨15, 0⟩
abbrev NET_RXS_LEG0_CFG_vid : Fld := ⟨27, 16⟩
abbrev NET_RXS_LEG0_CFG_tagged : Fld := ⟨28, 28⟩
abbrev NET_RXS_LEG0_CFG_mac : Fld := ⟨29, 29⟩
abbrev NET_RXS_STAT_late : Fld := ⟨0, 0⟩
abbrev NET_RXS_STAT_early : Fld := ⟨1, 1⟩
abbrev NET_RXS_STAT_slip : Fld := ⟨2, 2⟩
abbrev NET_RXS_STAT_bad : Fld := ⟨3, 3⟩
abbrev NET_RXS_STAT_running : Fld := ⟨8, 8⟩
abbrev NET_RXS_SLIPS_repeats : Fld := ⟨15, 0⟩
abbrev NET_RXS_SLIPS_drops : Fld := ⟨31, 16⟩
abbrev NET_TXS_CTRL_en : Fld := ⟨0, 0⟩
abbrev NET_TXS_CTRL_dual : Fld := ⟨1, 1⟩
abbrev NET_TXS_CTRL_src : Fld := ⟨2, 2⟩
abbrev NET_TXS_CTRL_fmt : Fld := ⟨4, 4⟩
abbrev NET_TXS_CTRL_subst : Fld := ⟨5, 5⟩
abbrev NET_TXS_CTRL_spp : Fld := ⟨7, 6⟩
abbrev NET_TXS_CTRL_chans : Fld := ⟨11, 8⟩
abbrev NET_TXS_CTRL_tag_base : Fld := ⟨27, 16⟩
abbrev NET_TXS_HDR_pt : Fld := ⟨6, 0⟩
abbrev NET_TXS_HDR_ttl : Fld := ⟨15, 8⟩
abbrev NET_TXS_HDR_dscp : Fld := ⟨21, 16⟩
abbrev NET_TXS_HDR_tag_offset : Fld := ⟨31, 24⟩
abbrev NET_TXS_OWN_owner : Fld := ⟨7, 0⟩
abbrev NET_TXS_SEQ_seq : Fld := ⟨15, 0⟩
abbrev NET_TXS_BUF_CFG_frames_log2 : Fld := ⟨4, 1⟩
abbrev NET_TXS_LEG0_CFG_port : Fld := ⟨15, 0⟩
abbrev NET_TXS_LEG0_CFG_vid : Fld := ⟨27, 16⟩
abbrev NET_TXS_LEG0_CFG_tagged : Fld := ⟨28, 28⟩
abbrev NET_TXS_LEG0_CFG_mac : Fld := ⟨29, 29⟩
abbrev NET_TXS_LEG0_DMAC_HI_addr : Fld := ⟨15, 0⟩
abbrev NET_TXS_LEG0_DMAC_HI_pcp : Fld := ⟨18, 16⟩
abbrev NET_TXS_STAT_running : Fld := ⟨0, 0⟩
abbrev NET_TXS_STAT_late : Fld := ⟨1, 1⟩
abbrev NET_TXS_STAT_drop : Fld := ⟨2, 2⟩
abbrev NET_TXS_DROPS_leg0 : Fld := ⟨15, 0⟩
abbrev NET_TXS_DROPS_leg1 : Fld := ⟨31, 16⟩
abbrev FLUE_RT_CTRL_arm : Fld := ⟨0, 0⟩
abbrev FLUE_RT_STAT_bank : Fld := ⟨0, 0⟩
abbrev FLUE_RT_STAT_copying : Fld := ⟨1, 1⟩
abbrev FLUE_RT_STAT_late : Fld := ⟨2, 2⟩
abbrev FLUE_RT_STAT_done : Fld := ⟨3, 3⟩
abbrev FLUE_RT_KEY_HI_key : Fld := ⟨15, 0⟩
abbrev FLUE_STALL_limit : Fld := ⟨7, 0⟩
abbrev FLUE_STALL_INFO_valid : Fld := ⟨31, 31⟩
abbrev FLUE_MIS_INFO_valid : Fld := ⟨31, 31⟩
abbrev HRT_CTRL_run : Fld := ⟨0, 0⟩
abbrev HRT_PC_pc : Fld := ⟨11, 0⟩
abbrev HRT_PC_npc : Fld := ⟨27, 16⟩
abbrev HRT_PC_annul : Fld := ⟨31, 31⟩
abbrev HRT_FAULT_halted : Fld := ⟨11, 11⟩
abbrev HRT_FAULT_valid : Fld := ⟨31, 31⟩
abbrev HRT_FENCE_gate : Fld := ⟨0, 0⟩
abbrev HRT_IRQ_PEND_evc : Fld := ⟨0, 0⟩
abbrev HRT_VEC_xbase : Fld := ⟨11, 0⟩
abbrev HRT_VEC_ibase : Fld := ⟨27, 16⟩
abbrev HRT_SPILL_LIM_lo : Fld := ⟨15, 0⟩
abbrev HRT_SPILL_LIM_hi : Fld := ⟨31, 16⟩
abbrev HRT_RESET_PC_pc : Fld := ⟨11, 0⟩
abbrev HRT_WDOG_limit : Fld := ⟨15, 0⟩
abbrev HRT_WDOG_count : Fld := ⟨31, 16⟩
abbrev HRT_MPR_BASE_en : Fld := ⟨0, 0⟩
abbrev HRT_MPR_BASE_r : Fld := ⟨1, 1⟩
abbrev HRT_MPR_BASE_w : Fld := ⟨2, 2⟩
abbrev HRT_MPR_BASE_base : Fld := ⟨22, 6⟩
abbrev HRT_MPR_LIMIT_limit : Fld := ⟨22, 6⟩
abbrev HRT_PARAM_STAT_armed : Fld := ⟨0, 0⟩
abbrev HRT_PARAM_STAT_swapped : Fld := ⟨1, 1⟩
abbrev HRT_PARAM_STAT_late : Fld := ⟨2, 2⟩
abbrev HRT_PARAM_STAT_forced : Fld := ⟨3, 3⟩
abbrev HRT_PARAM_STAT_rearm : Fld := ⟨4, 4⟩
abbrev HRT_PARAM_STAT_bad : Fld := ⟨5, 5⟩
abbrev HRT_PARAM_STAT_zc_wait : Fld := ⟨8, 8⟩
abbrev HRT_PARAM_LAST_tag : Fld := ⟨7, 0⟩
abbrev HRT_PARAM_LAST_lateness : Fld := ⟨15, 8⟩
abbrev HRT_PARAM_LAST_zc_left : Fld := ⟨28, 16⟩
abbrev MEMC_STATUS_clear_done : Fld := ⟨0, 0⟩
abbrev MEMC_STATUS_clearing : Fld := ⟨1, 1⟩
abbrev MEMC_EVT_ce : Fld := ⟨0, 0⟩
abbrev MEMC_EVT_ue : Fld := ⟨1, 1⟩
abbrev MEMC_EVT_scrub_done : Fld := ⟨2, 2⟩
abbrev MEMC_EVT_inj_done : Fld := ⟨3, 3⟩
abbrev MEMC_CE_INFO_valid : Fld := ⟨31, 31⟩
abbrev MEMC_UE_INFO_valid : Fld := ⟨31, 31⟩
abbrev MEMC_SCRUB_CTRL_en : Fld := ⟨0, 0⟩
abbrev MEMC_SCRUB_CTRL_mode : Fld := ⟨1, 1⟩
abbrev MEMC_SCRUB_CTRL_target : Fld := ⟨2, 2⟩
abbrev MEMC_SCRUB_START_addr : Fld := ⟨23, 0⟩
abbrev MEMC_SCRUB_END_addr : Fld := ⟨23, 0⟩
abbrev MEMC_INJ_CTRL_arm : Fld := ⟨0, 0⟩
abbrev MEMC_INJ_CTRL_flip : Fld := ⟨15, 8⟩
abbrev DMP_CTRL_en : Fld := ⟨0, 0⟩
abbrev DMP_CTRL_expect : Fld := ⟨7, 1⟩
abbrev DMP_CTRL_lead : Fld := ⟨14, 8⟩
abbrev DMP_CTRL_zc_window : Fld := ⟨27, 16⟩
abbrev DMP_STAT_kick_late : Fld := ⟨0, 0⟩
abbrev DMP_STAT_sup : Fld := ⟨1, 1⟩
abbrev DMP_STAT_merged : Fld := ⟨2, 2⟩
abbrev DMP_STAT_err : Fld := ⟨3, 3⟩
abbrev DMP_STAT_qfull : Fld := ⟨4, 4⟩
abbrev DMP_STAT_wr_late : Fld := ⟨5, 5⟩
abbrev DMP_STAT_busy : Fld := ⟨8, 8⟩
abbrev DMP_STAT_qfill : Fld := ⟨26, 16⟩
abbrev DMP_SUP_INFO_valid : Fld := ⟨31, 31⟩
abbrev DMP_ERR_INFO_valid : Fld := ⟨31, 31⟩
abbrev DMP_WR_PARAM_param : Fld := ⟨15, 0⟩
abbrev DMP_WR_PARAM_at_en : Fld := ⟨16, 16⟩
abbrev DMP_KICK_AT_HI_n : Fld := ⟨15, 0⟩
abbrev DMP_KICK_AT_HI_set : Fld := ⟨19, 16⟩
abbrev DMP_KICK_AT_HI_bcast : Fld := ⟨20, 20⟩
abbrev DMP_KICK_AT_HI_report : Fld := ⟨21, 21⟩
abbrev DMP_SET_COUNT_count : Fld := ⟨13, 0⟩
abbrev DMP_SET_COUNT_pending : Fld := ⟨31, 31⟩
abbrev DMP_SET_PARAM_param : Fld := ⟨15, 0⟩
abbrev DMP_KREP_SUM_received : Fld := ⟨6, 0⟩
abbrev DMP_KREP_SUM_late : Fld := ⟨14, 8⟩
abbrev DMP_KREP_SUM_error : Fld := ⟨22, 16⟩
abbrev DMP_KREP_SUM_seq : Fld := ⟨31, 24⟩
abbrev CUE_CTRL_en : Fld := ⟨0, 0⟩
abbrev CUE_CTRL_auto_eval : Fld := ⟨1, 1⟩
abbrev CUE_CTRL_lead : Fld := ⟨14, 8⟩
abbrev CUE_STAT_fired : Fld := ⟨0, 0⟩
abbrev CUE_STAT_caught : Fld := ⟨1, 1⟩
abbrev CUE_STAT_skipped : Fld := ⟨2, 2⟩
abbrev CUE_STAT_err : Fld := ⟨3, 3⟩
abbrev CUE_STAT_log_ovf : Fld := ⟨4, 4⟩
abbrev CUE_ERR_INFO_valid : Fld := ⟨31, 31⟩
abbrev MIF_GATE_LAST_valid : Fld := ⟨31, 31⟩
abbrev MIF_GATE_CFG_en : Fld := ⟨0, 0⟩
abbrev MIF_GATE_CFG_transport : Fld := ⟨2, 1⟩
abbrev MIF_GATE_CFG_pol : Fld := ⟨3, 3⟩
abbrev MIF_GATE_CFG_adv_time : Fld := ⟨31, 16⟩
abbrev MIF_CFG_en : Fld := ⟨0, 0⟩
abbrev MIF_CFG_decode : Fld := ⟨2, 1⟩
abbrev MIF_CFG_dir_src : Fld := ⟨4, 3⟩
abbrev MIF_CFG_dir_pol : Fld := ⟨5, 5⟩
abbrev MIF_CFG_invert : Fld := ⟨6, 6⟩
abbrev MIF_CFG_filt : Fld := ⟨10, 7⟩
abbrev MIF_CFG_idx_mode : Fld := ⟨12, 11⟩
abbrev MIF_CFG_idx_pol : Fld := ⟨13, 13⟩
abbrev MIF_CFG_irq_state : Fld := ⟨14, 14⟩
abbrev MIF_CFG_irq_idx : Fld := ⟨15, 15⟩
abbrev MIF_CFG_irq_ltc : Fld := ⟨16, 16⟩
abbrev MIF_CFG_rev_hyst : Fld := ⟨31, 24⟩
abbrev MIF_STAT_state : Fld := ⟨1, 0⟩
abbrev MIF_STAT_dir : Fld := ⟨2, 2⟩
abbrev MIF_STAT_stall : Fld := ⟨3, 3⟩
abbrev MIF_STAT_spool : Fld := ⟨4, 4⟩
abbrev MIF_STAT_ltc_valid : Fld := ⟨5, 5⟩
abbrev MIF_STAT_state_chg : Fld := ⟨8, 8⟩
abbrev MIF_STAT_qerr : Fld := ⟨9, 9⟩
abbrev MIF_STAT_idx : Fld := ⟨10, 10⟩
abbrev MIF_STAT_ltc_new : Fld := ⟨11, 11⟩
abbrev MIF_STAT_ltc_err : Fld := ⟨12, 12⟩
abbrev MIF_POS_STAT_wrapped : Fld := ⟨0, 0⟩
abbrev MIF_POS_STAT_load_pending : Fld := ⟨1, 1⟩
abbrev MIF_STALL_CFG_thr : Fld := ⟨23, 0⟩
abbrev MIF_STALL_CFG_time : Fld := ⟨31, 24⟩
abbrev MIF_SPOOL_CFG_lim : Fld := ⟨15, 0⟩
abbrev MIF_SPOOL_CFG_hyst : Fld := ⟨31, 16⟩
abbrev MIF_ERRS_quad : Fld := ⟨15, 0⟩
abbrev MIF_LTCI_CFG_fps : Fld := ⟨1, 0⟩
abbrev MIF_LTCO_CTRL_en : Fld := ⟨0, 0⟩
abbrev MIF_LTCO_CTRL_fps : Fld := ⟨2, 1⟩
abbrev MIF_LTCO_CTRL_arm : Fld := ⟨3, 3⟩
abbrev MIF_LTCO_CTRL_ub_commit : Fld := ⟨4, 4⟩
abbrev MIF_LTCO_CTRL_cf : Fld := ⟨5, 5⟩
abbrev MIF_LTCO_CTRL_late : Fld := ⟨6, 6⟩
abbrev BEL_SUM_fault : Fld := ⟨7, 0⟩
abbrev BEL_SUM_ovr : Fld := ⟨15, 8⟩
abbrev BEL_SUM_mbox_ovw : Fld := ⟨23, 16⟩
abbrev BEL_SUM_merr : Fld := ⟨31, 24⟩
abbrev BEL_PWM_CFG_en : Fld := ⟨0, 0⟩
abbrev BEL_PWM_CFG_lane : Fld := ⟨3, 1⟩
abbrev BEL_PWM_CFG_pair : Fld := ⟨4, 4⟩
abbrev BEL_PWM_CFG_pol : Fld := ⟨5, 5⟩
abbrev BEL_PWM_CFG_dead : Fld := ⟨15, 8⟩
abbrev BEL_PWM_PERIOD_period : Fld := ⟨15, 0⟩
abbrev BEL_PWM_CMP_cmp : Fld := ⟨16, 0⟩
abbrev BEL_ENC_CFG_en : Fld := ⟨0, 0⟩
abbrev BEL_ENC_CFG_decode : Fld := ⟨2, 1⟩
abbrev BEL_ENC_CFG_invert : Fld := ⟨3, 3⟩
abbrev BEL_ENC_CFG_filt : Fld := ⟨7, 4⟩
abbrev BEL_ENC_CFG_idx_pol : Fld := ⟨8, 8⟩
abbrev BEL_ENC_ERRS_quad : Fld := ⟨15, 0⟩
abbrev BEL_SPI_CTRL_en : Fld := ⟨0, 0⟩
abbrev BEL_SPI_SEL_en : Fld := ⟨0, 0⟩
abbrev BEL_SPI_SEL_lane : Fld := ⟨3, 1⟩
abbrev BEL_SPI_SEL_sx : Fld := ⟨5, 5⟩
abbrev BEL_SPI_SEL_len : Fld := ⟨12, 8⟩
abbrev BEL_SPI_SEL_div : Fld := ⟨23, 16⟩
abbrev BEL_LANE_CTRL_run : Fld := ⟨0, 0⟩
abbrev BEL_LANE_CTRL_reset : Fld := ⟨1, 1⟩
abbrev BEL_LANE_FAULT_valid : Fld := ⟨31, 31⟩
abbrev BEL_LANE_MBOX_tag : Fld := ⟨11, 0⟩
abbrev BEL_LANE_MBOX_en : Fld := ⟨15, 15⟩
abbrev BEL_LANE_EVT_tag : Fld := ⟨11, 0⟩
abbrev BEL_LOOP_CFG_en : Fld := ⟨0, 0⟩
abbrev BEL_LOOP_CFG_src : Fld := ⟨1, 1⟩
abbrev BEL_LOOP_CFG_div : Fld := ⟨13, 2⟩
abbrev BEL_LOOP_CFG_entry : Fld := ⟨25, 16⟩
abbrev BEL_LOOP_PHASE_phase : Fld := ⟨11, 0⟩
abbrev BEL_LOOP_MAXST_max_steps : Fld := ⟨15, 0⟩
abbrev BEL_LOOP_STAT_last_steps : Fld := ⟨15, 0⟩
abbrev BEL_LOOP_STAT_ovr : Fld := ⟨31, 16⟩
abbrev CHM_CTRL_en : Fld := ⟨0, 0⟩
abbrev CHM_CTRL_trim_en : Fld := ⟨1, 1⟩
abbrev CHM_CTRL_id_mode : Fld := ⟨2, 2⟩
abbrev CHM_CTRL_topo : Fld := ⟨5, 4⟩
abbrev CHM_CTRL_lead_prio : Fld := ⟨15, 8⟩
abbrev CHM_CTRL_xdim : Fld := ⟨21, 16⟩
abbrev CHM_CTRL_ydim : Fld := ⟨26, 24⟩
abbrev CHM_ID_id : Fld := ⟨5, 0⟩
abbrev CHM_ID_locked : Fld := ⟨8, 8⟩
abbrev CHM_ID_dup : Fld := ⟨9, 9⟩
abbrev CHM_ID_leader : Fld := ⟨10, 10⟩
abbrev CHM_ID_leader_id : Fld := ⟨21, 16⟩
abbrev CHM_STAT_follower : Fld := ⟨0, 0⟩
abbrev CHM_STAT_muted : Fld := ⟨1, 1⟩
abbrev CHM_STAT_rally_lock : Fld := ⟨2, 2⟩
abbrev CHM_STAT_link_chg : Fld := ⟨8, 8⟩
abbrev CHM_STAT_topo : Fld := ⟨9, 9⟩
abbrev CHM_STAT_leader_chg : Fld := ⟨10, 10⟩
abbrev CHM_STAT_realign : Fld := ⟨11, 11⟩
abbrev CHM_STAT_rally_miss : Fld := ⟨12, 12⟩
abbrev CHM_STAT_disagree : Fld := ⟨13, 13⟩
abbrev CHM_STAT_kick_lost : Fld := ⟨14, 14⟩
abbrev CHM_STAT_late_cpl : Fld := ⟨15, 15⟩
abbrev CHM_LET_CFG_let_max : Fld := ⟨3, 0⟩
abbrev CHM_RALLY_CFG_miss : Fld := ⟨7, 0⟩
abbrev CHM_RALLY_CFG_unmute : Fld := ⟨31, 16⟩
abbrev CHM_TRIM_max : Fld := ⟨15, 0⟩
abbrev CHM_TRIM_bw : Fld := ⟨31, 16⟩
abbrev CHM_RT_TIMEOUT_timeout : Fld := ⟨15, 0⟩
abbrev CHM_RA_TGT_engine : Fld := ⟨5, 0⟩
abbrev CHM_RA_TGT_inc : Fld := ⟨8, 8⟩
abbrev CHM_MAP_CTRL_arm : Fld := ⟨0, 0⟩
abbrev CHM_MAP_CTRL_cancel : Fld := ⟨1, 1⟩
abbrev CHM_MAP_CTRL_bank : Fld := ⟨8, 8⟩
abbrev CHM_MAP_CTRL_loading : Fld := ⟨9, 9⟩
abbrev CHM_MAP_CTRL_late : Fld := ⟨16, 16⟩
abbrev CHM_MAP_CTRL_done : Fld := ⟨17, 17⟩
abbrev CHM_MAP_CTRL_err : Fld := ⟨18, 18⟩
abbrev CHM_P_CTRL_en : Fld := ⟨0, 0⟩
abbrev CHM_P_CTRL_subst : Fld := ⟨1, 1⟩
abbrev CHM_P_CTRL_tag_offset : Fld := ⟨11, 4⟩
abbrev CHM_P_CTRL_groups : Fld := ⟨22, 16⟩
abbrev CHM_P_TIME_tx_ofs : Fld := ⟨15, 0⟩
abbrev CHM_P_TIME_rx_ofs : Fld := ⟨31, 16⟩
abbrev CHM_P_STAT_state : Fld := ⟨1, 0⟩
abbrev CHM_P_STAT_long : Fld := ⟨2, 2⟩
abbrev CHM_P_STAT_down : Fld := ⟨8, 8⟩
abbrev CHM_P_STAT_topo : Fld := ⟨9, 9⟩
abbrev CHM_P_STAT_poison : Fld := ⟨10, 10⟩
abbrev CHM_P_STAT_rx_late : Fld := ⟨11, 11⟩
abbrev CHM_P_STAT_fwd_late : Fld := ⟨12, 12⟩
abbrev CHM_P_NBR_INFO_id : Fld := ⟨5, 0⟩
abbrev CHM_EVT_MAP_tag : Fld := ⟨11, 0⟩
abbrev CHM_EVT_MAP_dest : Fld := ⟨17, 12⟩
abbrev CHM_EVT_MAP_rtag : Fld := ⟨29, 18⟩
abbrev CHM_EVT_MAP_en : Fld := ⟨31, 31⟩
abbrev EVC_CTRL_fault_alt : Fld := ⟨2, 0⟩
abbrev EVC_OFFSIDE_INFO_valid : Fld := ⟨31, 31⟩
abbrev EVC_TGT_CFG_H_hearth : Fld := ⟨7, 0⟩
abbrev EVC_TGT_CFG_H_en : Fld := ⟨8, 8⟩
abbrev EVC_TGT_CFG_H_floor : Fld := ⟨19, 16⟩
abbrev EVC_TGT_CFG_X_vector : Fld := ⟨5, 0⟩
abbrev EVC_TGT_CFG_X_mode : Fld := ⟨9, 8⟩
abbrev EVC_COMPLETE_src : Fld := ⟨8, 0⟩
abbrev EVC_SRC_CFG_prio : Fld := ⟨3, 0⟩
abbrev EVC_SRC_CFG_target : Fld := ⟨6, 4⟩
abbrev EVC_SRC_CFG_en : Fld := ⟨7, 7⟩
abbrev EVC_SRC_CFG_sense : Fld := ⟨10, 8⟩
abbrev EVC_SRC_CFG_state : Fld := ⟨13, 12⟩
abbrev SKP_FLASH_CFG_mode : Fld := ⟨1, 0⟩
abbrev SKP_FLASH_CFG_size_log2 : Fld := ⟨11, 8⟩
abbrev SKP_FLASH_CFG_sect64 : Fld := ⟨17, 17⟩
abbrev SKP_SCN_CFG_base : Fld := ⟨11, 0⟩
abbrev SKP_SCN_CFG_slot_log2 : Fld := ⟨20, 16⟩
abbrev SKP_SCN_CFG_pairs : Fld := ⟨31, 21⟩
abbrev SKP_TIMING_prog_max : Fld := ⟨15, 0⟩
abbrev SKP_TIMING_erase_max : Fld := ⟨31, 16⟩
abbrev SKP_CMD_op : Fld := ⟨3, 0⟩
abbrev SKP_CMD_pair : Fld := ⟨14, 4⟩
abbrev SKP_CMD_deep : Fld := ⟨15, 15⟩
abbrev SKP_CMD_signed : Fld := ⟨16, 16⟩
abbrev SKP_CMD_abort : Fld := ⟨31, 31⟩
abbrev SKP_STAT_busy : Fld := ⟨0, 0⟩
abbrev SKP_STAT_step : Fld := ⟨3, 1⟩
abbrev SKP_STAT_result : Fld := ⟨7, 4⟩
abbrev SKP_STAT_err : Fld := ⟨8, 8⟩
abbrev SKP_STAT_pfail : Fld := ⟨9, 9⟩
abbrev SKP_RES_INFO_slot : Fld := ⟨0, 0⟩
abbrev SKP_RES_INFO_fallback : Fld := ⟨1, 1⟩
abbrev SKP_RES_INFO_tie : Fld := ⟨2, 2⟩
abbrev SKP_BOOT_STAT_boot_mode : Fld := ⟨1, 0⟩
abbrev SKP_BOOT_STAT_flash_oct : Fld := ⟨2, 2⟩
abbrev SKP_BOOT_STAT_source : Fld := ⟨5, 4⟩
abbrev SKP_BOOT_STAT_result : Fld := ⟨11, 8⟩
abbrev SKP_BOOT_STAT_secure : Fld := ⟨12, 12⟩
abbrev SKP_BOOT_STAT_done : Fld := ⟨16, 16⟩
abbrev SKP_BOOT_GO_go : Fld := ⟨0, 0⟩
abbrev SKP_OTP_ADDR_addr : Fld := ⟨5, 0⟩
abbrev SKP_OTP_CTRL_go : Fld := ⟨0, 0⟩
abbrev SKP_OTP_CTRL_done : Fld := ⟨1, 1⟩
abbrev SYS_PWR_CTRL_target : Fld := ⟨1, 0⟩
abbrev SYS_PWR_CTRL_go : Fld := ⟨8, 8⟩
abbrev SYS_PWR_STAT_state : Fld := ⟨2, 0⟩
abbrev SYS_PWR_STAT_result : Fld := ⟨10, 8⟩
abbrev SYS_RST_CTRL_sys : Fld := ⟨0, 0⟩
abbrev SYS_RST_CTRL_key : Fld := ⟨15, 8⟩
abbrev SYS_TEMP_temp : Fld := ⟨15, 0⟩
abbrev SYS_TEMP_CFG_alarm : Fld := ⟨15, 0⟩
abbrev SYS_TEMP_CFG_crit : Fld := ⟨31, 16⟩
abbrev EMB_CAUSE_cause : Fld := ⟨3, 0⟩
abbrev EMB_CAUSE_from : Fld := ⟨10, 9⟩
abbrev EMB_CAUSE_hits : Fld := ⟨23, 16⟩
abbrev EMB_CAUSE_valid : Fld := ⟨31, 31⟩
abbrev EMB_STAT_state : Fld := ⟨1, 0⟩
abbrev EMB_STAT_xp_valid : Fld := ⟨2, 2⟩
abbrev EMB_STAT_xp_running : Fld := ⟨3, 3⟩
abbrev EMB_STAT_alarm : Fld := ⟨8, 8⟩
abbrev EMB_STAT_pwr_fail : Fld := ⟨9, 9⟩
abbrev EMB_STAT_xp_mismatch : Fld := ⟨10, 10⟩
abbrev EMB_RTC_STAT_wrapped : Fld := ⟨0, 0⟩
abbrev EMB_ALARM_HI_alarm : Fld := ⟨15, 0⟩
abbrev EMB_ALARM_HI_en : Fld := ⟨31, 31⟩
abbrev EMB_XP_CFG_win_log2 : Fld := ⟨4, 0⟩
abbrev EMB_XP_CFG_en : Fld := ⟨8, 8⟩
abbrev EMB_PWR_SEQ_up_dly : Fld := ⟨15, 0⟩
abbrev EMB_PWR_SEQ_down_dly : Fld := ⟨31, 16⟩
abbrev EMB_PWR_EN_run : Fld := ⟨0, 0⟩
abbrev EMB_PWR_EN_standby : Fld := ⟨1, 1⟩
abbrev EMB_PWR_EN_off : Fld := ⟨2, 2⟩
abbrev EMB_PWR_EN_order : Fld := ⟨5, 4⟩
abbrev EMB_RESUME_en : Fld := ⟨0, 0⟩
abbrev EMB_RESUME_pc : Fld := ⟨27, 16⟩
abbrev EMB_WATCH_src : Fld := ⟨4, 0⟩
abbrev EMB_WATCH_sense : Fld := ⟨10, 8⟩
abbrev EMB_WATCH_en : Fld := ⟨15, 15⟩
abbrev HIF_PCIE_CTRL_perst_sys : Fld := ⟨0, 0⟩
abbrev HIF_PCIE_STAT_link_up : Fld := ⟨0, 0⟩
abbrev HIF_PCIE_STAT_speed : Fld := ⟨2, 1⟩
abbrev HIF_PCIE_STAT_width : Fld := ⟨5, 3⟩
abbrev HIF_PCIE_STAT_link_chg : Fld := ⟨8, 8⟩
abbrev HIF_PCIE_STAT_perst : Fld := ⟨9, 9⟩
abbrev HIF_PCIE_STAT_hot_reset : Fld := ⟨10, 10⟩
abbrev HIF_PCIE_STAT_ur : Fld := ⟨11, 11⟩
abbrev HIF_PCIE_STAT_ca : Fld := ⟨12, 12⟩
abbrev HIF_DB_STAT_full : Fld := ⟨3, 0⟩
abbrev HIF_DB_STAT_ovw : Fld := ⟨11, 8⟩
abbrev HIF_QSPI_CFG_en : Fld := ⟨0, 0⟩
abbrev HIF_QSPI_STAT_busy : Fld := ⟨0, 0⟩
abbrev HIF_QSPI_STAT_frame_err : Fld := ⟨8, 8⟩
abbrev HIF_QSPI_STAT_word_drop : Fld := ⟨9, 9⟩
abbrev HIF_QSPI_STAT_abandoned : Fld := ⟨10, 10⟩
abbrev HIF_UART_CTRL_en : Fld := ⟨0, 0⟩
abbrev HIF_UART_CTRL_div : Fld := ⟨31, 16⟩
abbrev HIF_UART_TX_byte : Fld := ⟨7, 0⟩
abbrev HIF_UART_STAT_tx_fill : Fld := ⟨6, 0⟩
abbrev HIF_UART_STAT_rx_fill : Fld := ⟨14, 8⟩
abbrev HIF_UART_STAT_rx_ovf : Fld := ⟨16, 16⟩
abbrev HIF_UART_STAT_frame_err : Fld := ⟨17, 17⟩
abbrev MSIX_CTRL_mask : Fld := ⟨0, 0⟩
abbrev HRT_DBG_CTRL_step_irq : Fld := ⟨1, 1⟩
abbrev HRT_DBG_CTRL_irq : Fld := ⟨2, 2⟩
abbrev HRT_DBG_SEL_code : Fld := ⟨7, 0⟩
abbrev HRT_DBG_SEL_sel_win : Fld := ⟨10, 8⟩
abbrev HRT_DBG_BP_addr : Fld := ⟨11, 0⟩
abbrev HRT_DBG_BP_en : Fld := ⟨31, 31⟩
abbrev HRT_DBG_WP_LO_first : Fld := ⟨15, 0⟩
abbrev HRT_DBG_WP_HI_last : Fld := ⟨15, 0⟩
abbrev HRT_DBG_WP_HI_r : Fld := ⟨16, 16⟩
abbrev HRT_DBG_WP_HI_w : Fld := ⟨17, 17⟩
abbrev HRT_DBG_WP_HI_en : Fld := ⟨31, 31⟩
abbrev BEL_LANE_DBG_CTRL_irq : Fld := ⟨2, 2⟩
abbrev BEL_LANE_DBG_CTRL_safe : Fld := ⟨3, 3⟩
abbrev BEL_LANE_DBG_SEL_code : Fld := ⟨3, 0⟩
abbrev BEL_LANE_BP_addr : Fld := ⟨9, 0⟩
abbrev BEL_LANE_BP_en : Fld := ⟨31, 31⟩

/-! The rows, block by block. -/

/-- Rows of block HRT. -/
def hrtRows : List RegRow := [
  ⟨0x0100C100, 192, 0x10000, 1, 0x4, 0xA00, 0xF0F, 0x0, 0x0, 0x0, []⟩, -- HRT_PACE_CTRL R33
  ⟨0x0100C104, 192, 0x10000, 1, 0x4, 0x50, 0xFFFF, 0x0, 0x0, 0x0, []⟩, -- HRT_PACE_THRESH R36
  ⟨0x0100C108, 192, 0x10000, 1, 0x4, 0xFFFF, 0x0, 0x0, 0x0, 0x0, []⟩, -- HRT_PACE_LAST R34
  ⟨0x0100C10C, 192, 0x10000, 1, 0x4, 0xFFFFFFFF, 0x0, 0x0, 0x0, 0x0, []⟩, -- HRT_PACE_MIN R35
  ⟨0x0100C110, 192, 0x10000, 1, 0x4, 0x0, 0x0, 0x0, 0xFFFF, 0x0, []⟩, -- HRT_PACE_MAXSTEPS R34
  ⟨0x0100C114, 192, 0x10000, 1, 0x4, 0x0, 0x0, 0x7, 0x0, 0x0, []⟩, -- HRT_PACE_STATUS R36
  ⟨0x0100C118, 192, 0x10000, 1, 0x4, 0x0, 0x0, 0x0, 0xFFFFFFFF, 0x0, []⟩, -- HRT_PACE_OVERRUNS R34
  ⟨0x0100C11C, 192, 0x10000, 1, 0x4, 0x0, 0x0, 0x0, 0xFFFFFFFF, 0x0, []⟩, -- HRT_PACE_LATE R37
  ⟨0x0100E000, 192, 0x10000, 1024, 0x4, 0x0, 0x7F7F7F7F, 0x0, 0x0, 0x0, []⟩, -- HRT_ROUTE_SH R206
  ⟨0x0100F000, 192, 0x10000, 1024, 0x4, 0x0, 0x0, 0x0, 0x0, 0x0, []⟩, -- HRT_ROUTE_ACT R206
  ⟨0x0100C000, 192, 0x10000, 1, 0x4, 0x0, 0x1, 0x0, 0x0, 0x0, [(0, 0x1)]⟩, -- HRT_CTRL R256
  ⟨0x0100C004, 192, 0x10000, 1, 0x4, 0x81, 0x0, 0x0, 0x0, 0x0, [(0, 0x80)]⟩, -- HRT_STAT R256
  ⟨0x0100C008, 192, 0x10000, 1, 0x4, 0x0, 0x8FFF0FFF, 0x0, 0x0, 0x0, []⟩, -- HRT_PC R256
  ⟨0x0100C00C, 192, 0x10000, 1, 0x4, 0x0, 0x0, 0x80000000, 0x0, 0x0, []⟩, -- HRT_FAULT R248
  ⟨0x0100C010, 192, 0x10000, 1, 0x4, 0x0, 0x0, 0x0, 0x0, 0x0, []⟩, -- HRT_FAULT_VAL R248
  ⟨0x0100C014, 192, 0x10000, 1, 0x4, 0x0, 0x1, 0x0, 0x0, 0x0, []⟩, -- HRT_FENCE R257
  ⟨0x0100C018, 192, 0x10000, 1, 0x4, 0x0, 0x0, 0x0, 0x0, 0x0, []⟩, -- HRT_IRQ_SET R244
  ⟨0x0100C01C, 192, 0x10000, 1, 0x4, 0x0, 0x0, 0xFE, 0x0, 0x0, []⟩, -- HRT_IRQ_PEND R244
  ⟨0x0100C020, 192, 0x10000, 1, 0x4, 0x0, 0xFF, 0x0, 0x0, 0x0, []⟩, -- HRT_IRQ_EN R244
  ⟨0x0100C024, 192, 0x10000, 1, 0x4, 0xF800FC0, 0xFFF0FFF, 0x0, 0x0, 0x0, []⟩, -- HRT_VEC R246
  ⟨0x0100C028, 192, 0x10000, 1, 0x4, 0x80007C00, 0xFFFFFFFF, 0x0, 0x0, 0x0, []⟩, -- HRT_SPILL_LIM R225
  ⟨0x0100C02C, 192, 0x10000, 1, 0x4, 0x0, 0xFFF, 0x0, 0x0, 0x0, []⟩, -- HRT_RESET_PC R258
  ⟨0x0100C030, 192, 0x10000, 1, 0x4, 0x0, 0xFFFF, 0x0, 0x0, 0x0, []⟩, -- HRT_WDOG R250
  ⟨0x0100C034, 192, 0x10000, 1, 0x4, 0x0, 0x0, 0x0, 0xFFFFFFFF, 0x0, []⟩, -- HRT_ECC_CORR R231
  ⟨0x0100C038, 192, 0x10000, 1, 0x4, 0x0, 0x0, 0x0, 0xFFFFFFFF, 0x0, []⟩, -- HRT_ECC_UNC R231
  ⟨0x0100C03C, 192, 0x10000, 1, 0x4, 0x0, 0x0, 0x0, 0x0, 0x0, []⟩, -- HRT_ECC_ADDR R231
  ⟨0x0100C040, 192, 0x10000, 4, 0x8, 0x0, 0x7FFFC7, 0x0, 0x0, 0x0, []⟩, -- HRT_MPR_BASE R233
  ⟨0x0100C044, 192, 0x10000, 4, 0x8, 0x0, 0x7FFFC0, 0x0, 0x0, 0x0, []⟩, -- HRT_MPR_LIMIT R233
  ⟨0x0100C080, 192, 0x10000, 1, 0x4, 0x0, 0x0, 0x3E, 0x0, 0x0, []⟩, -- HRT_PARAM_STAT R252
  ⟨0x0100C084, 192, 0x10000, 1, 0x4, 0x0, 0x0, 0x0, 0x0, 0x0, []⟩, -- HRT_PARAM_ARM R252
  ⟨0x0100C088, 192, 0x10000, 1, 0x4, 0x0, 0x0, 0x0, 0x0, 0x0, []⟩, -- HRT_PARAM_LAST R253
  ⟨0x0100C400, 192, 0x10000, 256, 0x4, 0x0, 0x0, 0x0, 0x0, 0x0, []⟩, -- HRT_SLOT_ACT R252
  ⟨0x0100C800, 192, 0x10000, 256, 0x4, 0x0, 0xFFFFFFFF, 0x0, 0x0, 0x0, []⟩, -- HRT_SLOT_SH R255
  ⟨0x0100CC00, 192, 0x10000, 1, 0x4, 0x0, 0x0, 0x0, 0x0, 0x0, []⟩, -- HRT_QSTAT R287
  ⟨0x0100CC04, 192, 0x10000, 1, 0x4, 0x0, 0x0, 0x0, 0xFFFFFFFF, 0x0, []⟩, -- HRT_QDISC R258
  ⟨0x0100CD00, 192, 0x10000, 1, 0x4, 0x0, 0x6, 0x0, 0x0, 0x1, []⟩, -- HRT_DBG_CTRL R517
  ⟨0x0100CD04, 192, 0x10000, 1, 0x4, 0x0, 0x0, 0x0, 0x0, 0x0, []⟩, -- HRT_DBG_STAT R517
  ⟨0x0100CD08, 192, 0x10000, 1, 0x4, 0x0, 0x7FF, 0x0, 0x0, 0x0, []⟩, -- HRT_DBG_SEL R518
  ⟨0x0100CD0C, 192, 0x10000, 1, 0x4, 0x0, 0xFFFFFFFF, 0x0, 0x0, 0x0, []⟩, -- HRT_DBG_DATA R518
  ⟨0x0100CD10, 192, 0x10000, 4, 0x4, 0x0, 0x80000FFF, 0x0, 0x0, 0x0, []⟩, -- HRT_DBG_BP R517
  ⟨0x0100CD20, 192, 0x10000, 2, 0x8, 0x0, 0xFFFF, 0x0, 0x0, 0x0, []⟩, -- HRT_DBG_WP_LO R517
  ⟨0x0100CD24, 192, 0x10000, 2, 0x8, 0x0, 0x8003FFFF, 0x0, 0x0, 0x0, []⟩ -- HRT_DBG_WP_HI R517
]

/-- Rows of block SYS. -/
def sysRows : List RegRow := [
  ⟨0x02000600, 6, 0x4, 1, 0x4, 0x0, 0x0, 0xFFFFFFFF, 0x0, 0x0, []⟩, -- SYS_PACE_NEAR R36
  ⟨0x02000100, 1, 0x4, 1, 0x4, 0x0, 0x0, 0x0, 0x0, 0x0, []⟩, -- SYS_VIOL_ADDR R50
  ⟨0x02000104, 1, 0x4, 1, 0x4, 0x0, 0x0, 0x80000000, 0x0, 0x0, []⟩, -- SYS_VIOL_INFO R50
  ⟨0x02000108, 1, 0x4, 1, 0x4, 0x0, 0x0, 0x0, 0xFFFFFFFF, 0x0, []⟩, -- SYS_VIOL_COUNT R50
  ⟨0x02000110, 1, 0x4, 1, 0x4, 0x0, 0x0, 0x0, 0xFF07, 0x0, []⟩, -- SYS_FENCE R60
  ⟨0x02000200, 1, 0x4, 1, 0x4, 0x0, 0x0, 0x0, 0x0, 0x0, []⟩, -- SYS_BALL_TURNOVER R72
  ⟨0x02000204, 1, 0x4, 1, 0x4, 0x0, 0x0, 0x80000000, 0x0, 0x0, []⟩, -- SYS_BALL_TURN_INFO R73
  ⟨0x02000210, 8, 0x4, 1, 0x4, 0x0, 0x0, 0xFFFFFFFF, 0x0, 0x0, []⟩, -- SYS_BALL_TURNED R73
  ⟨0x02001000, 256, 0x4, 1, 0x4, 0x0, 0x800003FF, 0x0, 0x0, 0x0, []⟩, -- SYS_BALL R66
  ⟨0x02001400, 256, 0x4, 1, 0x4, 0x0, 0x0, 0x0, 0x0, 0x0, []⟩, -- SYS_BALL_PEEK R66
  ⟨0x02001800, 256, 0x4, 1, 0x4, 0x0, 0xFFFF, 0x0, 0x0, 0x0, []⟩, -- SYS_BALL_LEASE R71
  ⟨0x02000040, 6, 0x4, 1, 0x4, 0x0, 0xFFFFFFFF, 0x0, 0x0, 0x0, [(0, 0x1)]⟩, -- SYS_HEARTH_PRIV R232
  ⟨0x02000000, 1, 0x4, 1, 0x4, 0x5A4D0128, 0x0, 0x0, 0x0, 0x0, []⟩, -- SYS_IDENT_LO R473
  ⟨0x02000004, 1, 0x4, 1, 0x4, 0x11, 0x0, 0x0, 0x0, 0x0, []⟩, -- SYS_IDENT_HI R473
  ⟨0x02000008, 1, 0x4, 1, 0x4, 0x0, 0x0, 0x0, 0x0, 0x0, []⟩, -- SYS_SERIAL_LO R473
  ⟨0x0200000C, 1, 0x4, 1, 0x4, 0x0, 0x0, 0x0, 0x0, 0x0, []⟩, -- SYS_SERIAL_HI R473
  ⟨0x02000300, 1, 0x4, 1, 0x4, 0x0, 0x3, 0x0, 0x0, 0x100, []⟩, -- SYS_PWR_CTRL R476
  ⟨0x02000304, 1, 0x4, 1, 0x4, 0x0, 0x0, 0x0, 0x0, 0x0, []⟩, -- SYS_PWR_STAT R477
  ⟨0x02000308, 1, 0x4, 1, 0x4, 0xFF, 0xFF, 0x0, 0x0, 0x0, []⟩, -- SYS_PWR_LWAKE R481
  ⟨0x02000310, 1, 0x4, 1, 0x4, 0x0, 0x0, 0x0, 0x0, 0x0, []⟩, -- SYS_RST_CTRL R490
  ⟨0x02000320, 1, 0x4, 1, 0x4, 0x0, 0x0, 0x0, 0x0, 0x0, []⟩, -- SYS_TEMP R500
  ⟨0x02000324, 1, 0x4, 1, 0x4, 0x73005F0, 0xFFFFFFFF, 0x0, 0x0, 0x0, []⟩, -- SYS_TEMP_CFG R500
  ⟨0x02000328, 1, 0x4, 1, 0x4, 0x0, 0x0, 0x0, 0x0, 0x0, []⟩ -- SYS_RATE R502
]

/-- Rows of block EVC. -/
def evcRows : List RegRow := [
  ⟨0x02010000, 1, 0x4, 1, 0x4, 0x4, 0x7, 0x0, 0x0, 0x0, []⟩, -- EVC_CTRL R445
  ⟨0x02010004, 1, 0x4, 1, 0x4, 0x0, 0x0, 0x0, 0xFFFFFFFF, 0x0, []⟩, -- EVC_MERGED R435
  ⟨0x02010008, 1, 0x4, 1, 0x4, 0x0, 0x0, 0x0, 0xFFFFFFFF, 0x0, []⟩, -- EVC_REBOUNDS R443
  ⟨0x02010010, 1, 0x4, 1, 0x4, 0x0, 0x0, 0x80000000, 0x0, 0x0, []⟩, -- EVC_OFFSIDE_INFO R442
  ⟨0x02010014, 1, 0x4, 1, 0x4, 0x0, 0x0, 0x0, 0x0, 0x0, []⟩, -- EVC_SOFT R433
  ⟨0x02010040, 16, 0x4, 1, 0x4, 0x0, 0x0, 0xFFFFFFFF, 0x0, 0x0, []⟩, -- EVC_PEND R435
  ⟨0x02010080, 16, 0x4, 1, 0x4, 0x0, 0x0, 0x0, 0x0, 0x0, []⟩, -- EVC_ACTIVE R435
  ⟨0x02010100, 4, 0x20, 1, 0x4, 0x0, 0xF01FF, 0x0, 0x0, 0x0, []⟩, -- EVC_TGT_CFG_H R437
  ⟨0x02010180, 4, 0x20, 1, 0x4, 0x0, 0xF033F, 0x0, 0x0, 0x0, []⟩, -- EVC_TGT_CFG_X R438
  ⟨0x02010104, 8, 0x20, 1, 0x4, 0x0, 0x0, 0x0, 0xF01FF, 0x0, []⟩, -- EVC_CLAIM R440
  ⟨0x02010108, 8, 0x20, 1, 0x4, 0x0, 0x0, 0x0, 0x0, 0x0, []⟩, -- EVC_COMPLETE R441
  ⟨0x0201010C, 8, 0x20, 1, 0x4, 0x0, 0x0, 0x0, 0x0, 0x0, []⟩, -- EVC_TGT_STAT R439
  ⟨0x02010110, 8, 0x20, 1, 0x4, 0x0, 0x0, 0x0, 0x0, 0x0, []⟩, -- EVC_STACK_RESET R446
  ⟨0x02010400, 8, 0x40, 16, 0x4, 0x0, 0x0, 0x0, 0x0, 0x0, []⟩, -- EVC_STACK R436
  ⟨0x02011000, 512, 0x4, 1, 0x4, 0x0, 0x7FF, 0x0, 0x0, 0x0, [(471, 0x8F)]⟩ -- EVC_SRC_CFG R450
]

/-- Rows of block FLUE. -/
def flueRows : List RegRow := [
  ⟨0x02020000, 1, 0x4, 1, 0x4, 0x0, 0x0, 0x0, 0x0, 0x1, []⟩, -- FLUE_RT_CTRL R207
  ⟨0x02020004, 1, 0x4, 1, 0x4, 0x0, 0x0, 0xC, 0x0, 0x0, []⟩, -- FLUE_RT_STAT R208
  ⟨0x02020008, 1, 0x4, 1, 0x4, 0x0, 0xFFFFFFFF, 0x0, 0x0, 0x0, []⟩, -- FLUE_RT_KEY_LO R207
  ⟨0x0202000C, 1, 0x4, 1, 0x4, 0x0, 0xFFFF, 0x0, 0x0, 0x0, []⟩, -- FLUE_RT_KEY_HI R207
  ⟨0x02020010, 1, 0x4, 1, 0x4, 0x4, 0xFF, 0x0, 0x0, 0x0, []⟩, -- FLUE_STALL R216
  ⟨0x02020014, 1, 0x4, 1, 0x4, 0x0, 0x0, 0x80000000, 0x0, 0x0, []⟩, -- FLUE_STALL_INFO R216
  ⟨0x02020018, 1, 0x4, 1, 0x4, 0x0, 0x0, 0x0, 0xFFFFFFFF, 0x0, []⟩, -- FLUE_STALL_COUNT R216
  ⟨0x02020020, 1, 0x4, 1, 0x4, 0x0, 0x0, 0x80000000, 0x0, 0x0, []⟩, -- FLUE_MIS_INFO R202
  ⟨0x02020024, 1, 0x4, 1, 0x4, 0x0, 0x0, 0x0, 0xFFFFFFFF, 0x0, []⟩, -- FLUE_MIS_COUNT R202
  ⟨0x02020030, 2, 0x4, 1, 0x4, 0x0, 0x0, 0xFFFFFFFF, 0x0, 0x0, []⟩, -- FLUE_ST_SUM R219
  ⟨0x02021000, 56, 0x20, 1, 0x4, 0x0, 0x0, 0x0, 0xFFFFFFFF, 0x0, []⟩, -- FLUE_ST_LATE R218
  ⟨0x02021004, 56, 0x20, 1, 0x4, 0x0, 0x0, 0x0, 0xFFFFFFFF, 0x0, []⟩, -- FLUE_ST_STALE R218
  ⟨0x02021008, 56, 0x20, 1, 0x4, 0x0, 0x0, 0x0, 0xFFFFFFFF, 0x0, []⟩, -- FLUE_ST_EARLY R218
  ⟨0x0202100C, 56, 0x20, 1, 0x4, 0x0, 0x0, 0x0, 0xFFFFFFFF, 0x0, []⟩, -- FLUE_ST_OVERRUN R218
  ⟨0x02021010, 56, 0x20, 1, 0x4, 0x0, 0x0, 0x0, 0xFFFFFFFF, 0x0, []⟩, -- FLUE_ST_UNMAPPED R218
  ⟨0x02021014, 56, 0x20, 1, 0x4, 0x0, 0x0, 0x0, 0xFFFFFFFF, 0x0, []⟩, -- FLUE_ST_DUP R218
  ⟨0x02021018, 56, 0x20, 1, 0x4, 0x0, 0x0, 0x3F, 0x0, 0x0, []⟩, -- FLUE_ST_STAT R219
  ⟨0x0202101C, 56, 0x20, 1, 0x4, 0x9, 0x3F, 0x0, 0x0, 0x0, []⟩ -- FLUE_ST_IRQ_EN R219
]

/-- Rows of block MEMC. -/
def memcRows : List RegRow := [
  ⟨0x02030000, 1, 0x4, 1, 0x4, 0x0, 0x0, 0x0, 0x0, 0x0, []⟩, -- MEMC_STATUS R326
  ⟨0x02030004, 1, 0x4, 1, 0x4, 0x0, 0x0, 0xF, 0x0, 0x0, []⟩, -- MEMC_EVT R323
  ⟨0x02030010, 1, 0x4, 1, 0x4, 0x0, 0x0, 0x0, 0xFFFFFFFF, 0x0, []⟩, -- MEMC_CE_COUNT R314
  ⟨0x02030014, 1, 0x4, 1, 0x4, 0x0, 0x0, 0x0, 0x0, 0x0, []⟩, -- MEMC_CE_ADDR R314
  ⟨0x02030018, 1, 0x4, 1, 0x4, 0x0, 0x0, 0x80000000, 0x0, 0x0, []⟩, -- MEMC_CE_INFO R314
  ⟨0x02030020, 1, 0x4, 1, 0x4, 0x0, 0x0, 0x0, 0xFFFFFFFF, 0x0, []⟩, -- MEMC_UE_COUNT R315
  ⟨0x02030024, 1, 0x4, 1, 0x4, 0x0, 0x0, 0x0, 0x0, 0x0, []⟩, -- MEMC_UE_ADDR R315
  ⟨0x02030028, 1, 0x4, 1, 0x4, 0x0, 0x0, 0x80000000, 0x0, 0x0, []⟩, -- MEMC_UE_INFO R315
  ⟨0x02030040, 1, 0x4, 1, 0x4, 0x0, 0x7, 0x0, 0x0, 0x0, []⟩, -- MEMC_SCRUB_CTRL R321
  ⟨0x02030044, 1, 0x4, 1, 0x4, 0x0, 0xFFFFFF, 0x0, 0x0, 0x0, []⟩, -- MEMC_SCRUB_START R321
  ⟨0x02030048, 1, 0x4, 1, 0x4, 0x800000, 0xFFFFFF, 0x0, 0x0, 0x0, []⟩, -- MEMC_SCRUB_END R321
  ⟨0x0203004C, 1, 0x4, 1, 0x4, 0x1F4, 0xFFFFF, 0x0, 0x0, 0x0, []⟩, -- MEMC_SCRUB_RATE R325
  ⟨0x02030050, 1, 0x4, 1, 0x4, 0x0, 0x0, 0x0, 0x0, 0x0, []⟩, -- MEMC_SCRUB_POS R321
  ⟨0x02030054, 1, 0x4, 1, 0x4, 0x0, 0x0, 0x0, 0x0, 0x0, []⟩, -- MEMC_SCRUB_STAT R323
  ⟨0x02030058, 1, 0x4, 1, 0x4, 0x0, 0x0, 0x0, 0xFFFFFFFF, 0x0, []⟩, -- MEMC_SCRUB_PASSES R323
  ⟨0x02030060, 1, 0x4, 1, 0x4, 0x0, 0x0, 0x0, 0x0, 0x0, []⟩, -- MEMC_SCRUB_CHECKED R323
  ⟨0x02030064, 1, 0x4, 1, 0x4, 0x0, 0x0, 0x0, 0x0, 0x0, []⟩, -- MEMC_SCRUB_CORR R323
  ⟨0x02030068, 1, 0x4, 1, 0x4, 0x0, 0x0, 0x0, 0x0, 0x0, []⟩, -- MEMC_SCRUB_UNC R323
  ⟨0x0203006C, 1, 0x4, 1, 0x4, 0xFFFFFFFF, 0x0, 0x0, 0x0, 0x0, []⟩, -- MEMC_SCRUB_UE_FIRST R323
  ⟨0x02030070, 1, 0x4, 1, 0x4, 0xFFFFFFFF, 0x0, 0x0, 0x0, 0x0, []⟩, -- MEMC_SCRUB_UE_LAST R323
  ⟨0x02030080, 1, 0x4, 1, 0x4, 0x0, 0x7FFFF8, 0x0, 0x0, 0x0, []⟩, -- MEMC_INJ_ADDR R318
  ⟨0x02030084, 1, 0x4, 1, 0x4, 0x0, 0xFF00, 0x0, 0x0, 0x1, []⟩ -- MEMC_INJ_CTRL R318
]

/-- Rows of block RSG. -/
def rsgRows : List RegRow := [
  ⟨0x02040000, 1, 0x4, 1, 0x4, 0x0, 0x7F, 0x0, 0x0, 0x0, []⟩, -- RSG_CTRL R92
  ⟨0x02040004, 1, 0x4, 1, 0x4, 0x0, 0x0, 0x0, 0x0, 0x0, []⟩, -- RSG_STATE R92
  ⟨0x02040008, 1, 0x4, 1, 0x4, 0x0, 0x0, 0x1F, 0x0, 0x0, []⟩, -- RSG_STATUS R92
  ⟨0x02040010, 1, 0x4, 1, 0x4, 0x0, 0x0, 0x0, 0x0, 0x0, []⟩, -- RSG_FREQ_LO R104
  ⟨0x02040014, 1, 0x4, 1, 0x4, 0x0, 0x0, 0x0, 0x0, 0x0, []⟩, -- RSG_FREQ_HI R104
  ⟨0x02040018, 1, 0x4, 1, 0x4, 0x0, 0x0, 0x0, 0x0, 0x0, []⟩, -- RSG_HOLD_LO R104
  ⟨0x0204001C, 1, 0x4, 1, 0x4, 0x0, 0x0, 0x0, 0x0, 0x0, []⟩, -- RSG_HOLD_HI R104
  ⟨0x02040020, 8, 0x4, 1, 0x4, 0x0, 0xFFF007F, 0x0, 0x0, 0x0, []⟩, -- RSG_PRIO R81
  ⟨0x02040040, 1, 0x4, 1, 0x4, 0x7800E10, 0x7FC1FFFF, 0x0, 0x0, 0x0, []⟩, -- RSG_HOLD_CFG R97
  ⟨0x02040044, 1, 0x4, 1, 0x4, 0x0, 0x0, 0x0, 0x0, 0x0, []⟩, -- RSG_HOLD_ELAPSED R101
  ⟨0x02040048, 1, 0x4, 1, 0x4, 0x3C0000, 0x3FF0000, 0x0, 0x0, 0x0, []⟩, -- RSG_HIST_COUNT R96
  ⟨0x02040050, 1, 0x4, 1, 0x4, 0x3E8, 0xFFFF, 0x0, 0x0, 0x0, []⟩, -- RSG_SLEW R78
  ⟨0x02040054, 1, 0x4, 1, 0x4, 0x640004, 0xFFFF00FF, 0x0, 0x0, 0x0, []⟩, -- RSG_LOCK R94
  ⟨0x02040080, 6, 0x10, 1, 0x4, 0x9C404E2, 0xFFFFFFFF, 0x0, 0x0, 0x0, [(4, 0x30D430D4)]⟩, -- RSG_TYPE_LIM R85
  ⟨0x02040084, 6, 0x10, 1, 0x4, 0x6400C8, 0xFFFFFFFF, 0x0, 0x0, 0x0, [(4, 0xC80000)]⟩, -- RSG_TYPE_QUAL R86
  ⟨0x02040088, 6, 0x10, 1, 0x4, 0x32, 0x1FFFF, 0x0, 0x0, 0x0, [(1, 0x2710), (2, 0x1388), (3, 0x1388), (4, 0x4E20), (5, 0xA)]⟩, -- RSG_TYPE_BW R93
  ⟨0x02040100, 19, 0x4, 1, 0x4, 0x0, 0x0, 0x8, 0x0, 0x0, []⟩, -- RSG_CAND_STAT R90
  ⟨0x02040180, 19, 0x4, 1, 0x4, 0x0, 0x0, 0x0, 0x0, 0x0, []⟩, -- RSG_CAND_OFFS R85
  ⟨0x02040200, 3, 0x4, 1, 0x4, 0x0, 0xFFFFFFFF, 0x0, 0x0, 0x0, []⟩, -- RSG_TEMP_C R99
  ⟨0x0204020C, 1, 0x4, 1, 0x4, 0x0, 0xFFFFFFFF, 0x0, 0x0, 0x0, []⟩, -- RSG_AGE_A R98
  ⟨0x02040210, 1, 0x4, 1, 0x4, 0x0, 0xFFFFFFFF, 0x0, 0x0, 0x0, []⟩, -- RSG_AGE_B R98
  ⟨0x02040214, 1, 0x4, 1, 0x4, 0x0, 0xFFFFFFFF, 0x0, 0x0, 0x0, []⟩, -- RSG_AGE_EPOCH R98
  ⟨0x02040218, 1, 0x4, 1, 0x4, 0x0, 0xFFFF, 0x0, 0x0, 0x0, []⟩, -- RSG_TEMP_EXT R100
  ⟨0x0204021C, 1, 0x4, 1, 0x4, 0x0, 0x0, 0x0, 0x0, 0x0, []⟩, -- RSG_TEMP_NOW R100
  ⟨0x02040220, 4, 0x4, 1, 0x4, 0x0, 0xFFFFFFFF, 0x0, 0x0, 0x0, []⟩, -- RSG_MED_NOM R79
  ⟨0x02040230, 1, 0x4, 1, 0x4, 0x0, 0xFF, 0x0, 0x0, 0x0, []⟩ -- RSG_BUFLEVEL_SRC R79
]

/-- Rows of block TSU. -/
def tsuRows : List RegRow := [
  ⟨0x02050000, 1, 0x4, 1, 0x4, 0x0, 0x0, 0xFF, 0x0, 0x0, []⟩, -- TSU_STATUS
  ⟨0x02050010, 1, 0x4, 1, 0x4, 0x0, 0xFFFFFFFF, 0x0, 0x0, 0x0, []⟩, -- TSU_TOD_NS R111
  ⟨0x02050014, 1, 0x4, 1, 0x4, 0x0, 0xFFFFFFFF, 0x0, 0x0, 0x0, []⟩, -- TSU_TOD_SEC_LO R111
  ⟨0x02050018, 1, 0x4, 1, 0x4, 0x0, 0xFFFF, 0x0, 0x0, 0x0, []⟩, -- TSU_TOD_SEC_HI R111
  ⟨0x0205001C, 1, 0x4, 1, 0x4, 0x0, 0x0, 0x1, 0x0, 0x0, []⟩, -- TSU_TOD_STAT R56
  ⟨0x02050020, 1, 0x4, 1, 0x4, 0x0, 0xFFFFFFFF, 0x0, 0x0, 0x0, []⟩, -- TSU_TOD_FREQ R112
  ⟨0x02050030, 1, 0x4, 1, 0x4, 0x0, 0xFFFFFFFF, 0x0, 0x0, 0x0, []⟩, -- TSU_RALLY_LO R123
  ⟨0x02050034, 1, 0x4, 1, 0x4, 0x0, 0xFFFF, 0x0, 0x0, 0x0, []⟩, -- TSU_RALLY_HI R123
  ⟨0x02050038, 1, 0x4, 1, 0x4, 0x0, 0x0, 0x1, 0x0, 0x0, []⟩, -- TSU_RALLY_STAT R56
  ⟨0x02050040, 1, 0x4, 1, 0x4, 0x4, 0xFF, 0x0, 0x0, 0x0, []⟩, -- TSU_RALLY_CFG R124
  ⟨0x02050044, 1, 0x4, 1, 0x4, 0x0, 0x0, 0x0, 0x0, 0x0, []⟩, -- TSU_RALLY_JUMP R126
  ⟨0x02050048, 1, 0x4, 1, 0x4, 0x0, 0x0, 0x0, 0x0, 0x0, []⟩, -- TSU_RALLY_ERR R125
  ⟨0x02050050, 1, 0x4, 1, 0x4, 0x0, 0x0, 0x0, 0x0, 0x0, []⟩, -- TSU_RALLY_OFFSET_LO R135
  ⟨0x02050054, 1, 0x4, 1, 0x4, 0x0, 0x0, 0x0, 0x0, 0x0, []⟩, -- TSU_RALLY_OFFSET_HI R135
  ⟨0x02050060, 1, 0x4, 1, 0x4, 0x0, 0xFFFFFFFF, 0x0, 0x0, 0x0, []⟩, -- TSU_CLKID_LO R107
  ⟨0x02050064, 1, 0x4, 1, 0x4, 0x0, 0xFFFFFFFF, 0x0, 0x0, 0x0, []⟩, -- TSU_CLKID_HI R107
  ⟨0x02050068, 1, 0x4, 1, 0x4, 0x20001, 0xFFFFFFFF, 0x0, 0x0, 0x0, []⟩, -- TSU_PORTNUM R107
  ⟨0x02050080, 1, 0x4, 1, 0x4, 0x3C6404, 0xFFFFF3F, 0x0, 0x0, 0x40, []⟩, -- TSU_DEUCE_CTRL R117
  ⟨0x02050084, 1, 0x4, 1, 0x4, 0x0, 0x0, 0x0, 0x0, 0x0, []⟩, -- TSU_DEUCE_STAT R117
  ⟨0x02050088, 1, 0x4, 1, 0x4, 0x0, 0x0, 0x0, 0x0, 0x0, []⟩, -- TSU_DEUCE_OFFSET_LO R135
  ⟨0x0205008C, 1, 0x4, 1, 0x4, 0x0, 0x0, 0x0, 0x0, 0x0, []⟩, -- TSU_DEUCE_OFFSET_HI R135
  ⟨0x02050090, 1, 0x4, 1, 0x4, 0x0, 0x0, 0x0, 0xFFFFFFFF, 0x0, []⟩, -- TSU_DEUCE_SWITCHES R118
  ⟨0x02050100, 2, 0x80, 1, 0x4, 0xDD0000, 0xFF7F0F, 0x0, 0x0, 0x0, [(1, 0xDD0002)]⟩, -- TSU_SRV_CFG R113
  ⟨0x02050104, 2, 0x80, 1, 0x4, 0x6400FA, 0xFFFFFFFF, 0x0, 0x0, 0x0, []⟩, -- TSU_SRV_LOOP R114
  ⟨0x02050108, 2, 0x80, 1, 0x4, 0x41003E8, 0xFFFFFFFF, 0x0, 0x0, 0x0, []⟩, -- TSU_SRV_LOCK R113
  ⟨0x0205010C, 2, 0x80, 1, 0x4, 0xC82710, 0xFFFFFFFF, 0x0, 0x0, 0x0, []⟩, -- TSU_SRV_FILT R113
  ⟨0x02050110, 2, 0x80, 1, 0x4, 0x0, 0xFFFFFFFF, 0x0, 0x0, 0x0, []⟩, -- TSU_SRV_PARENT_LO R113
  ⟨0x02050114, 2, 0x80, 1, 0x4, 0x0, 0xFFFFFFFF, 0x0, 0x0, 0x0, []⟩, -- TSU_SRV_PARENT_MID R113
  ⟨0x02050118, 2, 0x80, 1, 0x4, 0x0, 0xFFFF, 0x0, 0x0, 0x0, []⟩, -- TSU_SRV_PARENT_HI R113
  ⟨0x0205011C, 2, 0x80, 1, 0x4, 0x0, 0xFFFF, 0x0, 0x0, 0x0, []⟩, -- TSU_SRV_VLAN R106
  ⟨0x02050120, 2, 0x80, 1, 0x4, 0x0, 0x0, 0x0, 0x0, 0x0, []⟩, -- TSU_SRV_STATE R113
  ⟨0x02050124, 2, 0x80, 1, 0x4, 0x0, 0x0, 0x0, 0x0, 0x0, []⟩, -- TSU_SRV_OFFS_LO R135
  ⟨0x02050128, 2, 0x80, 1, 0x4, 0x0, 0x0, 0x0, 0x0, 0x0, []⟩, -- TSU_SRV_OFFS_HI R135
  ⟨0x0205012C, 2, 0x80, 1, 0x4, 0x0, 0x0, 0x0, 0x0, 0x0, []⟩, -- TSU_SRV_FREQ R114
  ⟨0x02050130, 2, 0x80, 1, 0x4, 0x0, 0x0, 0x0, 0x0, 0x0, []⟩, -- TSU_SRV_MPD R109
  ⟨0x02050134, 2, 0x80, 1, 0x4, 0x0, 0x0, 0x0, 0xFFFFFFFF, 0x0, []⟩, -- TSU_SRV_OUTLIERS R109
  ⟨0x02050200, 2, 0x10, 1, 0x4, 0x9400D40, 0xFFFFFFFF, 0x0, 0x0, 0x0, []⟩, -- TSU_MAC_LAT R106
  ⟨0x02050204, 2, 0x10, 1, 0x4, 0x0, 0xFFFFFFFF, 0x0, 0x0, 0x0, []⟩, -- TSU_MAC_ASYM R109
  ⟨0x02050300, 16, 0x20, 1, 0x4, 0x0, 0xFFFF7F7C, 0x0, 0x0, 0x1, []⟩, -- TSU_TTRIG_CTRL R128
  ⟨0x02050304, 16, 0x20, 1, 0x4, 0x0, 0xFFFFFFFF, 0x0, 0x0, 0x0, []⟩, -- TSU_TTRIG_KEY_LO R128
  ⟨0x02050308, 16, 0x20, 1, 0x4, 0x0, 0xFFFFFFFF, 0x0, 0x0, 0x0, []⟩, -- TSU_TTRIG_KEY_MID R128
  ⟨0x0205030C, 16, 0x20, 1, 0x4, 0x0, 0xFFFF, 0x0, 0x0, 0x0, []⟩, -- TSU_TTRIG_KEY_HI R128
  ⟨0x02050310, 16, 0x20, 1, 0x4, 0x0, 0xFFFFFFFF, 0x0, 0x0, 0x0, []⟩, -- TSU_TTRIG_PERIOD R131
  ⟨0x02050314, 16, 0x20, 1, 0x4, 0x0, 0x0, 0x7, 0xFFFF0000, 0x0, []⟩, -- TSU_TTRIG_STAT R131
  ⟨0x02050600, 8, 0x20, 1, 0x4, 0x0, 0xF, 0x0, 0x0, 0x0, []⟩, -- TSU_TCAP_CTRL R133
  ⟨0x02050604, 8, 0x20, 1, 0x4, 0x0, 0x0, 0x0, 0x0, 0x0, []⟩, -- TSU_TCAP_NS R134
  ⟨0x02050608, 8, 0x20, 1, 0x4, 0x0, 0x0, 0x0, 0x0, 0x0, []⟩, -- TSU_TCAP_SEC_LO R134
  ⟨0x0205060C, 8, 0x20, 1, 0x4, 0x0, 0x0, 0x0, 0x0, 0x0, []⟩, -- TSU_TCAP_SEC_HI R134
  ⟨0x02050610, 8, 0x20, 1, 0x4, 0x0, 0x0, 0x0, 0x0, 0x0, []⟩, -- TSU_TCAP_RALLY_LO R134
  ⟨0x02050614, 8, 0x20, 1, 0x4, 0x0, 0x0, 0x0, 0x0, 0x0, []⟩, -- TSU_TCAP_RALLY_HI R134
  ⟨0x02050618, 8, 0x20, 1, 0x4, 0x0, 0x0, 0x8, 0xFFFF0000, 0x0, []⟩ -- TSU_TCAP_STAT R133
]

/-- Rows of block SAP. -/
def sapRows : List RegRow := [
  ⟨0x02060000, 1, 0x4, 1, 0x4, 0x0, 0xF, 0x0, 0x0, 0x0, []⟩, -- SAP_GLOBAL R540
  ⟨0x02060004, 1, 0x4, 1, 0x4, 0x0, 0x7777, 0x0, 0x0, 0x0, []⟩, -- SAP_MCLKO
  ⟨0x02061000, 16, 0x400, 1, 0x4, 0x80000, 0xFF3F077F, 0x0, 0x0, 0x0, []⟩, -- SAP_CTRL R142
  ⟨0x02061004, 16, 0x400, 1, 0x4, 0x62D04, 0xFFFFF, 0x0, 0x0, 0x0, []⟩, -- SAP_FMT R142
  ⟨0x02061008, 16, 0x400, 1, 0x4, 0x0, 0x3FF, 0x0, 0x0, 0x0, []⟩, -- SAP_TURN R25
  ⟨0x0206100C, 16, 0x400, 1, 0x4, 0x0, 0x0, 0xC, 0x0, 0x0, []⟩, -- SAP_STAT R158
  ⟨0x02061010, 16, 0x400, 1, 0x4, 0x0, 0x0, 0x0, 0xFFFFFFFF, 0x0, []⟩, -- SAP_SLIPS R157
  ⟨0x02061014, 16, 0x400, 1, 0x4, 0x0, 0x0, 0x0, 0x0, 0x0, []⟩, -- SAP_MEAS R158
  ⟨0x02061018, 16, 0x400, 1, 0x4, 0x0, 0x0, 0x0, 0x0, 0x0, []⟩, -- SAP_FILL R161
  ⟨0x02061020, 16, 0x400, 1, 0x4, 0x0, 0x7FFFF8, 0x0, 0x0, 0x0, []⟩, -- SAP_DIN_BASE R164
  ⟨0x02061024, 16, 0x400, 1, 0x4, 0xF2000, 0xFFFFF, 0x0, 0x0, 0x0, []⟩, -- SAP_DIN_CFG R164
  ⟨0x02061028, 16, 0x400, 1, 0x4, 0x0, 0x0, 0x0, 0x0, 0x0, []⟩, -- SAP_DIN_POS R165
  ⟨0x02061030, 16, 0x400, 1, 0x4, 0x0, 0x7FFFF8, 0x0, 0x0, 0x0, []⟩, -- SAP_DOUT_BASE R164
  ⟨0x02061034, 16, 0x400, 1, 0x4, 0xF2000, 0xFFFFF, 0x0, 0x0, 0x0, []⟩, -- SAP_DOUT_CFG R164
  ⟨0x02061100, 16, 0x400, 32, 0x4, 0x0, 0x3FFFF3, 0x0, 0x0, 0x0, []⟩, -- SAP_IMAP R145
  ⟨0x02061200, 16, 0x400, 32, 0x4, 0xFF000000, 0xFF3FFFF3, 0x0, 0x0, 0x0, []⟩ -- SAP_OMAP R145
]

/-- Rows of block AESM. -/
def aesmRows : List RegRow := [
  ⟨0x02071000, 8, 0x100, 1, 0x4, 0x80000, 0xFF3F077F, 0x0, 0x0, 0x0, []⟩, -- AES_RX_CTRL R148
  ⟨0x02071004, 8, 0x100, 1, 0x4, 0x0, 0xCFFF0FFF, 0x0, 0x0, 0x0, []⟩, -- AES_RX_TAGS R149
  ⟨0x02071008, 8, 0x100, 1, 0x4, 0x0, 0x0, 0xEC, 0x0, 0x0, []⟩, -- AES_RX_STAT R150
  ⟨0x0207100C, 8, 0x100, 1, 0x4, 0x0, 0x0, 0x0, 0xFFFFFFFF, 0x0, []⟩, -- AES_RX_ERRS R149
  ⟨0x02071010, 8, 0x100, 1, 0x4, 0x0, 0x0, 0x0, 0xFFFFFFFF, 0x0, []⟩, -- AES_RX_SLIPS R157
  ⟨0x02071014, 8, 0x100, 1, 0x4, 0x0, 0x0, 0x0, 0x0, 0x0, []⟩, -- AES_RX_MEAS R158
  ⟨0x02071018, 8, 0x100, 1, 0x4, 0x0, 0x0, 0x0, 0x0, 0x0, []⟩, -- AES_RX_FILL R161
  ⟨0x02071020, 8, 0x100, 1, 0x4, 0x0, 0x7FFFF8, 0x0, 0x0, 0x0, []⟩, -- AES_RX_DIN_BASE R164
  ⟨0x02071024, 8, 0x100, 1, 0x4, 0xF2000, 0xFFFFF, 0x0, 0x0, 0x0, []⟩, -- AES_RX_DIN_CFG R164
  ⟨0x02071028, 8, 0x100, 1, 0x4, 0x0, 0x0, 0x0, 0x0, 0x0, []⟩, -- AES_RX_DIN_POS R165
  ⟨0x02071040, 8, 0x100, 6, 0x4, 0x0, 0x0, 0x0, 0x0, 0x0, []⟩, -- AES_RX_CS_A R150
  ⟨0x02071058, 8, 0x100, 6, 0x4, 0x0, 0x0, 0x0, 0x0, 0x0, []⟩, -- AES_RX_CS_B R150
  ⟨0x02071070, 8, 0x100, 6, 0x4, 0x0, 0x0, 0x0, 0x0, 0x0, []⟩, -- AES_RX_U_A R150
  ⟨0x02071088, 8, 0x100, 6, 0x4, 0x0, 0x0, 0x0, 0x0, 0x0, []⟩, -- AES_RX_U_B R150
  ⟨0x02072000, 8, 0x100, 1, 0x4, 0x0, 0xFFFF075F, 0x0, 0x0, 0x20, []⟩, -- AES_TX_CTRL R152
  ⟨0x02072004, 8, 0x100, 1, 0x4, 0x0, 0xCFFF0FFF, 0x0, 0x0, 0x0, []⟩, -- AES_TX_TAGS R151
  ⟨0x02072008, 8, 0x100, 1, 0x4, 0x0, 0x0, 0xC, 0x0, 0x0, []⟩, -- AES_TX_STAT R158
  ⟨0x0207200C, 8, 0x100, 1, 0x4, 0xFF, 0xFF, 0x0, 0x0, 0x0, []⟩, -- AES_TX_OWN R30
  ⟨0x02072030, 8, 0x100, 1, 0x4, 0x0, 0x7FFFF8, 0x0, 0x0, 0x0, []⟩, -- AES_TX_DOUT_BASE R164
  ⟨0x02072034, 8, 0x100, 1, 0x4, 0xF2000, 0xFFFFF, 0x0, 0x0, 0x0, []⟩, -- AES_TX_DOUT_CFG R164
  ⟨0x02072040, 8, 0x100, 6, 0x4, 0x0, 0xFFFFFFFF, 0x0, 0x0, 0x0, []⟩, -- AES_TX_CS R152
  ⟨0x02074000, 2, 0x400, 1, 0x4, 0x80000, 0xFF3F377F, 0x0, 0x0, 0x80, []⟩, -- MADI_CTRL R153
  ⟨0x02074004, 2, 0x400, 1, 0x4, 0x0, 0xCFFFCFFF, 0x0, 0x0, 0x0, []⟩, -- MADI_TAGS R155
  ⟨0x02074008, 2, 0x400, 1, 0x4, 0x0, 0x0, 0xEC, 0x0, 0x0, []⟩, -- MADI_STAT R154
  ⟨0x0207400C, 2, 0x400, 1, 0x4, 0x0, 0x0, 0x0, 0xFFFFFFFF, 0x0, []⟩, -- MADI_ERRS R155
  ⟨0x02074010, 2, 0x400, 1, 0x4, 0x0, 0x0, 0x0, 0xFFFFFFFF, 0x0, []⟩, -- MADI_SLIPS R157
  ⟨0x02074014, 2, 0x400, 1, 0x4, 0x0, 0x0, 0x0, 0x0, 0x0, []⟩, -- MADI_MEAS R158
  ⟨0x02074018, 2, 0x400, 1, 0x4, 0x0, 0x0, 0x0, 0x0, 0x0, []⟩, -- MADI_FILL R161
  ⟨0x0207401C, 2, 0x400, 1, 0x4, 0xFF, 0x3FFF, 0x0, 0x0, 0x0, []⟩, -- MADI_OWN R30
  ⟨0x02074020, 2, 0x400, 1, 0x4, 0x0, 0x7FFFF8, 0x0, 0x0, 0x0, []⟩, -- MADI_DIN_BASE R164
  ⟨0x02074024, 2, 0x400, 1, 0x4, 0xF2000, 0xFFFFF, 0x0, 0x0, 0x0, []⟩, -- MADI_DIN_CFG R164
  ⟨0x02074028, 2, 0x400, 1, 0x4, 0x0, 0x0, 0x0, 0x0, 0x0, []⟩, -- MADI_DIN_POS R165
  ⟨0x02074030, 2, 0x400, 1, 0x4, 0x0, 0x7FFFF8, 0x0, 0x0, 0x0, []⟩, -- MADI_DOUT_BASE R164
  ⟨0x02074034, 2, 0x400, 1, 0x4, 0xF2000, 0xFFFFF, 0x0, 0x0, 0x0, []⟩, -- MADI_DOUT_CFG R164
  ⟨0x02074038, 2, 0x400, 1, 0x4, 0x0, 0xFF, 0x0, 0x0, 0x0, []⟩, -- MADI_TX_PHASE R156
  ⟨0x02074040, 2, 0x400, 6, 0x4, 0x0, 0x0, 0x0, 0x0, 0x0, []⟩, -- MADI_RX_CS R155
  ⟨0x02074060, 2, 0x400, 6, 0x4, 0x0, 0xFFFFFFFF, 0x0, 0x0, 0x0, []⟩ -- MADI_TX_CS R156
]

/-- Rows of block ASRC. -/
def asrcRows : List RegRow := [
  ⟨0x02081000, 128, 0x4, 1, 0x4, 0x0, 0x3FFF, 0x0, 0x0, 0x0, []⟩, -- ASRC_ALLOC R162
  ⟨0x02081400, 128, 0x4, 1, 0x4, 0x0, 0x0, 0x0, 0x0, 0x0, []⟩, -- ASRC_RATIO R163
  ⟨0x02081600, 4, 0x4, 1, 0x4, 0x0, 0x0, 0x0, 0x0, 0x0, []⟩, -- ASRC_LOCK R163
  ⟨0x02081610, 1, 0x4, 1, 0x4, 0x0, 0x0, 0x1, 0x0, 0x0, []⟩ -- ASRC_STAT R163
]

/-- Rows of block NET. -/
def netRows : List RegRow := [
  ⟨0x02090000, 2, 0x100, 1, 0x4, 0x0, 0x1F, 0x0, 0x0, 0x0, []⟩, -- NET_MAC_CTRL R168
  ⟨0x02090004, 2, 0x100, 1, 0x4, 0x0, 0x0, 0xE, 0x0, 0x0, []⟩, -- NET_MAC_STAT R168
  ⟨0x02090008, 2, 0x100, 1, 0x4, 0x0, 0xFFFFFFFF, 0x0, 0x0, 0x0, []⟩, -- NET_MAC_ADDR_LO R192
  ⟨0x0209000C, 2, 0x100, 1, 0x4, 0x0, 0xFFFF, 0x0, 0x0, 0x0, []⟩, -- NET_MAC_ADDR_HI R192
  ⟨0x02090010, 2, 0x100, 1, 0x4, 0x0, 0xFFFFFFFF, 0x0, 0x0, 0x0, []⟩, -- NET_MAC_IP R192
  ⟨0x02090014, 2, 0x100, 2, 0x4, 0x0, 0xFFFFFFFF, 0x0, 0x0, 0x0, []⟩, -- NET_MAC_MC_HASH R170
  ⟨0x02090020, 2, 0x100, 1, 0x4, 0x0, 0x0, 0x0, 0xFFFFFFFF, 0x0, []⟩, -- NET_MAC_RX_FRAMES R170
  ⟨0x02090024, 2, 0x100, 1, 0x4, 0x0, 0x0, 0x0, 0xFFFFFFFF, 0x0, []⟩, -- NET_MAC_RX_BAD R170
  ⟨0x02090028, 2, 0x100, 1, 0x4, 0x0, 0x0, 0x0, 0xFFFFFFFF, 0x0, []⟩, -- NET_MAC_RX_UNMATCHED R170
  ⟨0x0209002C, 2, 0x100, 1, 0x4, 0x0, 0x0, 0x0, 0xFFFFFFFF, 0x0, []⟩, -- NET_MAC_TX_FRAMES R188
  ⟨0x02090030, 2, 0x100, 1, 0x4, 0x0, 0x0, 0x0, 0xFFFFFFFF, 0x0, []⟩, -- NET_MAC_TX_DROPS R188
  ⟨0x02090400, 1, 0x4, 1, 0x4, 0x0, 0x7FFFF8, 0x0, 0x0, 0x0, []⟩, -- NET_HRX_BASE R190
  ⟨0x02090404, 1, 0x4, 1, 0x4, 0x4, 0xF, 0x0, 0x0, 0x0, []⟩, -- NET_HRX_CFG R190
  ⟨0x02090408, 1, 0x4, 1, 0x4, 0x0, 0x0, 0x0, 0x0, 0x0, []⟩, -- NET_HRX_HEAD R190
  ⟨0x0209040C, 1, 0x4, 1, 0x4, 0x0, 0x3FF, 0x0, 0x0, 0x0, []⟩, -- NET_HRX_TAIL R190
  ⟨0x02090410, 1, 0x4, 1, 0x4, 0x0, 0x7FFFF8, 0x0, 0x0, 0x0, []⟩, -- NET_HTX_BASE R191
  ⟨0x02090414, 1, 0x4, 1, 0x4, 0x4, 0xF, 0x0, 0x0, 0x0, []⟩, -- NET_HTX_CFG R191
  ⟨0x02090418, 1, 0x4, 1, 0x4, 0x0, 0x3FF, 0x0, 0x0, 0x0, []⟩, -- NET_HTX_HEAD R191
  ⟨0x0209041C, 1, 0x4, 1, 0x4, 0x0, 0x0, 0x0, 0x0, 0x0, []⟩, -- NET_HTX_TAIL R191
  ⟨0x02091000, 64, 0x40, 1, 0x4, 0x10, 0xFFF1FFF, 0x0, 0x0, 0x0, []⟩, -- NET_RXS_CTRL R173
  ⟨0x02091004, 64, 0x40, 1, 0x4, 0x600030, 0x7F0FFF, 0x0, 0x0, 0x0, []⟩, -- NET_RXS_TIMING R178
  ⟨0x02091008, 64, 0x40, 1, 0x4, 0x0, 0xFFFFFFFF, 0x0, 0x0, 0x0, []⟩, -- NET_RXS_RTP_OFFSET R176
  ⟨0x0209100C, 64, 0x40, 1, 0x4, 0x0, 0xFFFFFFFF, 0x0, 0x0, 0x0, []⟩, -- NET_RXS_SSRC R180
  ⟨0x02091010, 64, 0x40, 1, 0x4, 0x0, 0x7FFFF8, 0x0, 0x0, 0x0, []⟩, -- NET_RXS_BUF_BASE R177
  ⟨0x02091014, 64, 0x40, 1, 0x4, 0xF0010, 0xF001E, 0x0, 0x0, 0x0, []⟩, -- NET_RXS_BUF_CFG R177
  ⟨0x02091018, 64, 0x40, 1, 0x4, 0x0, 0x0, 0x0, 0x0, 0x0, []⟩, -- NET_RXS_POS R178
  ⟨0x0209101C, 64, 0x40, 1, 0x4, 0x0, 0x0, 0x0, 0x0, 0x0, []⟩, -- NET_RXS_FILL R182
  ⟨0x02091020, 64, 0x40, 1, 0x4, 0x0, 0xFFFFFFFF, 0x0, 0x0, 0x0, []⟩, -- NET_RXS_LEG0_IP R170
  ⟨0x02091024, 64, 0x40, 1, 0x4, 0x138C, 0x3FFFFFFF, 0x0, 0x0, 0x0, []⟩, -- NET_RXS_LEG0_CFG R170
  ⟨0x02091028, 64, 0x40, 1, 0x4, 0x0, 0xFFFFFFFF, 0x0, 0x0, 0x0, []⟩, -- NET_RXS_LEG0_SRC R170
  ⟨0x02091030, 64, 0x40, 1, 0x4, 0x0, 0xFFFFFFFF, 0x0, 0x0, 0x0, []⟩, -- NET_RXS_LEG1_IP R170
  ⟨0x02091034, 64, 0x40, 1, 0x4, 0x2000138C, 0x3FFFFFFF, 0x0, 0x0, 0x0, []⟩, -- NET_RXS_LEG1_CFG R170
  ⟨0x02091038, 64, 0x40, 1, 0x4, 0x0, 0xFFFFFFFF, 0x0, 0x0, 0x0, []⟩, -- NET_RXS_LEG1_SRC R170
  ⟨0x02092000, 64, 0x40, 1, 0x4, 0x0, 0x0, 0xF, 0x0, 0x0, []⟩, -- NET_RXS_STAT R179
  ⟨0x02092004, 64, 0x40, 1, 0x4, 0x0, 0x0, 0x0, 0xFFFFFFFF, 0x0, []⟩, -- NET_RXS_PKTS0 R184
  ⟨0x02092008, 64, 0x40, 1, 0x4, 0x0, 0x0, 0x0, 0xFFFFFFFF, 0x0, []⟩, -- NET_RXS_PKTS1 R184
  ⟨0x0209200C, 64, 0x40, 1, 0x4, 0x0, 0x0, 0x0, 0xFFFFFFFF, 0x0, []⟩, -- NET_RXS_LOST0 R184
  ⟨0x02092010, 64, 0x40, 1, 0x4, 0x0, 0x0, 0x0, 0xFFFFFFFF, 0x0, []⟩, -- NET_RXS_LOST1 R184
  ⟨0x02092014, 64, 0x40, 1, 0x4, 0x0, 0x0, 0x0, 0xFFFFFFFF, 0x0, []⟩, -- NET_RXS_DUPS R183
  ⟨0x02092018, 64, 0x40, 1, 0x4, 0x0, 0x0, 0x0, 0xFFFFFFFF, 0x0, []⟩, -- NET_RXS_LATE R179
  ⟨0x0209201C, 64, 0x40, 1, 0x4, 0x0, 0x0, 0x0, 0xFFFFFFFF, 0x0, []⟩, -- NET_RXS_EARLY R179
  ⟨0x02092020, 64, 0x40, 1, 0x4, 0x0, 0x0, 0x0, 0xFFFFFFFF, 0x0, []⟩, -- NET_RXS_SUBST R178
  ⟨0x02092024, 64, 0x40, 1, 0x4, 0x0, 0x0, 0x0, 0xFFFFFFFF, 0x0, []⟩, -- NET_RXS_BAD R180
  ⟨0x02092028, 64, 0x40, 1, 0x4, 0x0, 0x0, 0x0, 0xFFFFFFFF, 0x0, []⟩, -- NET_RXS_SLIPS R182
  ⟨0x02093000, 64, 0x40, 1, 0x4, 0x10, 0xFFF0FF7, 0x0, 0x0, 0x0, []⟩, -- NET_TXS_CTRL R173
  ⟨0x02093004, 64, 0x40, 1, 0x4, 0x222060, 0xFF3FFF7F, 0x0, 0x0, 0x0, []⟩, -- NET_TXS_HDR R187
  ⟨0x02093008, 64, 0x40, 1, 0x4, 0xFF, 0xFF, 0x0, 0x0, 0x0, []⟩, -- NET_TXS_OWN R30
  ⟨0x0209300C, 64, 0x40, 1, 0x4, 0x0, 0xFFFFFFFF, 0x0, 0x0, 0x0, []⟩, -- NET_TXS_RTP_OFFSET R187
  ⟨0x02093010, 64, 0x40, 1, 0x4, 0x0, 0xFFFFFFFF, 0x0, 0x0, 0x0, []⟩, -- NET_TXS_SSRC R187
  ⟨0x02093014, 64, 0x40, 1, 0x4, 0x0, 0xFFFF, 0x0, 0x0, 0x0, []⟩, -- NET_TXS_SEQ R187
  ⟨0x02093018, 64, 0x40, 1, 0x4, 0x0, 0x7FFFF8, 0x0, 0x0, 0x0, []⟩, -- NET_TXS_BUF_BASE R186
  ⟨0x0209301C, 64, 0x40, 1, 0x4, 0xF0010, 0xF001E, 0x0, 0x0, 0x0, []⟩, -- NET_TXS_BUF_CFG R186
  ⟨0x02093020, 64, 0x40, 1, 0x4, 0x0, 0xFFFFFFFF, 0x0, 0x0, 0x0, []⟩, -- NET_TXS_LEG0_IP R188
  ⟨0x02093024, 64, 0x40, 1, 0x4, 0x138C, 0x3FFFFFFF, 0x0, 0x0, 0x0, []⟩, -- NET_TXS_LEG0_CFG R188
  ⟨0x02093028, 64, 0x40, 1, 0x4, 0x0, 0xFFFFFFFF, 0x0, 0x0, 0x0, []⟩, -- NET_TXS_LEG0_DMAC_LO R188
  ⟨0x0209302C, 64, 0x40, 1, 0x4, 0x0, 0x7FFFF, 0x0, 0x0, 0x0, []⟩, -- NET_TXS_LEG0_DMAC_HI R188
  ⟨0x02093030, 64, 0x40, 1, 0x4, 0x0, 0xFFFFFFFF, 0x0, 0x0, 0x0, []⟩, -- NET_TXS_LEG1_IP R188
  ⟨0x02093034, 64, 0x40, 1, 0x4, 0x2000138C, 0x3FFFFFFF, 0x0, 0x0, 0x0, []⟩, -- NET_TXS_LEG1_CFG R188
  ⟨0x02093038, 64, 0x40, 1, 0x4, 0x0, 0xFFFFFFFF, 0x0, 0x0, 0x0, []⟩, -- NET_TXS_LEG1_DMAC_LO R188
  ⟨0x0209303C, 64, 0x40, 1, 0x4, 0x0, 0x7FFFF, 0x0, 0x0, 0x0, []⟩, -- NET_TXS_LEG1_DMAC_HI R188
  ⟨0x02094000, 64, 0x10, 1, 0x4, 0x0, 0x0, 0x6, 0x0, 0x0, []⟩, -- NET_TXS_STAT R188
  ⟨0x02094004, 64, 0x10, 1, 0x4, 0x0, 0x0, 0x0, 0xFFFFFFFF, 0x0, []⟩, -- NET_TXS_PKTS R188
  ⟨0x02094008, 64, 0x10, 1, 0x4, 0x0, 0x0, 0x0, 0xFFFFFFFF, 0x0, []⟩, -- NET_TXS_LATE R185
  ⟨0x0209400C, 64, 0x10, 1, 0x4, 0x0, 0x0, 0x0, 0xFFFFFFFF, 0x0, []⟩ -- NET_TXS_DROPS R188
]

/-- Rows of block CHIM. -/
def chimRows : List RegRow := [
  ⟨0x020A0000, 1, 0x4, 1, 0x4, 0x8000, 0x73FFF37, 0x0, 0x0, 0x0, []⟩, -- CHM_CTRL R431
  ⟨0x020A0004, 1, 0x4, 1, 0x4, 0x0, 0x3F, 0x0, 0x0, 0x0, []⟩, -- CHM_ID R410
  ⟨0x020A0008, 1, 0x4, 1, 0x4, 0x0, 0x0, 0xFF00, 0x0, 0x0, []⟩, -- CHM_STAT R410
  ⟨0x020A000C, 1, 0x4, 1, 0x4, 0x4, 0xF, 0x0, 0x0, 0x0, []⟩, -- CHM_LET_CFG R423
  ⟨0x020A0010, 1, 0x4, 1, 0x4, 0x0, 0x0, 0x0, 0x0, 0x0, []⟩, -- CHM_LEAD_SER_LO R410
  ⟨0x020A0014, 1, 0x4, 1, 0x4, 0x0, 0x0, 0x0, 0x0, 0x0, []⟩, -- CHM_LEAD_SER_HI R410
  ⟨0x020A0018, 1, 0x4, 1, 0x4, 0x1000004, 0xFFFF00FF, 0x0, 0x0, 0x0, []⟩, -- CHM_RALLY_CFG R414
  ⟨0x020A001C, 1, 0x4, 1, 0x4, 0x0, 0x0, 0x0, 0x0, 0x0, []⟩, -- CHM_RALLY_ERR R412
  ⟨0x020A0020, 1, 0x4, 1, 0x4, 0x0, 0x0, 0x0, 0x0, 0x0, []⟩, -- CHM_REALIGN R412
  ⟨0x020A0024, 1, 0x4, 1, 0x4, 0x3E81770, 0xFFFFFFFF, 0x0, 0x0, 0x0, []⟩, -- CHM_TRIM R413
  ⟨0x020A0028, 1, 0x4, 1, 0x4, 0x0, 0x0, 0x0, 0x0, 0x0, []⟩, -- CHM_TRIM_NOW R413
  ⟨0x020A0030, 1, 0x4, 1, 0x4, 0x32, 0xFFFF, 0x0, 0x0, 0x0, []⟩, -- CHM_RT_TIMEOUT R427
  ⟨0x020A0034, 1, 0x4, 1, 0x4, 0x0, 0x0, 0x0, 0xFFFFFFFF, 0x0, []⟩, -- CHM_LATE_CPL R428
  ⟨0x020A0038, 1, 0x4, 1, 0x4, 0x0, 0x0, 0x0, 0x0, 0x0, []⟩, -- CHM_RA_STAT R428
  ⟨0x020A0040, 1, 0x4, 1, 0x4, 0x0, 0x13F, 0x0, 0x0, 0x0, []⟩, -- CHM_RA_TGT R425
  ⟨0x020A0044, 1, 0x4, 1, 0x4, 0x0, 0xFFFFFFFF, 0x0, 0x0, 0x0, []⟩, -- CHM_RA_ADDR R425
  ⟨0x020A0048, 1, 0x4, 1, 0x4, 0x0, 0x0, 0x0, 0x0, 0x0, []⟩, -- CHM_RA_WDATA R425
  ⟨0x020A004C, 1, 0x4, 1, 0x4, 0x0, 0x0, 0x0, 0x0, 0x0, []⟩, -- CHM_RA_RDATA R425
  ⟨0x020A0050, 2, 0x4, 1, 0x4, 0x0, 0xFFFFFFFF, 0x0, 0x0, 0x0, []⟩, -- CHM_RA_ALLOW R426
  ⟨0x020A0060, 1, 0x4, 1, 0x4, 0x0, 0x7C0000, 0x0, 0x0, 0x0, []⟩, -- CHM_MAP_BASE R421
  ⟨0x020A0064, 1, 0x4, 1, 0x4, 0x0, 0x0, 0x70000, 0x0, 0x1, []⟩, -- CHM_MAP_CTRL R421
  ⟨0x020A0068, 1, 0x4, 1, 0x4, 0x0, 0xFFFFFFFF, 0x0, 0x0, 0x0, []⟩, -- CHM_MAP_KEY_LO R421
  ⟨0x020A006C, 1, 0x4, 1, 0x4, 0x0, 0xFFFF, 0x0, 0x0, 0x0, []⟩, -- CHM_MAP_KEY_HI R421
  ⟨0x020A0070, 1, 0x4, 1, 0x4, 0x0, 0x0, 0x0, 0x0, 0xF, []⟩, -- CHM_WAKE R430
  ⟨0x020A0074, 1, 0x4, 1, 0x4, 0x0, 0x0, 0x0, 0xFFFFFFFF, 0x0, []⟩, -- CHM_KICK_LOST R429
  ⟨0x020A0100, 4, 0x40, 1, 0x4, 0x0, 0x7F0FF3, 0x0, 0x0, 0x0, []⟩, -- CHM_P_CTRL R431
  ⟨0x020A0104, 4, 0x40, 1, 0x4, 0x0, 0xFFFFFFFF, 0x0, 0x0, 0x0, []⟩, -- CHM_P_TIME R417
  ⟨0x020A0108, 4, 0x40, 1, 0x4, 0x0, 0x0, 0x1F00, 0x0, 0x0, []⟩, -- CHM_P_STAT R404
  ⟨0x020A010C, 4, 0x40, 1, 0x4, 0x0, 0x0, 0x0, 0x0, 0x0, []⟩, -- CHM_P_DELAY R404
  ⟨0x020A0110, 4, 0x40, 1, 0x4, 0x0, 0x0, 0x0, 0x0, 0x0, []⟩, -- CHM_P_NBR_SER_LO R404
  ⟨0x020A0114, 4, 0x40, 1, 0x4, 0x0, 0x0, 0x0, 0x0, 0x0, []⟩, -- CHM_P_NBR_SER_HI R404
  ⟨0x020A0118, 4, 0x40, 1, 0x4, 0x0, 0x0, 0x0, 0x0, 0x0, []⟩, -- CHM_P_NBR_INFO R404
  ⟨0x020A0120, 4, 0x40, 1, 0x4, 0x0, 0x0, 0x0, 0xFFFFFFFF, 0x0, []⟩, -- CHM_P_CRC_ERRS R423
  ⟨0x020A0124, 4, 0x40, 1, 0x4, 0x0, 0x0, 0x0, 0xFFFFFFFF, 0x0, []⟩, -- CHM_P_LETS R423
  ⟨0x020A0128, 4, 0x40, 1, 0x4, 0x0, 0x0, 0x0, 0xFFFFFFFF, 0x0, []⟩, -- CHM_P_DOWNS R423
  ⟨0x020A012C, 4, 0x40, 1, 0x4, 0x0, 0x0, 0x0, 0xFFFFFFFF, 0x0, []⟩, -- CHM_P_RX_LATE R420
  ⟨0x020A0130, 4, 0x40, 1, 0x4, 0x0, 0x0, 0x0, 0xFFFFFFFF, 0x0, []⟩, -- CHM_P_FWD_LATE R420
  ⟨0x020A0134, 4, 0x40, 1, 0x4, 0x0, 0x0, 0x0, 0xFFFFFFFF, 0x0, []⟩, -- CHM_P_RALLY_BAD R412
  ⟨0x020A0200, 64, 0x4, 1, 0x4, 0x0, 0xBFFFFFFF, 0x0, 0x0, 0x0, []⟩ -- CHM_EVT_MAP R422
]

/-- Rows of block DMP. -/
def dmpRows : List RegRow := [
  ⟨0x020B0000, 1, 0x4, 1, 0x4, 0xFF2000, 0xFFF7FFF, 0x0, 0x0, 0x0, []⟩, -- DMP_CTRL R339
  ⟨0x020B0004, 1, 0x4, 1, 0x4, 0x0, 0x0, 0x3F, 0x0, 0x0, []⟩, -- DMP_STAT R344
  ⟨0x020B0008, 1, 0x4, 1, 0x4, 0x0, 0x780000, 0x0, 0x0, 0x0, []⟩, -- DMP_MAP_BASE R330
  ⟨0x020B000C, 1, 0x4, 1, 0x4, 0x0, 0x700000, 0x0, 0x0, 0x0, []⟩, -- DMP_STG_BASE R331
  ⟨0x020B0010, 1, 0x4, 1, 0x4, 0x0, 0x0, 0x0, 0xFFFFFFFF, 0x0, []⟩, -- DMP_SUPERSEDED R338
  ⟨0x020B0014, 1, 0x4, 1, 0x4, 0x0, 0x0, 0x80000000, 0x0, 0x0, []⟩, -- DMP_SUP_INFO R338
  ⟨0x020B0018, 1, 0x4, 1, 0x4, 0x0, 0x0, 0x0, 0xFFFFFFFF, 0x0, []⟩, -- DMP_ERR_COUNT R335
  ⟨0x020B001C, 1, 0x4, 1, 0x4, 0x0, 0x0, 0x80000000, 0x0, 0x0, []⟩, -- DMP_ERR_INFO R335
  ⟨0x020B0020, 1, 0x4, 1, 0x4, 0x0, 0x0, 0x0, 0xFFFFFFFF, 0x0, []⟩, -- DMP_MERGED R341
  ⟨0x020B0030, 1, 0x4, 1, 0x4, 0x0, 0x1FFFF, 0x0, 0x0, 0x0, []⟩, -- DMP_WR_PARAM R334
  ⟨0x020B0034, 1, 0x4, 1, 0x4, 0x0, 0xFFFFFFFF, 0x0, 0x0, 0x0, []⟩, -- DMP_WR_AT R334
  ⟨0x020B0038, 1, 0x4, 1, 0x4, 0x0, 0x0, 0x0, 0x0, 0x0, []⟩, -- DMP_WR_VALUE R334
  ⟨0x020B0040, 1, 0x4, 1, 0x4, 0x0, 0xFFFFFFFF, 0x0, 0x0, 0x0, []⟩, -- DMP_KICK_AT_LO R336
  ⟨0x020B0044, 1, 0x4, 1, 0x4, 0x0, 0x0, 0x0, 0x0, 0x0, []⟩, -- DMP_KICK_AT_HI R336
  ⟨0x020B0050, 1, 0x4, 1, 0x4, 0x0, 0x0, 0x0, 0x0, 0x0, []⟩, -- DMP_LAST_LO R344
  ⟨0x020B0054, 1, 0x4, 1, 0x4, 0x0, 0x0, 0x0, 0x0, 0x0, []⟩, -- DMP_LAST_INFO R344
  ⟨0x020B0080, 16, 0x4, 1, 0x4, 0x0, 0x3FFF, 0x0, 0x0, 0x0, []⟩, -- DMP_SET_COUNT R333
  ⟨0x020B00C0, 16, 0x8, 1, 0x4, 0x0, 0xFFFF, 0x0, 0x0, 0x0, []⟩, -- DMP_SET_PARAM R332
  ⟨0x020B00C4, 16, 0x8, 1, 0x4, 0x0, 0x0, 0x0, 0x0, 0x0, []⟩, -- DMP_SET_VALUE R332
  ⟨0x020B0200, 108, 0x4, 1, 0x4, 0x0, 0x77777777, 0x0, 0x0, 0x0, []⟩, -- DMP_RANK R338
  ⟨0x020B03C0, 1, 0x4, 1, 0x4, 0x0, 0x0, 0x0, 0x0, 0x0, []⟩, -- DMP_KREP_SUM R345
  ⟨0x020B0400, 64, 0x4, 1, 0x4, 0x0, 0x0, 0x0, 0x0, 0x0, []⟩ -- DMP_KREP R345
]

/-- Rows of block CUE. -/
def cueRows : List RegRow := [
  ⟨0x020C0000, 1, 0x4, 1, 0x4, 0x802, 0x7F03, 0x0, 0x0, 0x0, []⟩, -- CUE_CTRL R347
  ⟨0x020C0004, 1, 0x4, 1, 0x4, 0x0, 0x0, 0x1F, 0x0, 0x0, []⟩, -- CUE_STAT R353
  ⟨0x020C0008, 1, 0x4, 1, 0x4, 0x0, 0x7F0000, 0x0, 0x0, 0x0, []⟩, -- CUE_ACT_BASE R351
  ⟨0x020C000C, 1, 0x4, 1, 0x4, 0x0, 0x0, 0x0, 0x0, 0x0, []⟩, -- CUE_EVAL_NOW R347
  ⟨0x020C0010, 1, 0x4, 1, 0x4, 0x0, 0x0, 0x0, 0xFFFFFFFF, 0x0, []⟩, -- CUE_FIRED R353
  ⟨0x020C0014, 1, 0x4, 1, 0x4, 0x0, 0x0, 0x0, 0xFFFFFFFF, 0x0, []⟩, -- CUE_SKIPPED R350
  ⟨0x020C0018, 1, 0x4, 1, 0x4, 0x0, 0x0, 0x0, 0xFFFFFFFF, 0x0, []⟩, -- CUE_ERR_COUNT R352
  ⟨0x020C001C, 1, 0x4, 1, 0x4, 0x0, 0x0, 0x80000000, 0x0, 0x0, []⟩, -- CUE_ERR_INFO R352
  ⟨0x020C0020, 1, 0x4, 1, 0x4, 0x0, 0x0, 0x0, 0x80FFFFFF, 0x0, []⟩, -- CUE_LOG R353
  ⟨0x020C4000, 4096, 0x4, 1, 0x4, 0x0, 0x0, 0x0, 0x0, 0x0, []⟩, -- CUE_STATE R346
  ⟨0x020C8000, 4096, 0x8, 1, 0x4, 0x0, 0xFFFFFFFF, 0x0, 0x0, 0x0, []⟩, -- CUE_KEY_LO R346
  ⟨0x020C8004, 4096, 0x8, 1, 0x4, 0x0, 0xFFFFFFFF, 0x0, 0x0, 0x0, []⟩ -- CUE_KEY_HI R346
]

/-- Rows of block MIF. -/
def mifRows : List RegRow := [
  ⟨0x020D0080, 1, 0x4, 1, 0x4, 0x0, 0x0, 0x0, 0x0, 0x0, []⟩, -- MIF_GATE_STAT R366
  ⟨0x020D0084, 1, 0x4, 1, 0x4, 0x0, 0x0, 0x0, 0x0, 0x0, []⟩, -- MIF_GATE_SET R370
  ⟨0x020D0088, 1, 0x4, 1, 0x4, 0x0, 0x0, 0x0, 0x0, 0x0, []⟩, -- MIF_GATE_CLR R370
  ⟨0x020D008C, 1, 0x4, 1, 0x4, 0x0, 0x0, 0x0, 0xFFFFFFFF, 0x0, []⟩, -- MIF_GATE_REFUSED R368
  ⟨0x020D0090, 1, 0x4, 1, 0x4, 0x0, 0x0, 0x80000000, 0x0, 0x0, []⟩, -- MIF_GATE_LAST R369
  ⟨0x020D0100, 16, 0x8, 1, 0x4, 0x0, 0xFFFF000F, 0x0, 0x0, 0x0, []⟩, -- MIF_GATE_CFG R366
  ⟨0x020D0104, 16, 0x8, 1, 0x4, 0x0, 0xFFFFFFFF, 0x0, 0x0, 0x0, []⟩, -- MIF_GATE_ADV R367
  ⟨0x020D1000, 4, 0x100, 1, 0x4, 0x4000004, 0xFF01FFFF, 0x0, 0x0, 0x0, []⟩, -- MIF_CFG R374
  ⟨0x020D1004, 4, 0x100, 1, 0x4, 0x8, 0x0, 0x1F00, 0x0, 0x0, []⟩, -- MIF_STAT R364
  ⟨0x020D1008, 4, 0x100, 1, 0x4, 0x0, 0xFFFFFFFF, 0x0, 0x0, 0x0, []⟩, -- MIF_POS_LO R357
  ⟨0x020D100C, 4, 0x100, 1, 0x4, 0x0, 0xFFFF, 0x0, 0x0, 0x0, []⟩, -- MIF_POS_HI R357
  ⟨0x020D1010, 4, 0x100, 1, 0x4, 0x0, 0x0, 0x1, 0x0, 0x0, []⟩, -- MIF_POS_STAT R357
  ⟨0x020D1014, 4, 0x100, 1, 0x4, 0x0, 0x0, 0x0, 0x0, 0x0, []⟩, -- MIF_SPEED R359
  ⟨0x020D1018, 4, 0x100, 1, 0x4, 0x0, 0x0, 0x0, 0x0, 0x0, []⟩, -- MIF_RATIO R360
  ⟨0x020D101C, 4, 0x100, 1, 0x4, 0x14000064, 0xFFFFFFFF, 0x0, 0x0, 0x0, []⟩, -- MIF_STALL_CFG R362
  ⟨0x020D1020, 4, 0x100, 1, 0x4, 0x6404E2, 0xFFFFFFFF, 0x0, 0x0, 0x0, []⟩, -- MIF_SPOOL_CFG R363
  ⟨0x020D1024, 4, 0x100, 1, 0x4, 0x0, 0x0, 0x0, 0x0, 0x0, []⟩, -- MIF_IDX_CAP_LO R358
  ⟨0x020D1028, 4, 0x100, 1, 0x4, 0x0, 0x0, 0x0, 0x0, 0x0, []⟩, -- MIF_IDX_CAP_HI R358
  ⟨0x020D102C, 4, 0x100, 1, 0x4, 0x0, 0xFFFFFFFF, 0x0, 0x0, 0x0, []⟩, -- MIF_IDX_LOAD_LO R358
  ⟨0x020D1030, 4, 0x100, 1, 0x4, 0x0, 0xFFFF, 0x0, 0x0, 0x0, []⟩, -- MIF_IDX_LOAD_HI R358
  ⟨0x020D1034, 4, 0x100, 1, 0x4, 0x0, 0x0, 0x0, 0xFFFF, 0x0, []⟩, -- MIF_ERRS R356
  ⟨0x020D1040, 4, 0x100, 1, 0x4, 0x0, 0x3, 0x0, 0x0, 0x0, []⟩, -- MIF_LTCI_CFG R372
  ⟨0x020D1044, 4, 0x100, 1, 0x4, 0x0, 0x0, 0x0, 0x0, 0x0, []⟩, -- MIF_LTCI_TC R372
  ⟨0x020D1048, 4, 0x100, 1, 0x4, 0x0, 0x0, 0x0, 0x0, 0x0, []⟩, -- MIF_LTCI_UB R372
  ⟨0x020D104C, 4, 0x100, 1, 0x4, 0x0, 0x0, 0x0, 0x0, 0x0, []⟩, -- MIF_LTCI_INFO R372
  ⟨0x020D1050, 4, 0x100, 1, 0x4, 0x0, 0x0, 0x0, 0x0, 0x0, []⟩, -- MIF_LTCI_POS_LO R372
  ⟨0x020D1054, 4, 0x100, 1, 0x4, 0x0, 0x0, 0x0, 0x0, 0x0, []⟩, -- MIF_LTCI_POS_HI R372
  ⟨0x020D1058, 4, 0x100, 1, 0x4, 0x0, 0x0, 0x0, 0x0, 0x0, []⟩, -- MIF_LTCI_RALLY_LO R372
  ⟨0x020D105C, 4, 0x100, 1, 0x4, 0x0, 0x0, 0x0, 0x0, 0x0, []⟩, -- MIF_LTCI_RALLY_HI R372
  ⟨0x020D1060, 4, 0x100, 1, 0x4, 0x0, 0x0, 0x0, 0x0, 0x0, []⟩, -- MIF_LTCI_PHASE R372
  ⟨0x020D1064, 4, 0x100, 1, 0x4, 0x0, 0x0, 0x0, 0xFFFFFFFF, 0x0, []⟩, -- MIF_LTCI_ERRS R372
  ⟨0x020D1070, 4, 0x100, 1, 0x4, 0x0, 0x27, 0x40, 0x0, 0x18, []⟩, -- MIF_LTCO_CTRL R373
  ⟨0x020D1074, 4, 0x100, 1, 0x4, 0x0, 0xFFFFFFFF, 0x0, 0x0, 0x0, []⟩, -- MIF_LTCO_TC R373
  ⟨0x020D1078, 4, 0x100, 1, 0x4, 0x0, 0xFFFFFFFF, 0x0, 0x0, 0x0, []⟩, -- MIF_LTCO_UB R373
  ⟨0x020D107C, 4, 0x100, 1, 0x4, 0x0, 0xFFFFFFFF, 0x0, 0x0, 0x0, []⟩, -- MIF_LTCO_START_LO R373
  ⟨0x020D1080, 4, 0x100, 1, 0x4, 0x0, 0xFFFF, 0x0, 0x0, 0x0, []⟩ -- MIF_LTCO_START_HI R373
]

/-- Rows of block BEL. -/
def belRows : List RegRow := [
  ⟨0x020E0000, 1, 0x4, 1, 0x4, 0x0, 0x0, 0xFFFFFFFF, 0x0, 0x0, []⟩, -- BEL_SUM R397
  ⟨0x020E0400, 32, 0x10, 1, 0x4, 0x0, 0xFF3F, 0x0, 0x0, 0x0, []⟩, -- BEL_PWM_CFG R390
  ⟨0x020E0404, 32, 0x10, 1, 0x4, 0x1387, 0xFFFF, 0x0, 0x0, 0x0, []⟩, -- BEL_PWM_PERIOD R390
  ⟨0x020E0408, 32, 0x10, 1, 0x4, 0x0, 0x0, 0x0, 0x0, 0x0, []⟩, -- BEL_PWM_CMP R390
  ⟨0x020E0600, 16, 0x10, 1, 0x4, 0x4, 0x1FF, 0x0, 0x0, 0x0, []⟩, -- BEL_ENC_CFG R389
  ⟨0x020E0604, 16, 0x10, 1, 0x4, 0x0, 0xFFFFFFFF, 0x0, 0x0, 0x0, []⟩, -- BEL_ENC_COUNT R389
  ⟨0x020E0608, 16, 0x10, 1, 0x4, 0x0, 0x0, 0x0, 0x0, 0x0, []⟩, -- BEL_ENC_IDX R389
  ⟨0x020E060C, 16, 0x10, 1, 0x4, 0x0, 0x0, 0x0, 0xFFFF, 0x0, []⟩, -- BEL_ENC_ERRS R389
  ⟨0x020E0700, 4, 0x40, 1, 0x4, 0x0, 0x1, 0x0, 0x0, 0x0, []⟩, -- BEL_SPI_CTRL R391
  ⟨0x020E0704, 4, 0x40, 1, 0x4, 0x0, 0x0, 0x0, 0x0, 0x0, []⟩, -- BEL_SPI_STAT R391
  ⟨0x020E0720, 4, 0x40, 8, 0x4, 0x20F00, 0xFF1F3F, 0x0, 0x0, 0x0, []⟩, -- BEL_SPI_SEL R391
  ⟨0x020E1000, 8, 0x100, 1, 0x4, 0x0, 0x1, 0x0, 0x0, 0x0, []⟩, -- BEL_LANE_CTRL R396
  ⟨0x020E1004, 8, 0x100, 1, 0x4, 0x1, 0x0, 0x0, 0x0, 0x0, []⟩, -- BEL_LANE_STAT R396
  ⟨0x020E1008, 8, 0x100, 1, 0x4, 0x0, 0x0, 0x0, 0x0, 0x0, []⟩, -- BEL_LANE_PEND R385
  ⟨0x020E100C, 8, 0x100, 1, 0x4, 0x0, 0x0, 0x80000000, 0x0, 0x0, []⟩, -- BEL_LANE_FAULT R388
  ⟨0x020E1010, 8, 0x100, 1, 0x4, 0x0, 0x0, 0x0, 0xFFFFFFFF, 0x0, []⟩, -- BEL_LANE_OVR R386
  ⟨0x020E1014, 8, 0x100, 1, 0x4, 0x0, 0x0, 0x0, 0xFFFFFFFF, 0x0, []⟩, -- BEL_LANE_MERR R394
  ⟨0x020E1018, 8, 0x100, 1, 0x4, 0x0, 0x0, 0x0, 0xFFFFFFFF, 0x0, []⟩, -- BEL_LANE_MISSED R386
  ⟨0x020E101C, 8, 0x100, 1, 0x4, 0x0, 0x7FF000, 0x0, 0x0, 0x0, []⟩, -- BEL_LANE_MWIN R394
  ⟨0x020E1020, 8, 0x100, 4, 0x4, 0x0, 0x8FFF, 0x0, 0x0, 0x0, []⟩, -- BEL_LANE_MBOX R392
  ⟨0x020E1030, 8, 0x100, 4, 0x4, 0x0, 0xFFF, 0x0, 0x0, 0x0, []⟩, -- BEL_LANE_EVT R393
  ⟨0x020E1040, 8, 0x100, 1, 0x4, 0x0, 0x7F, 0x0, 0x0, 0x0, []⟩, -- BEL_LANE_KSEL R398
  ⟨0x020E1044, 8, 0x100, 1, 0x4, 0x0, 0xFFFFFFFF, 0x0, 0x0, 0x0, []⟩, -- BEL_LANE_KLO R398
  ⟨0x020E1048, 8, 0x100, 1, 0x4, 0x0, 0xFF, 0x0, 0x0, 0x0, []⟩, -- BEL_LANE_KHI R398
  ⟨0x020E2000, 256, 0x10, 1, 0x4, 0x0, 0x3FF3FFF, 0x0, 0x0, 0x0, []⟩, -- BEL_LOOP_CFG R385
  ⟨0x020E2004, 256, 0x10, 1, 0x4, 0x0, 0xFFF, 0x0, 0x0, 0x0, []⟩, -- BEL_LOOP_PHASE R385
  ⟨0x020E2008, 256, 0x10, 1, 0x4, 0x0, 0xFFFF, 0x0, 0x0, 0x0, []⟩, -- BEL_LOOP_MAXST R387
  ⟨0x020E200C, 256, 0x10, 1, 0x4, 0x0, 0x0, 0x0, 0xFFFF0000, 0x0, []⟩, -- BEL_LOOP_STAT R386
  ⟨0x020E1050, 8, 0x100, 1, 0x4, 0x0, 0xC, 0x0, 0x0, 0x1, []⟩, -- BEL_LANE_DBG_CTRL R519
  ⟨0x020E1054, 8, 0x100, 1, 0x4, 0x0, 0x0, 0x0, 0x0, 0x0, []⟩, -- BEL_LANE_DBG_STAT R519
  ⟨0x020E1058, 8, 0x100, 1, 0x4, 0x0, 0xF, 0x0, 0x0, 0x0, []⟩, -- BEL_LANE_DBG_SEL R519
  ⟨0x020E105C, 8, 0x100, 1, 0x4, 0x0, 0xFFFFFFFF, 0x0, 0x0, 0x0, []⟩, -- BEL_LANE_DBG_DATA R519
  ⟨0x020E1060, 8, 0x100, 2, 0x4, 0x0, 0x800003FF, 0x0, 0x0, 0x0, []⟩ -- BEL_LANE_BP R519
]

/-- Rows of block SKP. -/
def skpRows : List RegRow := [
  ⟨0x020F0000, 1, 0x4, 1, 0x4, 0x620, 0x3FF7F, 0x0, 0x0, 0x0, []⟩, -- SKP_FLASH_CFG R453
  ⟨0x020F0004, 1, 0x4, 1, 0x4, 0x100040, 0xFFFF0FFF, 0x0, 0x0, 0x0, []⟩, -- SKP_SCN_CFG R454
  ⟨0x020F0008, 1, 0x4, 1, 0x4, 0x7D00004, 0xFFFFFFFF, 0x0, 0x0, 0x0, []⟩, -- SKP_TIMING R453
  ⟨0x020F0010, 1, 0x4, 1, 0x4, 0x0, 0x1FFFF, 0x0, 0x0, 0x80000000, []⟩, -- SKP_CMD R457
  ⟨0x020F0014, 1, 0x4, 1, 0x4, 0x0, 0xFFFFFFFF, 0x0, 0x0, 0x0, []⟩, -- SKP_BUF R457
  ⟨0x020F0018, 1, 0x4, 1, 0x4, 0x0, 0xFFFFFFFF, 0x0, 0x0, 0x0, []⟩, -- SKP_LEN R457
  ⟨0x020F001C, 1, 0x4, 1, 0x4, 0x0, 0x0, 0x300, 0x0, 0x0, []⟩, -- SKP_STAT R457
  ⟨0x020F0020, 1, 0x4, 1, 0x4, 0x0, 0x0, 0x0, 0x0, 0x0, []⟩, -- SKP_RES_INFO R458
  ⟨0x020F0024, 1, 0x4, 1, 0x4, 0x0, 0x0, 0x0, 0x0, 0x0, []⟩, -- SKP_RES_GEN R458
  ⟨0x020F0028, 1, 0x4, 1, 0x4, 0x0, 0x0, 0x0, 0x0, 0x0, []⟩, -- SKP_RES_LEN R458
  ⟨0x020F002C, 1, 0x4, 1, 0x4, 0x0, 0x0, 0x0, 0x0, 0x0, []⟩, -- SKP_RES_CRC R457
  ⟨0x020F0040, 8, 0x4, 1, 0x4, 0x0, 0x0, 0x0, 0x0, 0x0, []⟩, -- SKP_DIGEST R457
  ⟨0x020F0080, 1, 0x4, 1, 0x4, 0x0, 0x0, 0x0, 0x0, 0x0, []⟩, -- SKP_BOOT_STAT R466
  ⟨0x020F0084, 1, 0x4, 1, 0x4, 0x0, 0x0, 0x0, 0x0, 0x1, []⟩, -- SKP_BOOT_GO R471
  ⟨0x020F0090, 1, 0x4, 1, 0x4, 0x0, 0x3F, 0x0, 0x0, 0x0, []⟩, -- SKP_OTP_ADDR R469
  ⟨0x020F0094, 1, 0x4, 1, 0x4, 0x0, 0xFFFFFFFF, 0x0, 0x0, 0x0, []⟩, -- SKP_OTP_WDATA R469
  ⟨0x020F0098, 1, 0x4, 1, 0x4, 0x0, 0x0, 0x2, 0x0, 0x1, []⟩, -- SKP_OTP_CTRL R469
  ⟨0x020F0100, 64, 0x4, 1, 0x4, 0x0, 0x0, 0x0, 0x0, 0x0, []⟩ -- SKP_OTP R469
]

/-- Rows of block EMB. -/
def embRows : List RegRow := [
  ⟨0x02100000, 1, 0x4, 1, 0x4, 0x80000001, 0x0, 0x80000000, 0x0, 0x0, []⟩, -- EMB_CAUSE R487
  ⟨0x02100004, 1, 0x4, 1, 0x4, 0x0, 0x0, 0x0, 0x0, 0x0, []⟩, -- EMB_CAUSE_RTC_LO R487
  ⟨0x02100008, 1, 0x4, 1, 0x4, 0x0, 0x0, 0x0, 0x0, 0x0, []⟩, -- EMB_CAUSE_RTC_HI R487
  ⟨0x0210000C, 1, 0x4, 1, 0x4, 0x0, 0x0, 0x700, 0x0, 0x0, []⟩, -- EMB_STAT R498
  ⟨0x02100010, 1, 0x4, 1, 0x4, 0x0, 0xFFFFFFFF, 0x0, 0x0, 0x0, []⟩, -- EMB_RTC_LO R491
  ⟨0x02100014, 1, 0x4, 1, 0x4, 0x0, 0xFFFF, 0x0, 0x0, 0x0, []⟩, -- EMB_RTC_HI R491
  ⟨0x02100018, 1, 0x4, 1, 0x4, 0x0, 0x0, 0x1, 0x0, 0x0, []⟩, -- EMB_RTC_STAT R491
  ⟨0x02100020, 1, 0x4, 1, 0x4, 0x0, 0xFFFFFFFF, 0x0, 0x0, 0x0, []⟩, -- EMB_ALARM_LO R492
  ⟨0x02100024, 1, 0x4, 1, 0x4, 0x0, 0x8000FFFF, 0x0, 0x0, 0x0, []⟩, -- EMB_ALARM_HI R492
  ⟨0x02100030, 1, 0x4, 1, 0x4, 0x116, 0x11F, 0x0, 0x0, 0x0, []⟩, -- EMB_XP_CFG R497
  ⟨0x02100034, 1, 0x4, 1, 0x4, 0x0, 0x0, 0x0, 0x0, 0x0, []⟩, -- EMB_XP_RATIO_LO R497
  ⟨0x02100038, 1, 0x4, 1, 0x4, 0x0, 0x0, 0x0, 0x0, 0x0, []⟩, -- EMB_XP_RATIO_HI R497
  ⟨0x02100040, 1, 0x4, 1, 0x4, 0x0, 0x0, 0x0, 0x0, 0x0, []⟩, -- EMB_XP_NOW_LO R498
  ⟨0x02100044, 1, 0x4, 1, 0x4, 0x0, 0x0, 0x0, 0x0, 0x0, []⟩, -- EMB_XP_NOW_HI R498
  ⟨0x02100050, 1, 0x4, 1, 0x4, 0xA0032, 0xFFFFFFFF, 0x0, 0x0, 0x0, []⟩, -- EMB_PWR_SEQ R484
  ⟨0x02100060, 4, 0x4, 1, 0x4, 0x0, 0x37, 0x0, 0x0, 0x0, [(0, 0x1), (1, 0x13), (2, 0x22), (3, 0x31)]⟩, -- EMB_PWR_EN R483
  ⟨0x02100080, 1, 0x4, 1, 0x4, 0x0, 0xFFF0001, 0x0, 0x0, 0x0, []⟩, -- EMB_RESUME R486
  ⟨0x02100100, 32, 0x4, 1, 0x4, 0x0, 0x871F, 0x0, 0x0, 0x0, []⟩, -- EMB_WATCH R495
  ⟨0x02100200, 64, 0x4, 1, 0x4, 0x0, 0xFFFFFFFF, 0x0, 0x0, 0x0, []⟩ -- EMB_RAM R493
]

/-- Rows of block HIF. -/
def hifRows : List RegRow := [
  ⟨0x02110000, 1, 0x4, 1, 0x4, 0x0, 0x1, 0x0, 0x0, 0x0, []⟩, -- HIF_PCIE_CTRL R509
  ⟨0x02110004, 1, 0x4, 1, 0x4, 0x0, 0x0, 0x1F00, 0x0, 0x0, []⟩, -- HIF_PCIE_STAT R509
  ⟨0x02110010, 4, 0x4, 1, 0x4, 0x0, 0xFFFFFFFF, 0x0, 0x0, 0x0, []⟩, -- HIF_DB R511
  ⟨0x02110020, 1, 0x4, 1, 0x4, 0x0, 0x0, 0xF0F, 0x0, 0x0, []⟩, -- HIF_DB_STAT R511
  ⟨0x02110040, 1, 0x4, 1, 0x4, 0x1, 0x1, 0x0, 0x0, 0x0, []⟩, -- HIF_QSPI_CFG R512
  ⟨0x02110044, 1, 0x4, 1, 0x4, 0x0, 0x0, 0x700, 0x0, 0x0, []⟩, -- HIF_QSPI_STAT R513
  ⟨0x02110048, 1, 0x4, 1, 0x4, 0x0, 0x0, 0x0, 0xFFFFFFFF, 0x0, []⟩, -- HIF_QSPI_ERRS R514
  ⟨0x02110080, 1, 0x4, 1, 0x4, 0x3640001, 0xFFFF0001, 0x0, 0x0, 0x0, []⟩, -- HIF_UART_CTRL R520
  ⟨0x02110084, 1, 0x4, 1, 0x4, 0x0, 0x0, 0x0, 0x0, 0x0, []⟩, -- HIF_UART_TX R520
  ⟨0x02110088, 1, 0x4, 1, 0x4, 0x0, 0x0, 0x0, 0x1FF, 0x0, []⟩, -- HIF_UART_RX R520
  ⟨0x0211008C, 1, 0x4, 1, 0x4, 0x0, 0x0, 0x30000, 0x0, 0x0, []⟩, -- HIF_UART_STAT R520
  ⟨0x021100C0, 1, 0x4, 1, 0x4, 0x0, 0x0, 0x0, 0x0, 0x0, []⟩, -- HIF_GPIO_IN R521
  ⟨0x021100C4, 1, 0x4, 1, 0x4, 0x0, 0xFFFFFFFF, 0x0, 0x0, 0x0, []⟩, -- HIF_GPIO_OUT R521
  ⟨0x021100C8, 1, 0x4, 1, 0x4, 0x0, 0x0, 0x0, 0x0, 0xFFFFFFFF, []⟩, -- HIF_GPIO_OUT_SET R521
  ⟨0x021100CC, 1, 0x4, 1, 0x4, 0x0, 0x0, 0xFFFFFFFF, 0x0, 0x0, []⟩, -- HIF_GPIO_OUT_CLR R521
  ⟨0x021100D0, 1, 0x4, 1, 0x4, 0x0, 0xFFFFFFFF, 0x0, 0x0, 0x0, []⟩, -- HIF_GPIO_OE R521
  ⟨0x021100E0, 4, 0x4, 1, 0x4, 0x0, 0x33333333, 0x0, 0x0, 0x0, []⟩, -- HIF_GPIO_FN R521
  ⟨0x02111000, 64, 0x10, 3, 0x4, 0x0, 0xFFFFFFFF, 0x0, 0x0, 0x0, []⟩, -- MSIX_TABLE R510
  ⟨0x0211100C, 64, 0x10, 1, 0x4, 0x1, 0x1, 0x0, 0x0, 0x0, []⟩, -- MSIX_CTRL R510
  ⟨0x02111800, 2, 0x4, 1, 0x4, 0x0, 0x0, 0x0, 0x0, 0x0, []⟩ -- MSIX_PBA R510
]

/-- The rows of the window that holds an address: the Hearth windows' HRT part, or one block of 64 KiB (R41). -/
def rowsAt (a : Nat) : List RegRow :=
  if 0x01000000 ≤ a ∧ a < 0x01C00000 then hrtRows
  else match a / 0x10000 with
  | 0x200 => sysRows
  | 0x201 => evcRows
  | 0x202 => flueRows
  | 0x203 => memcRows
  | 0x204 => rsgRows
  | 0x205 => tsuRows
  | 0x206 => sapRows
  | 0x207 => aesmRows
  | 0x208 => asrcRows
  | 0x209 => netRows
  | 0x20A => chimRows
  | 0x20B => dmpRows
  | 0x20C => cueRows
  | 0x20D => mifRows
  | 0x20E => belRows
  | 0x20F => skpRows
  | 0x210 => embRows
  | 0x211 => hifRows
  | _ => []

/-- The offset of an address within a row's instances, if the row holds it: its outer and inner instance. -/
def RegRow.index? (r : RegRow) (a : Nat) : Option (Nat × Nat) :=
  if a < r.base then none
  else
    let o := a - r.base
    let i := o / r.s1
    let q := o % r.s1
    if i < r.n1 ∧ q / r.s2 < r.n2 ∧ q % r.s2 = 0 then some (i, q / r.s2) else none

/-- The first row that holds an address. -/
def findRow (a : Nat) : List RegRow → Option RegRow
  | [] => none
  | r :: rs => if (r.index? a).isSome then some r else findRow a rs

/-- The row of a register, none at a reserved offset (R11). -/
def regRow (a : Nat) : Option RegRow := findRow a (rowsAt a)

/-- The reset value of the instance at an address (R12). -/
def RegRow.resetAt (r : RegRow) (a : Nat) : Nat :=
  match r.index? a with
  | none => 0
  | some (i, _) => (r.special.lookup i).getD r.reset

/-- What a register that nothing has changed holds: its reset value; 0 at a reserved offset (R11). -/
def regReset (a : Nat) : Word :=
  match regRow a with
  | none => 0
  | some r => BitVec.ofNat 32 (r.resetAt a)

end Sys2Proof.Machine
end

