-- ==== Sys2Proof/Machine/Tab.lean ====
section
/-! DEFINITION. Tables of plain data with a default: a list of (key, value) pairs in one canonical form. The Mantel,
the tile RAMs, the registers and every numbered unit of the block are held in one. -/

namespace Sys2Proof.Machine

/-- A table: pairs of a key and a value. An unlisted key reads as the table's default. -/
abbrev Tab (α : Type) := List (Nat × α)

/-- The value at a key; `d` gives what an unlisted key reads as. -/
def tabGet {α : Type} (d : Nat → α) : Tab α → Nat → α
  | [], k => d k
  | (a, v) :: t, k => if k = a then v else tabGet d t k

/-- Takes a key out of the list, so that it reads as the default again. -/
def tabErase {α : Type} : Tab α → Nat → Tab α
  | [], _ => []
  | (a, v) :: t, k => if k = a then tabErase t k else (a, v) :: tabErase t k

/-- Puts a value at a key of the list, keeping the keys in rising order. -/
def tabPut {α : Type} : Tab α → Nat → α → Tab α
  | [], k, v => [(k, v)]
  | (a, w) :: t, k, v =>
    if k < a then (k, v) :: (a, w) :: t
    else if k = a then (k, v) :: t
    else (a, w) :: tabPut t k v

/-- A write: the default's own value is not listed, so equal tables are equal lists. -/
def tabSet {α : Type} [DecidableEq α] (d : Nat → α) (t : Tab α) (k : Nat) (v : α) : Tab α :=
  if v = d k then tabErase t k else tabPut t k v

/-- Changes every listed value: each listed key takes what f makes of its value. -/
def tabMap {α : Type} [DecidableEq α] (d : Nat → α) (f : Nat → α → α) (t : Tab α) : Tab α :=
  t.foldl (fun acc e => tabSet d acc e.1 (f e.1 (tabGet d t e.1))) t

/-- Keys strictly rise, all of them above a bound. -/
def tabRising {α : Type} : Nat → Tab α → Bool
  | _, [] => true
  | b, (a, _) :: t => decide (b ≤ a) && tabRising (a + 1) t

/-- The canonical form: rising keys, and no entry equal to the default. -/
def tabWf {α : Type} [DecidableEq α] (d : Nat → α) (t : Tab α) : Bool :=
  tabRising 0 t && t.all (fun p => decide (p.2 ≠ d p.1))

end Sys2Proof.Machine
end

