-- ==== Sys2Proof/Machine/State.lean ====
section
/-! DEFINITION. The state of the block: plain data. -/

namespace Sys2Proof.Machine

/-- A response code (R47). -/
inductive Resp where
  | ok | slverr | decerr | perm | ecc | timeout | superseded
deriving DecidableEq, Repr

/-- What a master gets back: a response and read data (R47). -/
structure Reply where
  resp : Resp
  data : BitVec 64
deriving DecidableEq, Repr

/-- The write-error summary that one MID reads from SYS_FENCE (R60). -/
structure FenceSum where
  firstErr : Nat
  errCount : Nat
deriving DecidableEq, Repr

/-- Shadow, staged words and pending load of a value wider than 32 bits (R53 to R58). -/
structure Wide where
  shadow : Nat
  staged0 : Word
  staged1 : Word
  load : Option Nat
deriving DecidableEq, Repr

/-- A ball: its owner, its latched lease, and the Rally instants counted since its latest start (R66 to R71). -/
structure Ball where
  owner : Option Nat
  lease : Nat
  count : Nat
deriving DecidableEq, Repr

/-- State of an EVC source (R435). -/
inductive SrcState where
  | idle | pending | active | activeAgain
deriving DecidableEq, Repr

/-- An MSI-X message issued to the host: vector, address, data (R438, R510). -/
structure MsixMsg where
  vector : Nat
  addr : Nat
  data : Nat
deriving DecidableEq, Repr

/-- The event controller (16): source states, deferred configuration writes, priority stacks (top first), frozen
targets, the merge count EVC_MERGED, the pending-bit array of R510, the messages issued, and the pin levels that the edge
detectors saw last. -/
structure Evc where
  src : Tab SrcState
  deferred : Tab (Option Word)
  stack : Tab (List (Nat × Nat))
  frozen : Tab Bool
  merged : Nat
  pba : Nat
  msix : List MsixMsg
  seen : BitVec 16
deriving DecidableEq, Repr

/-- Token kinds (R196); 5 to 15 are never formed. -/
inductive TokKind where
  | audio | param | event | control | move
deriving DecidableEq, Repr

/-- A token: payload, sample tag, channel tag, kind (R196). -/
structure Token where
  kind : TokKind
  stag : Nat
  ctag : Nat
  payload : Word
deriving DecidableEq, Repr

/-- The fields of STAT but ldepth, which is the depth of the loop stack (R226). -/
structure Stat where
  z : Bool
  n : Bool
  c : Bool
  v : Bool
  sat : Bool
  ie : Bool
  trap : Bool
  annul : Bool
  wcur : Nat
  wres : Nat
  frame : Nat
deriving DecidableEq, Repr

/-- A loop stack entry: start, end, passes left after the current one, and the trap and frame of the push (R242). -/
structure LoopEnt where
  start : Nat
  stop : Nat
  left : Nat
  trap : Bool
  frame : Nat
deriving DecidableEq, Repr

/-- A store buffer entry (R238). -/
structure SbEnt where
  addr : Nat
  size : LocSize
  data : Word
deriving DecidableEq, Repr

/-- A pending parameter slot (R252): active and shadow value, changed flag, ZCSTEP policy, zc-pending. -/
structure Slot where
  act : Word
  sh : Word
  changed : Bool
  zc : Bool
  zcPend : Bool
deriving DecidableEq, Repr

/-- The Assist operation in flight: its result and flags, and whether it has been squashed (R239, R240). -/
structure AssistOp where
  result : Word
  dz : Bool
  dom : Bool
  squashed : Bool
deriving DecidableEq, Repr

/-- The Pace monitor's state behind its registers (R33 to R35): whether an arrival has come since the enable, the tick at
which the work ended, the steps of the work, and the arrivals of the window. -/
structure Pace where
  started : Bool
  ended : Option Nat
  steps : Nat
  arrivals : Nat
deriving DecidableEq, Repr

/-- One Hearth (08). -/
structure Hearth where
  pc : Nat
  npc : Nat
  stat : Stat
  inSlot : Bool
  g : Tab Word
  acc : Tab (BitVec 80)
  accOld : Option (Tab (BitVec 80))
  loadSh : Option (Nat × Word)
  ptr : Tab Word
  spc : Nat
  snpc : Nat
  sstat : Word
  xpc : Nat
  xnpc : Nat
  xstat : Word
  xcause : Nat
  xval : Word
  xinfo : Nat
  spill : Nat
  asr : Word
  dz : Bool
  dom : Bool
  assist : Option AssistOp
  exp : BitVec 8
  ctag : Nat
  rally : Word
  latch : Option Nat
  loops : List LoopEnt
  sb : List SbEnt
  q : Tab (List Token)
  out : List Token
  paramIn : List Token
  ctlIn : List Token
  ram : Tab Byte
  ramErr : Tab Nat
  prog : Tab Word
  progBad : Tab Bool
  slots : Tab Slot
  armed : Option (Nat × Nat)
  zcSign : Tab Bool
  zcLeft : Nat
  zcDue : Bool
  imprecise : Option (Nat × Option Resp)
  stalled : Option Instr
  sent : Bool
  pcFresh : Bool
  haltDue : Bool
  bpSkip : Bool
  stepping : Bool
  wpHit : Option Nat
  pace : Pace
deriving DecidableEq, Repr

/-- An access of a master: address, size, the data of a write, and whether it enables every byte of its size (R506: a PCIe DW
may not). -/
structure Access where
  addr : Nat
  size : AccSize
  write : Option (BitVec 64)
  full : Bool
deriving DecidableEq, Repr

/-- Who takes the answer of an access that need not complete as it is issued: nobody, a Hearth whose instruction waits for it,
an access of a Hearth that is on the move plane (by its number), the boot ROM, or a host job (PCIe, QSPI, TAP, or a remote
engine's request by its tag). -/
inductive Waiter where
  | nobody
  | load (n : Nat)
  | move (n k : Nat)
  | rom
  | pcie
  | qspi
  | jtag
  | remote (engine tag : Nat)
deriving DecidableEq, Repr

/-- How far an access of a Hearth has come on the move plane (R196, R229): its command and data tokens are still to reach the
memory station; its target has it and has not answered; a word of a MOVE is on its way to the station of its destination; or the
answer's tokens are still to reach the Hearth. -/
inductive MoveStage where
  | going (left : Nat)
  | held
  | copying (v : BitVec 64)
  | back (left : Nat) (r : Reply)
deriving DecidableEq, Repr

/-- An access of a Hearth on the move plane: its number, the access (of a MOVE the current source word), for a MOVE the current
destination word, the words left with that one and the first source word that was uncorrectable, whether an instruction waits
for it, and how far it has come. -/
structure MoveOp where
  id : Nat
  acc : Access
  copy : Option (Nat × Nat × Option Nat)
  waits : Bool
  stage : MoveStage
deriving DecidableEq, Repr

/-- A token held at a router input: its bank, and once it has been routed the outputs that still wait for a copy (R201,
R205). -/
structure FTok where
  tok : Token
  bank : Bool
  outs : Option (List FPort)
deriving DecidableEq, Repr

/-- The Flue (07): router inputs of both planes, the tokens that stations hold for injection and the tokens that
reached stations of the sample plane, the move-plane tokens that each Hearth holds for injection, each Hearth's accesses on the
move plane in order of issue, the input that each output served last (R203), the route tables of both banks, the outputs at
which the head of an input has been counted as stalled (R216), whether an armed swap's key lay in the past, and whether a swap is
due at this Rally instant, and late (R207). -/
structure Flue where
  bufs : Tab (List FTok)
  outbox : Tab (List Token)
  inbox : Tab (List Token)
  mout : Tab (List Token)
  moves : Tab (List MoveOp)
  served : Tab Nat
  routes : Tab Nat
  stallSeen : Tab (List FPort)
  swapLate : Bool
  swapDue : Option Bool
deriving DecidableEq, Repr

/-- The PCIe endpoint's configuration bits (R508, R510) and power state (R509). -/
structure Pcie where
  memEn : Bool
  busMaster : Bool
  msixEn : Bool
  funcMask : Bool
  d3hot : Bool
deriving DecidableEq, Repr

/-- Pulses in progress on a GPIO: high-going and low-going (R130, R521). -/
structure Pulses where
  high : Nat
  low : Nat
deriving DecidableEq, Repr

/-- What drives the pins from outside: the GPIO levels and the pulses on them, PFAIL_N, PCIE_PERST_N, the straps
BOOT_MODE1–0, FLASH_OCT and SAPV3–0; and the temperature alarm of R500. -/
structure Pins where
  gpio : Word
  pulses : Tab Pulses
  pfailLow : Bool
  perstLow : Bool
  bootMode : Nat
  flashOct : Bool
  sapv : Nat
  viosap : Tab Nat
  bankOff : Nat
  tempAlarm : Bool
deriving DecidableEq, Repr

/-- A completion that the PCIe endpoint returned (R49, R506): 0 successful, 1 Unsupported Request, 2 Completer Abort. -/
structure PcieCpl where
  status : Nat
  data : List Byte
deriving DecidableEq, Repr

/-- The host interfaces behind their registers (19): the UART FIFOs, oldest first, and the bytes it has sent; the answers of
QSPI frames; the PCIe completions returned; the TAP's instruction, and the status, response and data of the last debug
access; and whether asserted lines send their messages when MSI-X is next enabled (R510). -/
structure Hif where
  uartTx : List Byte
  uartRx : List Byte
  uartOut : List Byte
  qspiOut : List (List Byte)
  cpls : List PcieCpl
  tapIr : Nat
  dbgStat : Nat
  dbgResp : Nat
  dbgData : Word
  resend : Bool
deriving DecidableEq, Repr

/-- An RSG candidate (R80, R85 to R89): seen since reset, evaluations present in a row, qualification (0 unproven, 1
qualified, 2 disqualified), inside WARN at the last evaluation, evaluations in a row out and inside WARN, and the 1 s
offsets of the last second, newest first; and of PTP and MEDIUM the 10 ms readings of that time, newest first. -/
structure RsgCand where
  seen : Bool
  pres : Nat
  qual : Nat
  inside : Bool
  outSpan : Nat
  okSpan : Nat
  past : List Int
  recent : List Int
deriving DecidableEq, Repr

/-- The ranges that w and T_now have kept to in the second that runs (R96). -/
structure RsgSpan where
  wLo : Int
  wHi : Int
  tLo : Int
  tHi : Int
deriving DecidableEq, Repr

/-- A history entry (R96): mean w, mean temperature in 1/16 °C, RTC count at the middle of the second. -/
structure HistEnt where
  w : Int
  temp : Int
  rtc : Nat
deriving DecidableEq, Repr

/-- The RSG behind its registers (03): w, w_hold, the value w moves to, whether the MEDIUM slew limit is still in force
after a MEDIUM candidate (R78), the candidates, the priority table in force (R84), the history (newest first), the
evaluations in a row within the lock window, whether RSG_TEMP_EXT is stale (R100), and the edges of each word clock in the
10 ms window (R79); the largest phase against the Rally schedule since the last evaluation (R93), and the ranges of w and T_now in
the present second. -/
structure Rsg where
  w : Int
  wHold : Int
  target : Int
  medSlew : Bool
  cands : Tab RsgCand
  table : Tab Word
  hist : List HistEnt
  lockSpan : Nat
  extStale : Bool
  wclk : Tab Nat
  phase : Nat
  span : Option RsgSpan
deriving DecidableEq, Repr

/-- A PTP servo behind its registers (04 R107 to R116): the parent port identity in force, accepted path delays (newest
first), Syncs in a row inside lock_win and beyond unlock_win, o_d in ns, the last sequence ID, a two-step Sync that waits
for its Follow_Up (sequence, correction, receive time), the last complete Sync (send time with corrections, receive
time), the outstanding request (sequence, transmit time), and a two-step Pdelay_Resp that waits for its follow-up
(sequence, t2, correction, t4). Corrections are in 1/65536 ns. -/
structure Servo where
  parent : Nat
  delays : List Int
  inWin : Nat
  outWin : Nat
  offs : Int
  seq : Nat
  sync : Option (Nat × Int × Int)
  last : Option (Int × Int)
  req : Option (Nat × Int)
  resp : Option (Nat × Int × Int × Int)
deriving DecidableEq, Repr

/-- A time trigger (04 R128 to R131): its latched key (a count, or ns), whether the key lay in the past when it was latched
or was stepped over, and for a Rally key whether a firing is due, and late. -/
structure Trig where
  key : Nat
  late : Bool
  due : Option Bool
deriving DecidableEq, Repr

/-- A capture (R133): TOD in ns, RALLY_COUNT, phase and edge. -/
structure CapEnt where
  ns : Nat
  rally : Nat
  phase : Nat
  rising : Bool
deriving DecidableEq, Repr

/-- A capture input: its FIFO, oldest first, and the shadow (R134). -/
structure Cap where
  fifo : List CapEnt
  shadow : CapEnt
deriving DecidableEq, Repr

/-- A PTP message that the TSU forms (R107, R108): a request of servo d, or the answer to a Pdelay_Req for servo d's domain, with
the transport, sequence ID, receive time, correctionField and port identity of the request. -/
inductive PtpFrame where
  | delayReq (d seq : Nat)
  | pdelayReq (d seq : Nat)
  | pdelayResp (d : Nat) (udp : Bool) (seq : Nat) (rx corr : Int) (who : Nat)
deriving DecidableEq, Repr

/-- The TSU behind its registers (04): TOD in ns and in fractions of 1/20,000,000,000 ns, the elapsed fraction of the Ts in
1/2,000,000,000,000,000,000,000, TSU_RALLY_OFFSET and
TSU_DEUCE_OFFSET in ns, the fractions that a rebase and a SLEW have moved, in 1/1,000,000 ns, whether a realign takes
place at the next Rally instant (R126), the servos, triggers and captures, and the PTP frames that wait on each MAC. -/
structure Tsu where
  ns : Nat
  sub : Nat
  frac : Nat
  rallyOffs : Int
  deuceOffs : Int
  rebaseAcc : Nat
  slewAcc : Nat
  realign : Bool
  servos : Tab Servo
  trigs : Tab Trig
  caps : Tab Cap
  ptpTx : Tab (List PtpFrame)
deriving DecidableEq, Repr

/-- The scrubber's running pass (11 R321 to R324): words read, corrected and uncorrectable, and the lowest and highest
uncorrectable address. -/
structure Scrub where
  checked : Nat
  corr : Nat
  unc : Nat
  first : Option Nat
  last : Option Nat
deriving DecidableEq, Repr

/-- What is done with the answers of a row of accesses: nothing; the completion of a PCIe request, with a status that is
settled before any access or 0, unless an endpoint reset discarded it (R506, R509); a QSPI frame's words, unless it was abandoned (R514); the debug access register of the TAP (R516);
or the completion of a remote request with its tag, by the port it came in at (R425, R63). -/
inductive JobEnd where
  | plain
  | pcie (write : Bool) (status : Nat) (discard : Bool)
  | qspiRead (abandoned : Bool)
  | qspiWrite
  | jtag
  | remote (port engine tag : Nat)
deriving DecidableEq, Repr

/-- A row of accesses that a master makes in order: its MID, the accesses that are left, whether the first of them has been
issued and its answer is awaited, the answers so far with their sizes, newest first, and what is done with them. -/
structure Job where
  mid : Nat
  left : List Access
  out : Bool
  got : List (AccSize × Reply)
  fin : JobEnd
deriving DecidableEq, Repr

/-- What the Keeper has asked of the flash: the erase of n bytes, or a program (R453). -/
inductive FlashOp where
  | erase (a n : Nat)
  | program (a : Nat) (d : List Byte)
deriving DecidableEq, Repr

/-- The Keeper's running command behind SKP_CMD and SKP_STAT (R457 to R465): whether it has begun, the slot it reads or
writes (true for B), that slot's generation, payload length and CRC, whether LOAD has fallen back and whether neither slot
was higher, the next page, pair or sector, the running CRC, the flash operation in progress and its polls, and the result
with which the command ends once that is over. -/
structure SkpJob where
  begun : Bool
  slot : Bool
  gen : Nat
  len : Nat
  pcrc : Nat
  fell : Bool
  tie : Bool
  unit : Nat
  crc : Nat
  op : Option FlashOp
  polls : Nat
  stop : Option Nat
deriving DecidableEq, Repr

/-- The boot ROM on Hearth 0 (R466 to R472): not begun since reset, waiting for go, with a write of a load record out (the code of
its source, the entry address, and the writes that follow it), halted after a failure, or handed over. -/
inductive RomSt where
  | idle
  | waiting
  | applying (source entry : Nat) (left : List (Nat × Word))
  | halted
  | done
deriving DecidableEq, Repr

/-- The Keeper: the flash, the running command, the boot ROM, and the OTP program in progress (word, value). -/
structure Skp where
  flash : Tab Byte
  job : Option SkpJob
  rom : RomSt
  otpProg : Option (Nat × Word)
deriving DecidableEq, Repr

/-- Rails: on, stepping down, asleep in STANDBY or OFF, or powering up (R484). -/
inductive PwrMode where
  | on | down | asleep | up
deriving DecidableEq, Repr

/-- The Rally extrapolator (R497 to R499): the Rally positions at the ticks of the window, in 1/256 Ts and newest first, the
Rally instants counted, the family and mult of the last measurement, and the snapshot: count and RTC time in 1/65536
tick. -/
structure Xp where
  hist : List Nat
  inst : Nat
  fam : Nat
  r0 : Nat
  t0 : Nat
deriving DecidableEq, Repr

/-- Power and the Ember behind their registers (18): the rails; the state the engine is in or left and the one it moves to,
in the codes of EMB_CAUSE.from; whether a Rally instant has come since go; whether keyed actions wait for the first Rally
instant after LIGHT (R480); the ports that ran at the entry into LIGHT; the latched watch hit; the PWR_EN outputs still to be
changed and the levels of all four; whether the wake is that of a VAON power-on; a system reset held by RESET_N, and by
PCIE_PERST_N; XO lost (R558); the RTC, its fraction at the last Rally instant in 1/65536 tick, and the alarm; the
extrapolator. -/
structure Pwr where
  mode : PwrMode
  level : Nat
  target : Nat
  due : Bool
  hold : Bool
  ports : List Nat
  hit : Option Nat
  seq : List Nat
  en : Nat
  vaon : Bool
  pinReset : Bool
  perstReset : Bool
  xoLost : Bool
  rtc : Nat
  rtcSub : Nat
  alarm : Nat
  xp : Xp
deriving DecidableEq, Repr

/-- A frame in the elastic buffer of STEERING mode: its words, and the input map at its start (R145, R161). -/
structure BufFrame where
  imap : Tab Word
  words : List Word
deriving DecidableEq, Repr

/-- A transmitted subframe: its preamble, or the mode bits of a MADI subframe, and the 28 bits after it (R152, R153). -/
structure TxSub where
  head : Nat
  body : Nat
deriving DecidableEq, Repr

/-- A port behind its registers (05). Input side: whether a frame has been named, the names of this frame and of the one
before, frames since the start, whether this frame is dropped or repeats, whether a stopped port still ends its output
frames, the maps in force and the output map that waits for a load point of slot 0 (R145), the words of the last frame,
frames that wait for port DMA, the elastic buffer, and the frame last read out of it (R161). Output side: substitute and tag
offset in force (R146), holding registers, last words for HOLD, words on the wire, the number of the last frame loaded by each
slot, the frame whose FSO edge came last, frames read by port DMA. Receivers: preamble errors in a row, biphase violations
and frames of the block, the captured channel-status and user bits, channels seen. Transmitters: frames into the block, a
commit that waits, the block sent, the subframes last sent, the MADI channels that fit in this frame, the line levels of the
last one. DMA frames of each direction since the enable. The ratio trackers: output samples since each locked, and their
ratios (R163). -/
structure Port where
  named : Bool
  cur : Nat
  prev : Nat
  seq : Nat
  dropped : Bool
  repeated : Bool
  ending : Bool
  imap : Tab Word
  omap : Tab Word
  omapNext : Option (Tab Word)
  words : Tab Word
  dmaIn : List (Nat × List Word)
  fifo : List BufFrame
  steerLast : BufFrame
  substZero : Bool
  tagOffs : Nat
  hold : Tab (Option Word)
  last : Tab Word
  wire : Tab Word
  loaded : Tab Nat
  outName : Option Nat
  dmaOut : List (Nat × List Word)
  badPre : Nat
  viol : Nat
  block : Option Nat
  csA : Nat
  csB : Nat
  uA : Nat
  uB : Nat
  chans : Nat
  txFrame : Nat
  commit : Bool
  txCs : Nat
  subs : Tab TxSub
  sent : Nat
  line : List Bool
  inFrames : Nat
  outFrames : Nat
  fadeIn : Nat
  fadeOut : Nat
  ratioIn : Word
  ratioOut : Word
deriving DecidableEq, Repr

/-- A receive stream behind its registers (06 R176 to R184): the last frame read out, frames that have arrived, the
mapping of STEERING mode, the newest frame written, and the last sequence number of each leg. -/
structure RxStream where
  last : Nat
  marks : List Nat
  map : Option Int
  newest : Option Nat
  seq0 : Option Nat
  seq1 : Option Nat
  frames : Nat
deriving DecidableEq, Repr

/-- A transmit stream behind its registers (R185 to R188): holding registers and last words by channel, the last sample
loaded (with a DMA source, the count at its start), and the packet under way: its first sample and its samples, newest first. -/
structure TxStream where
  hold : Tab (Option Word)
  last : Tab Word
  loaded : Option Nat
  pkt : Option (Nat × List (List Word))
deriving DecidableEq, Repr

/-- The NET block behind its registers (06): streams, the media queue of each MAC, and the frames that each MAC has sent, oldest
first, with their FCS. -/
structure Net where
  rx : Tab RxStream
  tx : Tab TxStream
  mediaQ : Tab (List (List Byte))
  out : Tab (List (List Byte))
deriving DecidableEq, Repr

/-- What a Chimney port has put on its link: a packet, or the acknowledgement field of an ACK block (R402). -/
inductive ChmWire where
  | packet (p : ChmPacket)
  | ack (field : BitVec 16)
deriving DecidableEq, Repr

/-- A packet of the send buffer and how often it has been resent (R423). -/
structure ChmSent where
  pkt : ChmPacket
  resent : Nat
deriving DecidableEq, Repr

/-- A packet that has still to go out, and the arriving groups (port, group) for whose CRC its END waits (R419). -/
structure ChmWait where
  pkt : ChmPacket
  needs : List (Nat × Nat)
deriving DecidableEq, Repr

/-- A forwarded word (R419): the word, the sample tag of its group, the port and group that it arrived in, and whether that group
failed, once its CRC has come. -/
structure ChmFwd where
  word : Word
  tag : Nat
  group : Nat × Nat
  bad : Option Bool
deriving DecidableEq, Repr

/-- A Chimney port behind its registers (15). Line: block lock, valid headers in a row, and the last headers (true for an
invalid one, newest first). Lets: next seq to send, send buffer, packets that have still to go out, next seq expected, whether a
packet has arrived, and whether a NAK is out. Training: when the last TRAINs were sent, newest first, the number of the last one,
when one arrived and its number, in ticks of the 400 MHz time base, delays measured in a row in 1/4 ns, newest first, and the end
of a wake (R430). The candidate that the neighbour named (priority, serial number, ENGINE_ID) and its distance in links. Slots:
held words, last words, forwarded words, the sample tag that each forwarded slot had last, and whether its word was missing, the
Rally count at which each group was last sent, groups that arrived in time, the tag of a group that missed its deadline, the last
words received, the group that is arriving with its data blocks filed so far, and the tokens of the groups formed, newest first.
What the port has sent: packets, and the blocks of the line with the last 31 bits of the scrambler, newest lowest. -/
structure ChmPort where
  lock : Bool
  run : Nat
  hdrs : List Bool
  txSeq : Nat
  buf : List ChmSent
  wait : List ChmWait
  rxSeq : Nat
  rxAny : Bool
  naked : Bool
  sentAt : List Nat
  trainNo : Nat
  gotAt : Option Nat
  gotNo : Nat
  meas : List Int
  wakeEnd : Nat
  cand : Option (Nat × Nat × Nat)
  candHops : Nat
  hold : Tab (Option Word)
  last : Tab Word
  fwd : Tab (Option ChmFwd)
  fwdTag : Tab (Option (Nat × Bool))
  groupAt : Tab (Option Nat)
  got : Tab Bool
  missed : Tab (Option Nat)
  rxLast : Tab Word
  part : Option (Nat × Nat)
  sizes : List Nat
  sent : List ChmWire
  lane : List (BitVec 66)
  scr : BitVec 31
deriving DecidableEq, Repr

/-- A request tag (R428): free, outstanding for a master's access, or quarantined. -/
inductive ChmTag where
  | free
  | busy (mid : Nat) (write : Bool) (who : Waiter)
  | quarantined
deriving DecidableEq, Repr

/-- A remote access that waits for a tag (R428): master, engine, address, the word of a write, and who takes its answer. -/
structure ChmReq where
  mid : Nat
  engine : Nat
  addr : Nat
  write : Option Word
  who : Waiter
deriving DecidableEq, Repr

/-- The Chimney behind its registers (15): ports; CTRL packets delivered to this engine, oldest first, with the port of
arrival; the TGT and ADDR words of each MID; tags and waiting requests; the active and shadow slot tables; the MID that
armed a load, whether the shadow is loaded, whether the key lay in the past, and whether a swap is due, and late; links
elsewhere known not to be UP; the leader (priority, serial number, ENGINE_ID) and the beacon periods since the election's
last change; the whole Ts of a realign that waits; Rally frames in a row within 50 ns, Ts in Rally lock, Ts since the last
Rally frame; the trim term in 1/14,112 of a unit of w (R413); and the serial number of the engine that claims this ID too, where
it is known (R410). -/
structure Chm where
  ports : Tab ChmPort
  ctrlIn : List (Nat × ChmPacket)
  raTgt : Tab Word
  raAddr : Tab Word
  tags : Tab ChmTag
  raWait : List ChmReq
  mapAct : Tab Word
  mapShadow : Tab Word
  mapMid : Nat
  mapLoaded : Bool
  mapLate : Bool
  mapDue : Option Bool
  downLinks : List (Nat × Nat)
  leader : Option (Nat × Nat × Nat)
  stable : Nat
  realign : Option Int
  lockSpan : Nat
  lockTs : Nat
  missTs : Nat
  trim : Int
  dupWith : Option Nat
deriving DecidableEq, Repr

/-- A value of the Damper's commit queue: parameter, value, rank and MID of its writer (R340). -/
structure DmpVal where
  param : Nat
  value : Word
  rank : Nat
  mid : Nat
deriving DecidableEq, Repr

/-- An item of the commit queue (R337): the count that it named and the count in force; for a Kickoff its set and the
issuer and sequence number of its report; its values in order; whether a parameter of it has been dropped; and for a direct
write who takes its answer. -/
structure DmpItem where
  asked : Nat
  n : Nat
  kick : Option Nat
  report : Option (Nat × Nat)
  vals : List DmpVal
  bad : Bool
  who : Waiter
deriving DecidableEq, Repr

/-- A group in delivery: its count, its items, the values that are still to be sent, each with the place of its item, and the
Hearths that have theirs. -/
structure DmpDelivery where
  n : Nat
  items : List DmpItem
  vals : List (Nat × DmpVal)
  served : List Nat
deriving DecidableEq, Repr

/-- The Damper behind its registers (12): the words that it keeps for each MID, the open items in arrival order, closed
groups (count and items, their values those that won), the delivery in progress, the highest count whose delivery has
begun, and the count that the last ARM to each Hearth named. -/
structure Dmp where
  wrParam : Tab Word
  wrAt : Tab Word
  kickLo : Tab Word
  items : List DmpItem
  closed : List (Nat × List DmpItem)
  delivery : Option DmpDelivery
  begun : Option Nat
  lastArm : Tab (Option Nat)
deriving DecidableEq, Repr

/-- A filtered input (R354): the level of the pin, and how many slots in a row it has differed from the accepted level. -/
structure Filt where
  pin : Bool
  slots : Nat
deriving DecidableEq, Repr

/-- A transport behind its registers (13): position (signed), the tracked extreme (R361), accepted levels of A, B, IDX and DIR and
the filter of each, net counts of this ms and of the last ten, newest first, speed updates in a row below thr, the values latched
at the Rally instant (position, direction, STALL, spool), whether the position has been loaded since the last pass (R348); the LTC
reader's frame in force and whether one good frame has been seen; and the generator: running, start due (and
late), address of the frame in progress, and user bits in force. -/
structure Trans where
  pos : Int
  extreme : Int
  a : Bool
  b : Bool
  idx : Bool
  dirPin : Bool
  filtA : Filt
  filtB : Filt
  filtI : Filt
  filtD : Filt
  acc : Int
  past : List Int
  lowFor : Nat
  latPos : Int
  latRev : Bool
  latStall : Bool
  latSpool : Bool
  loaded : Bool
  ltcSeen : Bool
  ltc : List Word
  genOn : Bool
  genDue : Option Bool
  genTc : Word
  genUb : Word
deriving DecidableEq, Repr

/-- A GATE request of the cue engine (R353, R368): gate, transport of the cue, open. -/
structure GateReq where
  gate : Nat
  transport : Nat
  openIt : Bool
deriving DecidableEq, Repr

/-- The MIF: transports, the lead position of each gate latched at the Rally instant (R365), gate requests in order, and frames
that the LTC generators have started (transport, the 80 bits), oldest first. -/
structure Mif where
  trans : Tab Trans
  leads : Tab Int
  gateReqs : List GateReq
  ltcOut : List (Nat × BitVec 80)
deriving DecidableEq, Repr

/-- A cue (12): its key registers in force, BELOW or ABOVE, the state held since a stall began, whether a time cue has fired
and whether its key was past when it was initialised. -/
structure CueSt where
  lo : Word
  hi : Word
  above : Bool
  held : Option Bool
  fired : Bool
  late : Bool
deriving DecidableEq, Repr

/-- The cue engine behind its registers: cues, the firing log, oldest first, and whether a pass of time cues is requested. -/
structure CueEng where
  cues : Tab CueSt
  log : List Word
  evalNow : Bool
deriving DecidableEq, Repr

/-- A loop stack entry of a lane: body start, end, and passes left with the current one (R382). -/
structure BelLoop where
  start : Nat
  stop : Nat
  left : Nat
deriving DecidableEq, Repr

/-- A lane of the Bellows (14): program, data words and keeps, with the places whose parity is wrong; registers; loop stack;
PC; the loop of the current run, its steps and the count of its tick event; the count of each pending loop's tick event;
runs of each loop, trigger ticks since the lane was reset and when the last one came; the latches; mailboxes (payload,
fresh); and whether a breakpoint is passed over and a debug step is under way. -/
structure Lane where
  prog : Tab Word
  data : Tab (BitVec 16)
  keep : Tab (BitVec 40)
  progBad : Tab Bool
  dataBad : Tab Bool
  keepBad : Tab Bool
  x : Tab (BitVec 16)
  a : Tab (BitVec 40)
  loops : List BelLoop
  pc : Nat
  run : Option Nat
  steps : Nat
  rally : Nat
  due : Tab Nat
  runs : Tab Word
  trigs : Nat
  trigAt : Option (Nat × Nat)
  txh : Tab (BitVec 16)
  evth : BitVec 16
  midx : Nat
  mbox : Tab (Word × Bool)
  bpSkip : Bool
  stepping : Bool
deriving DecidableEq, Repr

/-- A servo SPI master: the transfers accepted, in order, the one in progress, each select's last received word, and what
has been sent (select, word). -/
structure BelSpi where
  queue : List (Nat × Word)
  busy : Option (Nat × Word)
  rx : Tab Word
  sent : List (Nat × Word)
deriving DecidableEq, Repr

/-- A PWM output's timing in 10 ns slots (R390): when its counter started, until when a pair's dead time keeps it inactive, when
it last turned inactive, and the compare value that the present slot still has from before an OUT, with that slot. -/
structure Pwm where
  start : Nat
  deadEnd : Nat
  offAt : Option Nat
  before : Option (Nat × Nat)
deriving DecidableEq, Repr

/-- An encoder's accepted levels of A, B and I and the filter of each (R389). -/
structure Enc where
  a : Bool
  b : Bool
  idx : Bool
  filtA : Filt
  filtB : Filt
  filtI : Filt
deriving DecidableEq, Repr

/-- The Bellows: lanes, the encoders' inputs, PWM timing, SPI masters, and the keep select,
stage and shadow of each MID and lane (R398). -/
structure Bel where
  lanes : Tab Lane
  enc : Tab Enc
  pwm : Tab Pwm
  spi : Tab BelSpi
  ksel : Tab Nat
  kstage : Tab Word
  kshadow : Tab (BitVec 40)
deriving DecidableEq, Repr

structure State where
  regs : Tab Word
  replies : Tab Reply
  fences : Tab FenceSum
  wide : Tab Wide
  balls : Tab Ball
  evc : Evc
  hearths : Tab Hearth
  flue : Flue
  rallyCount : Nat
  rsg : Rsg
  tsu : Tsu
  mantel : Tab Byte
  flips : Tab Nat
  scrub : Scrub
  ports : Tab Port
  net : Net
  chm : Chm
  dmp : Dmp
  mif : Mif
  cue : CueEng
  bel : Bel
  skp : Skp
  pwr : Pwr
  hif : Hif
  jobs : List Job
  answers : List (Waiter × Reply)
  pcie : Pcie
  pins : Pins
  otp : Tab Word
  freeCtr : Nat
  now : Nat
  pending : List Instr
deriving DecidableEq, Repr

/-- The machine right after reset: after a VAON power-on whose rails have come up (R488), with the straps low and the clear
of R326 still to run. Registers read their reset values, and every table its default. DESIGN CHOICE, log entry 2. -/
def State.reset : State where
  regs := []
  replies := []
  fences := []
  wide := []
  balls := []
  evc := ⟨[], [], [], [], 0, 0, [], 0⟩
  hearths := []
  flue := ⟨[], [], [], [], [], [], [], [], false, none⟩
  rallyCount := 0
  rsg := ⟨0, 0, 0, false, [], [], [], 0, false, [], 0, none⟩
  tsu := ⟨0, 0, 0, 0, 0, 0, 0, false, [], [], [], []⟩
  mantel := []
  flips := []
  scrub := ⟨0, 0, 0, none, none⟩
  ports := []
  net := ⟨[], [], [], []⟩
  chm := ⟨[], [], [], [], [], [], [], [], 0, false, false, none, [], none, 0, none, 0, 0, 0, 0, none⟩
  dmp := ⟨[], [], [], [], [], none, none, []⟩
  mif := ⟨[], [], [], []⟩
  cue := ⟨[], [], false⟩
  bel := ⟨[], [], [], [], [], [], []⟩
  skp := ⟨[], none, .idle, none⟩
  pwr := ⟨.on, 0, 0, false, false, [], none, [], 11, false, false, false, false, 0, 0, 0, ⟨[], 0, 0, 0, 0⟩⟩
  hif := ⟨[], [], [], [], [], 2, 0, 0, 0, false⟩
  jobs := []
  answers := []
  pcie := ⟨false, false, false, false, false⟩
  pins := ⟨0, [], false, false, 0, false, 0, [], 0, false⟩
  otp := [(0, 1)]
  freeCtr := 0
  now := 0
  pending := []

/-- No command stops on a fault, and no meaning raises one: an error is a response, a status bit or an event of the block. -/
inductive Fault where
deriving DecidableEq, Repr

/-- Why a command has no meaning. -/
inductive Refusal where
  /-- Raised by an arm of Dispatch.lean for a row without a meaning, and by nothing else; every row has one, so no state raises
  it. It would be safe: it stops where the hardware goes on. -/
  | notModelled (mnemonic : String)
deriving DecidableEq, Repr

end Sys2Proof.Machine
end

