-- ==== Sys2Proof/Machine/Ops.lean ====
section
/-! DEFINITION. The named operations over registers, replies, counters and event sources that every meaning uses. -/

namespace Sys2Proof.Machine

/-! ### Bit fields -/

/-- The value of a field of a word. -/
def Fld.get (f : Fld) (w : Word) : Nat := w.toNat / 2 ^ f.lo % 2 ^ (f.hi + 1 - f.lo)

/-- The word with a field replaced; only the field's own bits of `v` count. -/
def Fld.set (f : Fld) (w : Word) (v : Nat) : Word :=
  BitVec.ofNat 32 (w.toNat - f.get w * 2 ^ f.lo + v % 2 ^ (f.hi + 1 - f.lo) * 2 ^ f.lo)

/-- Bit `i` of a number. -/
def bitOf (n i : Nat) : Bool := n / 2 ^ i % 2 = 1

/-- The number of a truth value. -/
def b2n (b : Bool) : Nat := if b then 1 else 0

/-- A two's complement reading of the low `n` bits. -/
def signed (n v : Nat) : Int :=
  let m := v % 2 ^ n
  if m < 2 ^ (n - 1) then (m : Int) else (m : Int) - (2 ^ n : Nat)

/-- The low `n` bits of an integer. -/
def wrapInt (n : Nat) (x : Int) : Nat := (x % ((2 ^ n : Nat) : Int)).toNat

/-- An integer limited to the two's complement range of `n` bits. -/
def clampInt (n : Nat) (x : Int) : Int :=
  if x < -((2 ^ (n - 1) : Nat) : Int) then -((2 ^ (n - 1) : Nat) : Int)
  else if x > ((2 ^ (n - 1) : Nat) : Int) - 1 then ((2 ^ (n - 1) : Nat) : Int) - 1 else x

/-- An integer limited to an interval. -/
def limitInt (lo hi x : Int) : Int := if x < lo then lo else if x > hi then hi else x

/-! ### Responses -/

/-- The code of a response (R47). -/
def respCode : Resp → Nat
  | .ok => 0
  | .slverr => 1
  | .decerr => 2
  | .perm => 3
  | .ecc => 4
  | .timeout => 5
  | .superseded => 6

/-- Error responses are SLVERR, DECERR, PERM, ECC and TIMEOUT (R47). -/
def respErr : Resp → Bool
  | .ok => false
  | .superseded => false
  | _ => true

/-- The size code of SYS_VIOL_INFO. -/
def sizeCode : AccSize → Nat
  | .b8 => 0
  | .b16 => 1
  | .b32 => 2
  | .b64 => 3

/-- The bytes of an access. -/
def sizeBytes : AccSize → Nat
  | .b8 => 1
  | .b16 => 2
  | .b32 => 4
  | .b64 => 8

/-! ### Registers -/

/-- The register at an engine address. -/
def State.reg (s : State) (a : Nat) : Word := tabGet regReset s.regs a

/-- Hardware sets a register. -/
def State.setReg (s : State) (a : Nat) (v : Word) : State := { s with regs := tabSet regReset s.regs a v }

/-- A field of a register. -/
def State.fld (s : State) (a : Nat) (f : Fld) : Nat := f.get (s.reg a)

/-- Hardware sets a field of a register. -/
def State.setFld (s : State) (a : Nat) (f : Fld) (v : Nat) : State := s.setReg a (f.set (s.reg a) v)

/-- A one-bit field. -/
def State.bit (s : State) (a : Nat) (f : Fld) : Bool := s.fld a f != 0

/-- A count that stays at its field's largest value (the RC counts of the spec saturate). -/
def State.bumpBy (s : State) (a : Nat) (f : Fld) (n : Nat) : State :=
  s.setFld a f (min (s.fld a f + n) (2 ^ (f.hi + 1 - f.lo) - 1))

/-- One more of such a count. -/
def State.bump (s : State) (a : Nat) (f : Fld) : State := s.bumpBy a f 1

/-- The whole register as one field. -/
abbrev whole : Fld := ⟨31, 0⟩

/-- Writes a field conditionally. -/
def State.setFldIf (s : State) (c : Bool) (a : Nat) (f : Fld) (v : Nat) : State :=
  if c then s.setFld a f v else s

/-! ### A plain register write and read (R9, R10) -/

/-- The word after a write of `v` to a register with no behaviour of its own: RW bits take the value, a 1 clears W1C
bits and sets W1S bits, every other bit stays. -/
def RegRow.plainWrite (r : RegRow) (old v : Word) : Word :=
  let rw := BitVec.ofNat 32 r.rw
  let w1c := BitVec.ofNat 32 r.w1c
  let w1s := BitVec.ofNat 32 r.w1s
  (((old &&& ~~~rw) ||| (v &&& rw)) &&& ~~~(v &&& w1c)) ||| (v &&& w1s)

/-- A write to a register's plain fields; a reserved offset takes nothing (R11). -/
def State.plainWrite (s : State) (a : Nat) (v : Word) : State :=
  match regRow a with
  | none => s
  | some r => s.setReg a (r.plainWrite (s.reg a) v)

/-- A read of a register with no behaviour of its own: its value, and the RC fields clear (R9). -/
def State.plainRead (s : State) (a : Nat) : Word × State :=
  match regRow a with
  | none => (0, s)
  | some r => (s.reg a, if r.rc = 0 then s else s.setReg a (s.reg a &&& ~~~BitVec.ofNat 32 r.rc))

/-! ### Free values -/

/-- A fresh value that the manual leaves open, and the state with its counter advanced. -/
def State.fresh (s : State) : BitVec 64 × State := (Config.freeValue s.freeCtr, { s with freeCtr := s.freeCtr + 1 })

/-- An exact quotient, or where it is not whole either neighbour: the manual leaves the rounding open. -/
def State.roundFree (s : State) (num : Int) (den : Nat) : Int × State :=
  if num % den = 0 then (num / den, s) else (num / den + (s.fresh.1.toNat % 2 : Nat), s.fresh.2)

/-- The signed way to a count whose low 32 bits are given, from a count that is given. Two counts lie equally near where it is
2^31; which of them is meant is not stated, and free. DESIGN CHOICE, log entry 69. -/
def State.nearLow (s : State) (count low : Nat) : Int × State :=
  let d := (low + 2 ^ 32 - count % 2 ^ 32) % 2 ^ 32
  if d = 2 ^ 31 then (if bitOf s.fresh.1.toNat 0 then 2 ^ 31 else -2 ^ 31, s.fresh.2) else (signed 32 d, s)

/-! ### Wide values (R53 to R58) -/

/-- Where a wide value is kept. -/
def wideKey : WideVal → Nat
  | .tod => 0
  | .rally => 1
  | .rtc => 2
  | .mifPos m => 3 + m.val
  | .freq => 7
  | .hold => 8
  | .rallyOffset => 9
  | .deuceOffset => 10
  | .srvOffs d => 11 + d.val
  | .leadSerial => 13
  | .causeRtc => 14
  | .xpRatio => 15
  | .xpNow => 16
  | .idxCap m => 17 + m.val
  | .idxLoad m => 21 + m.val
  | .ltci m => 25 + m.val

/-- Where the staged word of the alarm is kept (R492). -/
abbrev alarmKey : Nat := 29

def wideDefault (_ : Nat) : Wide := ⟨0, 0, 0, none⟩

def State.wideOf (s : State) (k : Nat) : Wide := tabGet wideDefault s.wide k

def State.setWide (s : State) (k : Nat) (v : Wide) : State := { s with wide := tabSet wideDefault s.wide k v }

/-- A pending load is taken (R55): the loaded value, and the state without it. -/
def State.takeLoad (s : State) (k : Nat) : Option (Nat × State) :=
  match (s.wideOf k).load with
  | none => none
  | some v => some (v, s.setWide k { s.wideOf k with load := none })

/-! ### Event sources (R432 to R435) -/

/-- An unlisted source is IDLE. -/
def srcDefault (_ : Nat) : SrcState := .idle

/-- An edge source is raised; a raise that changes nothing counts in EVC_MERGED (R435). -/
def State.raise (s : State) (n : Nat) : State :=
  match tabGet srcDefault s.evc.src n with
  | .idle => { s with evc := { s.evc with src := tabSet srcDefault s.evc.src n .pending } }
  | .active => { s with evc := { s.evc with src := tabSet srcDefault s.evc.src n .activeAgain } }
  | .pending => { s with evc := { s.evc with merged := min (s.evc.merged + 1) 0xFFFFFFFF } }
  | .activeAgain => { s with evc := { s.evc with merged := min (s.evc.merged + 1) 0xFFFFFFFF } }

/-- Raises a source when a condition holds. -/
def State.raiseIf (s : State) (c : Bool) (n : Nat) : State := if c then s.raise n else s

/-! ### Completion of an access (R47, R50, R60) -/

/-- An unlisted MID has seen no completion. -/
def replyDefault (_ : Nat) : Reply := ⟨.ok, 0⟩

/-- An unlisted MID has no write errors. -/
def fenceDefault (_ : Nat) : FenceSum := ⟨0, 0⟩

/-- The violation log takes an error response: it counts it, and captures it unless a capture is held (R50). -/
def State.logViolation (s : State) (m a : Nat) (sz : AccSize) (write : Bool) (r : Resp) : State :=
  if respErr r then
    let s := s.bump SYS_VIOL_COUNT whole
    if s.bit SYS_VIOL_INFO SYS_VIOL_INFO_valid then s
    else (s.setReg SYS_VIOL_ADDR (BitVec.ofNat 32 a)).setReg SYS_VIOL_INFO
      (BitVec.ofNat 32 (respCode r + b2n write * 2 ^ 3 + sizeCode sz * 2 ^ 4 + m * 2 ^ 8 + 2 ^ 31))
  else s

/-- The write-error summary of a MID counts a write that completed with an error (R60). -/
def State.noteWriteError (s : State) (m : Nat) (write : Bool) (r : Resp) : State :=
  if write && respErr r then
    let f := tabGet fenceDefault s.fences m
    let g : FenceSum := ⟨if f.firstErr = 0 then respCode r else f.firstErr, min (f.errCount + 1) 255⟩
    { s with fences := tabSet fenceDefault s.fences m g }
  else s

/-- An access completes with exactly one response; an error returns read data 0 (R47), is logged (R50) and is noted for
the fence (R60). The master's last reply is kept. -/
def State.complete (s : State) (m a : Nat) (sz : AccSize) (write : Bool) (r : Reply) : State :=
  let s := (s.logViolation m a sz write r.resp).noteWriteError m write r.resp
  { s with replies := tabSet replyDefault s.replies m ⟨r.resp, if respErr r.resp then 0 else r.data⟩ }

/-! ### Who may reach what (R41 to R45, R559) -/

/-- Hearth n is SUPERVISOR while its bit of SYS_HEARTH_PRIV is 1 (R232). -/
def State.hearthSup (s : State) (n : Nat) : Bool := bitOf (s.reg (SYS_HEARTH_PRIV (n / 32))).toNat (n % 32)

/-- Supervisor masters (R44); a remote engine is one while its bit of CHM_RA_ALLOW is 1 (R426). -/
def State.isSup (s : State) (m : Nat) : Bool :=
  if m < 192 then s.hearthSup m
  else if m = 0x300 ∨ m = 0x301 ∨ m = 0x302 then true
  else if 0x320 ≤ m ∧ m < 0x360 then bitOf (s.reg (CHM_RA_ALLOW ((m - 0x320) / 32))).toNat ((m - 0x320) % 32)
  else false

/-- A target lies at the address (R41). -/
def mapped (a : Nat) : Bool :=
  a < 0x00800000 || (0x01000000 ≤ a && a < 0x01C00000) || (0x02000000 ≤ a && a < 0x02120000)

/-- The block registers that a USER Hearth reaches (R45). -/
def userReg (a : Nat) : Bool :=
  a = SYS_FENCE || (0x02001000 ≤ a && a < 0x02001800)

/-- The bytes [lo, hi] lie in one enabled region of Hearth n that grants the right (R233). -/
def State.inRegion (s : State) (n lo hi : Nat) (write : Bool) : Bool :=
  (List.range 4).any fun r =>
    let b := HRT_MPR_BASE n r
    s.bit b HRT_MPR_BASE_en &&
    (if write then s.bit b HRT_MPR_BASE_w else s.bit b HRT_MPR_BASE_r) &&
    decide (s.fld b HRT_MPR_BASE_base * 64 ≤ lo) &&
    decide (hi ≤ s.fld (HRT_MPR_LIMIT n r) HRT_MPR_LIMIT_limit * 64 + 63)

/-- The rights of a master at an address (R44, R45, R233, R426, R384 and the system masters' own chapters). An access to the
Mantel acts on one aligned word (R309), and the regions are made of whole words. -/
def State.hasRight (s : State) (m a : Nat) (write : Bool) : Bool :=
  if s.isSup m then true
  else if m < 192 then
    if a < 0x00800000 then s.inRegion m (a / 8 * 8) (a / 8 * 8 + 7) write else userReg a
  else if 0x310 ≤ m ∧ m ≤ 0x316 then a < 0x00800000 || (m = 0x316 && a = RSG_TEMP_EXT)
  else false

/-- The access form is permitted (R43). -/
def formOk (a : Nat) (sz : AccSize) : Bool :=
  if a < 0x00800000 then true
  else if 0x01000000 ≤ a && a < 0x01C00000 && a % 0x10000 < 0x8000 then
    sz != .b64 && a % sizeBytes sz = 0
  else sz = .b32 && a % 4 = 0

/-- The first response that applies, in the order of R559; `.ok` when the access reaches its target. -/
def State.accessCheck (s : State) (m a : Nat) (sz : AccSize) (write : Bool) : Resp :=
  if !mapped a then .decerr
  else if !s.hasRight m a write then .perm
  else if !formOk a sz then .slverr
  else .ok

/-! ### Accesses that wait (R59, R60, R327) -/

/-- The checks of R559; a DW that lacks an enable finds SLVERR where the access would reach its target (R506). -/
def State.checkAccess (s : State) (m : Nat) (x : Access) : Resp :=
  match s.accessCheck m x.addr x.size x.write.isSome with
  | .ok => if x.full then .ok else .slverr
  | r => r

/-- The RAMs are open to masters (R327). DEDUCED, log entry 28. -/
def State.ramOpen (s : State) : Bool := s.bit MEMC_STATUS MEMC_STATUS_clear_done

def noMoves (_ : Nat) : List MoveOp := []

/-- The accesses of Hearth n on the move plane, in order of issue. -/
def State.moves (s : State) (n : Nat) : List MoveOp := tabGet noMoves s.flue.moves n

def State.setMoves (s : State) (n : Nat) (l : List MoveOp) : State :=
  { s with flue := { s.flue with moves := tabSet noMoves s.flue.moves n l } }

/-- An access of a master has been issued and has not completed. -/
def State.inFlight (s : State) (m : Nat) : Bool :=
  (s.chm.tags.any fun e => match e.2 with
    | .busy mid _ _ => mid = m
    | _ => false) ||
  (s.chm.raWait.any fun r => r.mid = m) ||
  (s.dmp.items.any fun i => i.kick.isNone && i.vals.any fun v => v.mid = m) ||
  s.moves m != []

/-- Every earlier access of a master has completed (R60). -/
def State.drained (s : State) (m : Nat) : Bool := !s.inFlight m && !(s.jobs.any fun j => j.mid = m)

/-- Until the clear is done the access is held: to the Mantel or a tile RAM, and by the PCIe and QSPI hosts to any place in a
Hearth window (R327). -/
def heldAddr (m a : Nat) : Bool :=
  a < 0x00800000 ||
  (0x01000000 ≤ a && a < 0x01C00000 && (a % 0x10000 < 0xC000 || m = 0x300 || m = 0x301))

/-- The access must wait: for the clear on wake, or as a fence for the master's earlier accesses (R60). -/
def State.mustWait (s : State) (m : Nat) (x : Access) : Bool :=
  decide (s.checkAccess m x = .ok) &&
  ((heldAddr m x.addr && !s.ramOpen) || (x.addr = SYS_FENCE && x.write.isNone && s.inFlight m))

/-- A later job of the same master waits for this one, but for a remote request that has been issued. -/
def Job.blocks (j : Job) : Bool :=
  match j.fin with
  | .remote _ _ _ => !j.out
  | _ => true

/-- An access of a master must wait, or come after one of its accesses that waits: the order of R59, and the fence of R60. -/
def State.waitsTurn (s : State) (m : Nat) (x : Access) : Bool :=
  s.mustWait m x || s.jobs.any (fun j => j.mid = m && j.blocks)

/-- A single access of a master waits for its turn. -/
def State.queueJob (s : State) (m : Nat) (x : Access) : State := { s with jobs := s.jobs ++ [⟨m, [x], false, [], .plain⟩] }

/-! ### A 32-bit access to one register -/

/-- What a register's target does with a write: the response, and the new state when it is OK. -/
abbrev WriteEff := State → Resp × State

/-- A write of v to a register by a master: it waits for its turn, and then come the checks of R559, the target's own judgement,
and completion. A refused write changes nothing (R47). -/
def State.writeReg (s : State) (m a : Nat) (v : Word) (eff : WriteEff) : State :=
  if s.waitsTurn m ⟨a, .b32, some (v.zeroExtend 64), true⟩ then s.queueJob m ⟨a, .b32, some (v.zeroExtend 64), true⟩
  else match s.accessCheck m a .b32 true with
  | .ok =>
    match eff s with
    | (.ok, s') => s'.complete m a .b32 true ⟨.ok, 0⟩
    | (r, _) => s.complete m a .b32 true ⟨r, 0⟩
  | r => s.complete m a .b32 true ⟨r, 0⟩

/-- A read of a register by a master; `eff` gives the response, the data and the state after the read's side effects. -/
def State.readReg (s : State) (m a : Nat) (eff : State → Resp × Word × State) : State :=
  if s.waitsTurn m ⟨a, .b32, none, true⟩ then s.queueJob m ⟨a, .b32, none, true⟩
  else match s.accessCheck m a .b32 false with
  | .ok =>
    match eff s with
    | (.ok, v, s') => s'.complete m a .b32 false ⟨.ok, v.zeroExtend 64⟩
    | (r, _, _) => s.complete m a .b32 false ⟨r, 0⟩
  | r => s.complete m a .b32 false ⟨r, 0⟩

/-- A write that the target accepts. -/
def accept (f : State → State) : WriteEff := fun s => (.ok, f s)

/-- A write that the target refuses with SLVERR when a condition fails. -/
def acceptIf (c : Bool) (f : State → State) : WriteEff := fun s => if c then (.ok, f s) else (.slverr, s)

end Sys2Proof.Machine
end

