-- ==== Sys2Proof/Machine/Evc.lean ====
section
/-! DEFINITION. The event controller (16): source types and levels, deliverability, target lines, claims and
completions, and the frame that every meaning runs in. -/

namespace Sys2Proof.Machine

/-! ### GPIO pins (R521) -/

def pulsesDefault (_ : Nat) : Pulses := ⟨0, 0⟩

/-- The function of a GPIO. -/
def State.gpioFn (s : State) (i : Nat) : Nat := (s.reg (HIF_GPIO_FN (i / 8))).toNat / 16 ^ (i % 8) % 4

/-- The level of GPIO i: what the engine drives, or the level from outside where it drives nothing. -/
def State.gpioLevel (s : State) (i : Nat) : Bool :=
  let out := bitOf (s.reg HIF_GPIO_OUT).toNat i
  let p := tabGet pulsesDefault s.pins.pulses i
  if s.gpioFn i = 1 then (if p.high != 0 then true else if p.low != 0 then false else out)
  else if s.gpioFn i = 0 && bitOf (s.reg HIF_GPIO_OE).toNat i then out
  else bitOf s.pins.gpio.toNat i

/-- The levels of the GPIO pins. -/
def State.pinLevels (s : State) : BitVec 16 :=
  BitVec.ofNat 16 ((List.range 16).foldl (fun acc i => acc + b2n (s.gpioLevel i) * 2 ^ i) 0)

/-- The edge detectors take the pins as they stand, and no edge is seen (R434). -/
def State.seePins (s : State) : State := { s with evc := { s.evc with seen := s.pinLevels } }

/-! ### Source types and levels (R432 to R434) -/

/-- Level sources of Table: System sources. -/
def levelSource (n : Nat) : Bool :=
  (385 ≤ n && n ≤ 387) || (392 ≤ n && n ≤ 404) || (422 ≤ n && n ≤ 425) || n = 427 ||
  (431 ≤ n && n ≤ 438) || n = 441 || n = 445 || n = 447 || n = 449 || (451 ≤ n && n ≤ 454) || n = 460 || n = 461

/-- Sources that exist: 0, the reserved ranges and the gaps are never asserted (R432). -/
def sourceExists (n : Nat) : Bool :=
  (1 ≤ n && n ≤ 461) || n = 471 || n = 472 || (473 ≤ n && n ≤ 488)

/-- A GPIO source (R434). -/
def gpioSource (n : Nat) : Bool := 473 ≤ n && n ≤ 488

/-- The sense field in force for a source. -/
def State.senseOf (s : State) (n : Nat) : Nat := s.fld (EVC_SRC_CFG n) EVC_SRC_CFG_sense

/-- A source is a level source: by Table: System sources, or by its sense for a GPIO source. -/
def State.isLevel (s : State) (n : Nat) : Bool :=
  levelSource n || (gpioSource n && (s.senseOf n = 3 || s.senseOf n = 4))

/-- Some bit of a mask is 1 in one of `n` registers. -/
def State.anyBits (s : State) (n : Nat) (addr : Nat → Nat) (mask : Nat) : Bool :=
  (List.range n).any fun i => (s.reg (addr i)).toNat &&& mask != 0

/-- A level source's condition (Table: System sources). DEDUCED, log entry 43. -/
def State.levelOf (s : State) (n : Nat) : Bool :=
  if gpioSource n then
    if s.senseOf n = 3 then s.gpioLevel (n - 473) else !s.gpioLevel (n - 473)
  else match n with
  | 385 => s.bit SYS_VIOL_INFO SYS_VIOL_INFO_valid
  | 386 => s.anyBits 8 SYS_BALL_TURNED 0xFFFFFFFF
  | 387 => s.anyBits 6 SYS_PACE_NEAR 0xFFFFFFFF
  | 392 => s.bit FLUE_MIS_INFO FLUE_MIS_INFO_valid
  | 393 => s.bit FLUE_STALL_INFO FLUE_STALL_INFO_valid
  | 394 => s.bit FLUE_RT_STAT FLUE_RT_STAT_done
  | 395 => s.bit MEMC_EVT MEMC_EVT_ce
  | 396 => s.bit MEMC_EVT MEMC_EVT_ue
  | 397 => s.bit MEMC_EVT MEMC_EVT_scrub_done
  | 398 => s.bit RSG_STATUS RSG_STATUS_state_chg || s.bit RSG_STATUS RSG_STATUS_lost
  | 399 => s.bit RSG_STATUS RSG_STATUS_warn
  | 400 => s.bit RSG_STATUS RSG_STATUS_qual
  | 401 => s.bit TSU_STATUS TSU_STATUS_servo_chg || s.bit TSU_STATUS TSU_STATUS_tod_step
  | 402 => s.bit TSU_STATUS TSU_STATUS_deuce_sw || s.bit TSU_STATUS TSU_STATUS_slew_forced
  | 403 => s.bit TSU_STATUS TSU_STATUS_tod_hold
  | 404 => s.bit TSU_STATUS TSU_STATUS_realign
  | 422 => s.anyBits 16 SAP_STAT 0xC
  | 423 => s.anyBits 8 AES_RX_STAT 0xEC || s.anyBits 8 AES_TX_STAT 0xC
  | 424 => s.anyBits 2 MADI_STAT 0xEC
  | 425 => s.bit ASRC_STAT ASRC_STAT_lost
  | 427 => s.anyBits 2 NET_MAC_STAT 0x2
  | 431 => s.bit CHM_STAT CHM_STAT_link_chg
  | 432 => s.bit CHM_STAT CHM_STAT_topo || s.bit CHM_STAT CHM_STAT_leader_chg
  | 433 => s.bit CHM_STAT CHM_STAT_rally_miss || s.bit CHM_STAT CHM_STAT_disagree
  | 434 => s.bit CHM_STAT CHM_STAT_realign
  | 435 => s.bit CHM_MAP_CTRL CHM_MAP_CTRL_done
  | 436 => s.bit DMP_STAT DMP_STAT_kick_late || s.bit DMP_STAT DMP_STAT_merged
  | 437 => s.bit DMP_STAT DMP_STAT_sup
  | 438 => s.bit DMP_STAT DMP_STAT_err
  | 441 => s.bit CUE_STAT CUE_STAT_err
  | 445 => s.anyBits 4 MIF_STAT 0x200
  | 447 => s.fld BEL_SUM BEL_SUM_fault != 0
  | 449 => s.fld BEL_SUM BEL_SUM_merr != 0
  | 451 => s.bit SKP_STAT SKP_STAT_err
  | 452 => s.pins.pfailLow
  | 453 => s.bit EMB_STAT EMB_STAT_alarm
  | 454 => s.bit EMB_CAUSE EMB_CAUSE_valid
  | 460 => (s.reg HIF_PCIE_STAT).toNat &&& 0x1F00 != 0
  | 461 => s.pins.tempAlarm
  | _ => false

/-- The state of a source (R435). An ACTIVE level source is not watched; otherwise a level source is PENDING exactly
while it is asserted. -/
def State.srcState (s : State) (n : Nat) : SrcState :=
  let st := tabGet srcDefault s.evc.src n
  if s.isLevel n then
    match st with
    | .active => .active
    | .activeAgain => .active
    | _ => if s.levelOf n then .pending else .idle
  else st

/-- The number of a source state in EVC_SRC_CFG.state. -/
def srcCode : SrcState → Nat
  | .idle => 0
  | .pending => 1
  | .active => 2
  | .activeAgain => 3

/-- Sets the stored state of a source. -/
def State.setSrc (s : State) (n : Nat) (st : SrcState) : State :=
  { s with evc := { s.evc with src := tabSet srcDefault s.evc.src n st } }

/-! ### Targets, deliverability and lines (R436 to R439, R444, R445) -/

def stackDefault (_ : Nat) : List (Nat × Nat) := []
def frozenDefault (_ : Nat) : Bool := false
def deferredDefault (_ : Nat) : Option Word := none

/-- The priority stack of a target, top first. -/
def State.stackOf (s : State) (t : Nat) : List (Nat × Nat) := tabGet stackDefault s.evc.stack t

def State.setStack (s : State) (t : Nat) (l : List (Nat × Nat)) : State :=
  { s with evc := { s.evc with stack := tabSet stackDefault s.evc.stack t l } }

/-- A target frozen by an Offside (R443, R444). -/
def State.isFrozen (s : State) (t : Nat) : Bool := tabGet frozenDefault s.evc.frozen t

def State.setFrozen (s : State) (t : Nat) (b : Bool) : State :=
  { s with evc := { s.evc with frozen := tabSet frozenDefault s.evc.frozen t b } }

/-- The configuration register of a target: EVC_TGT_CFG has the Hearth layout for T0 to T3, the host layout above. -/
def tgtCfg (t : Nat) : Nat := if t < 4 then EVC_TGT_CFG_H t else EVC_TGT_CFG_X (t - 4)

/-- The floor of a target (R439). -/
def State.floorOf (s : State) (t : Nat) : Nat := s.fld (tgtCfg t) EVC_TGT_CFG_H_floor

/-- The target that a source reaches: its own, and for SRC_OFFSIDE the alternative while its own is frozen (R445). -/
def State.targetOf (s : State) (n : Nat) : Nat :=
  let t := s.fld (EVC_SRC_CFG n) EVC_SRC_CFG_target
  if n = 471 && s.isFrozen t then s.fld EVC_CTRL EVC_CTRL_fault_alt else t

def State.prioOf (s : State) (n : Nat) : Nat := s.fld (EVC_SRC_CFG n) EVC_SRC_CFG_prio

/-- Source n is deliverable to target t (R439). -/
def State.deliverable (s : State) (t n : Nat) : Bool :=
  sourceExists n && s.bit (EVC_SRC_CFG n) EVC_SRC_CFG_en && s.targetOf n = t && s.srcState n = .pending &&
  decide (s.floorOf t ≤ s.prioOf n) &&
  (match s.stackOf t with
   | [] => true
   | (_, p) :: _ => decide (p < s.prioOf n)) &&
  !s.isFrozen t

/-- Highest priority first, lowest number among equals (R440): the better of a candidate and source n. -/
def State.betterSrc (s : State) (t : Nat) (best : Option Nat) (n : Nat) : Option Nat :=
  if s.deliverable t n then
    match best with
    | none => some n
    | some b => if s.prioOf b < s.prioOf n then some n else some b
  else best

/-- The source that a claim of target t would return. -/
def State.claimable (s : State) (t : Nat) : Option Nat := (List.range 512).foldl (s.betterSrc t) none

/-- The Hearth target t is held inactive because its Hearth became USER (R437). -/
def State.tgtNopriv (s : State) (t : Nat) : Bool :=
  t < 4 && s.bit (EVC_TGT_CFG_H t) EVC_TGT_CFG_H_en &&
  !s.hearthSup (s.fld (EVC_TGT_CFG_H t) EVC_TGT_CFG_H_hearth)

/-- The line of a target: asserted while a source is deliverable to it (R439, R444), and held inactive while its Hearth is
USER (R437). DEDUCED, log entry 42. -/
def State.line (s : State) (t : Nat) : Bool := !s.tgtNopriv t && (s.claimable t).isSome

/-- Pin INT_N(i) is driven low (R438): the mode of target 4 + i selects INT_N or both, and its line is asserted. -/
def State.intLow (s : State) (i : Nat) : Bool :=
  (s.fld (EVC_TGT_CFG_X i) EVC_TGT_CFG_X_mode = 2 || s.fld (EVC_TGT_CFG_X i) EVC_TGT_CFG_X_mode = 3) && s.line (4 + i)

/-- The EVC line into HRT_IRQ_PEND bit 0 of a Hearth: some enabled Hearth target names it and is asserted (R437). -/
def State.hearthLine (s : State) (h : Nat) : Bool :=
  (List.range 4).any fun t =>
    s.bit (EVC_TGT_CFG_H t) EVC_TGT_CFG_H_en && s.fld (EVC_TGT_CFG_H t) EVC_TGT_CFG_H_hearth = h && s.line t

/-! ### MSI-X (R438, R508, R510) -/

/-- The mode of host target t sends MSI-X messages. -/
def State.tgtMsix (s : State) (t : Nat) : Bool :=
  s.fld (EVC_TGT_CFG_X (t - 4)) EVC_TGT_CFG_X_mode = 1 || s.fld (EVC_TGT_CFG_X (t - 4)) EVC_TGT_CFG_X_mode = 3

/-- A message that is due on vector v: it is issued, or its PBA bit is set while it is masked or MSI-X is disabled. -/
def State.sendMsix (s : State) (v : Nat) : State :=
  if s.pcie.msixEn && s.pcie.busMaster && !s.pcie.funcMask && !s.pcie.d3hot && !s.bit (MSIX_CTRL v) MSIX_CTRL_mask then
    let msg : MsixMsg :=
      ⟨v, (s.reg (MSIX_TABLE v 0)).toNat + (s.reg (MSIX_TABLE v 1)).toNat * 2 ^ 32, (s.reg (MSIX_TABLE v 2)).toNat⟩
    { s with evc := { s.evc with msix := s.evc.msix ++ [msg] } }
  else { s with evc := { s.evc with pba := s.evc.pba ||| 2 ^ v } }

/-- The message of host target t. -/
def State.tgtMessage (s : State) (t : Nat) : State :=
  if 4 ≤ t && s.tgtMsix t then s.sendMsix (s.fld (EVC_TGT_CFG_X (t - 4)) EVC_TGT_CFG_X_vector) else s

/-! ### The frame of every meaning -/

/-- A pin that changed raises its GPIO source when the sense selects the edge (R434). -/
def gpioEdge (new : State) (t : State) (n : Nat) : State :=
  let a := bitOf new.evc.seen.toNat n
  let b := new.gpioLevel n
  let sense := new.senseOf (473 + n)
  if a != b && ((b && (sense = 0 || sense = 2)) || (!b && (sense = 1 || sense = 2))) then t.raise (473 + n) else t

/-- What drives the pins is the same in two states. -/
def samePins (a b : State) : Bool :=
  a.pins.gpio = b.pins.gpio && a.pins.pulses = b.pins.pulses && a.reg HIF_GPIO_OUT = b.reg HIF_GPIO_OUT &&
  a.reg HIF_GPIO_OE = b.reg HIF_GPIO_OE && a.reg (HIF_GPIO_FN 0) = b.reg (HIF_GPIO_FN 0) &&
  a.reg (HIF_GPIO_FN 1) = b.reg (HIF_GPIO_FN 1)

/-- GPIO edges of a command. -/
def gpioEdges (old new : State) : State :=
  if samePins old new then new else ((List.range 16).foldl (gpioEdge new) new).seePins

/-- A line that went from inactive to active sends its message (R438). -/
def lineRise (old : State) (t : State) (i : Nat) : State :=
  if t.tgtMsix i && t.line i && !old.line i then t.tgtMessage i else t

/-- What follows from a command by itself: GPIO edges reach the EVC and host target lines that rose send their messages.
Only the event controller's own state changes. -/
def evcSettle (old new : State) : Evc := ([4, 5, 6, 7].foldl (lineRise old) (gpioEdges old new)).evc

/-- The frame of every meaning: the command's effect, the event controller's consequences, and the two things that no
command but its own touches: the queue, and the OTP words (R469). -/
def State.settle (old new : State) : State :=
  { new with evc := evcSettle old new, pending := old.pending, otp := old.otp }

/-- VCORE is up: the engine is not in STANDBY or OFF, nor on its way there or back (R475, R482). -/
def State.powered (s : State) : Bool := decide (s.pwr.mode = .on)

/-- The engine below the Ember works: it is powered and no system reset lasts (R482, R489). -/
def State.awake (s : State) : Bool := s.powered && !s.pwr.pinReset && !s.pwr.perstReset

/-- The extrapolator's window starts again, and its ratio is not valid until it is full (R497). -/
def State.xpRestart (s : State) : State :=
  { s.setFld EMB_STAT EMB_STAT_xp_valid 0 with pwr := { s.pwr with xp := { s.pwr.xp with hist := [] } } }

/-- A meaning that has the effect `f` while the engine is awake; otherwise nothing below the Ember acts. -/
def State.run (s : State) (f : State → State) : Host.Outcome State Fault Refusal :=
  .next (if s.awake then s.settle (f s) else s)

/-- A meaning of the Ember, of the resets or of the pins: it acts in every power state. -/
def State.runAon (s : State) (f : State → State) : Host.Outcome State Fault Refusal :=
  .next (if s.awake then s.settle (f s) else { f s with pending := s.pending, otp := s.otp })

/-- The engine is in LIGHT (R475). -/
def State.inLight (s : State) : Bool := s.fld SYS_PWR_STAT SYS_PWR_STAT_state = 1

/-- A meaning that happens on the XO's time: a media clock, a port clock or a time base (R558). -/
def State.runXo (s : State) (f : State → State) : Host.Outcome State Fault Refusal :=
  s.run fun s => if s.pwr.xoLost then s else f s

/-- An action keyed to a count or a time: one that fell due in LIGHT waits for the first Rally instant after it (R480).
DEDUCED, log entry 145. -/
def State.runKey (s : State) (f : State → State) : Host.Outcome State Fault Refusal :=
  s.runXo fun s => if s.pwr.hold then s else f s

/-- A meaning that is stopped in LIGHT as well (R479). -/
def State.runLit (s : State) (f : State → State) : Host.Outcome State Fault Refusal :=
  s.runXo fun s => if s.inLight then s else f s

/-! ### Claim, complete, Offside (R440 to R446) -/

/-- Source n is pushed by a claim. -/
def State.pushSrc (s : State) (t n : Nat) : State :=
  (s.setSrc n .active).setStack t ((n, s.prioOf n) :: s.stackOf t)

/-- A read of EVC_CLAIM(t): the source and its priority, and the push. -/
def State.claim (s : State) (t : Nat) : Word × State :=
  match s.claimable t with
  | none => (0, s)
  | some n => (BitVec.ofNat 32 (n + s.prioOf n * 2 ^ 16), s.pushSrc t n)

/-- The configuration word of a source after a write of v: sense is writable for a GPIO source only (R434). -/
def srcCfgWord (n : Nat) (old v : Word) : Word :=
  let w := (EVC_SRC_CFG_en.set (EVC_SRC_CFG_target.set (EVC_SRC_CFG_prio.set old (EVC_SRC_CFG_prio.get v))
    (EVC_SRC_CFG_target.get v)) (EVC_SRC_CFG_en.get v))
  if gpioSource n then EVC_SRC_CFG_sense.set w (EVC_SRC_CFG_sense.get v) else w

/-- A configuration write takes effect (R450). A change from a level to an edge sense keeps the source's state, and a
change to a level sense judges the pin as it stands (R434). -/
def State.applySrcCfg (s : State) (n : Nat) (v : Word) : State :=
  let st := s.srcState n
  let s' := s.setReg (EVC_SRC_CFG n) (srcCfgWord n (s.reg (EVC_SRC_CFG n)) v)
  if gpioSource n then s'.setSrc n (if s'.isLevel n then .idle else st) else s'

/-- A source leaves ACTIVE (R441, R446): an edge source goes to IDLE or PENDING, a level source is sampled afresh, and a
configuration write that waited takes effect. -/
def State.leaveActive (s : State) (n : Nat) : State :=
  let again := tabGet srcDefault s.evc.src n = .activeAgain
  let s1 :=
    if s.isLevel n then (s.setSrc n .idle).bumpBy EVC_REBOUNDS whole (b2n (s.levelOf n))
    else s.setSrc n (if again then .pending else .idle)
  match tabGet deferredDefault s1.evc.deferred n with
  | none => s1
  | some v =>
    ({ s1 with evc := { s1.evc with deferred := tabSet deferredDefault s1.evc.deferred n none } }).applySrcCfg n v

/-- An Offside on target t (R443). -/
def State.offside (s : State) (t v : Nat) : State :=
  let exp := match s.stackOf t with
    | [] => 0
    | (n, _) :: _ => n
  let s1 := s.setFrozen t true
  let s2 :=
    if s1.bit EVC_OFFSIDE_INFO EVC_OFFSIDE_INFO_valid then s1
    else s1.setReg EVC_OFFSIDE_INFO (BitVec.ofNat 32 (v + exp * 2 ^ 16 + t * 2 ^ 28 + 2 ^ 31))
  s2.raise 471

/-- A host target sends its message again when its line is still asserted after a pop (R438). -/
def State.afterPop (s : State) (t : Nat) : State := if s.line t then s.tgtMessage t else s

/-- A write of v to EVC_COMPLETE(t) (R441, R444). -/
def State.evcComplete (s : State) (t v : Nat) : State :=
  if s.isFrozen t then s
  else match s.stackOf t with
    | (n, _) :: rest => if n = v then ((s.setStack t rest).leaveActive n).afterPop t else s.offside t v
    | [] => s.offside t v

/-- A write of 1 to EVC_STACK_RESET(t) (R446). -/
def State.stackReset (s : State) (t : Nat) : State :=
  (((s.stackOf t).foldl (fun s e => s.leaveActive e.1) (s.setStack t [])).setFrozen t false).afterPop t

/-! ### Registers of the EVC -/

/-- EVC_SRC_CFG(s) as it reads: its state, and for a source that is no GPIO the sense of its type (R434, R450). -/
def State.readSrcCfg (s : State) (n : Nat) : Word :=
  if !sourceExists n then 0
  else
    let w := EVC_SRC_CFG_state.set (s.reg (EVC_SRC_CFG n)) (srcCode (s.srcState n))
    if gpioSource n then w else EVC_SRC_CFG_sense.set w (if levelSource n then 3 else 0)

/-- EVC_PEND(p) or EVC_ACTIVE(p): one bit for each source of the word in one of the given states. -/
def State.srcBits (s : State) (p : Nat) (f : SrcState → Bool) : Word :=
  BitVec.ofNat 32 ((List.range 32).foldl (fun acc b => acc + b2n (f (s.srcState (32 * p + b))) * 2 ^ b) 0)

/-- EVC_TGT_STAT(t). -/
def State.tgtStat (s : State) (t : Nat) : Word :=
  let st := s.stackOf t
  let top := match st with
    | [] => (0, 0)
    | e :: _ => e
  BitVec.ofNat 32 (st.length % 32 + top.2 * 2 ^ 8 + b2n (s.isFrozen t) * 2 ^ 12 + b2n (s.line t) * 2 ^ 13 +
    b2n (s.tgtNopriv t) * 2 ^ 14 + top.1 * 2 ^ 16)

/-- EVC_STACK(t, i), with entry 0 at the bottom and 0 above the depth. -/
def State.stackEntry (s : State) (t i : Nat) : Word :=
  match (s.stackOf t).reverse[i]? with
  | none => 0
  | some (n, p) => BitVec.ofNat 32 (n + p * 2 ^ 16)

/-- A write to EVC_SRC_CFG(n) (R434, R450). -/
def writeSrcCfg (n : Nat) (v : Word) : WriteEff := fun s =>
  if !sourceExists n then (.ok, s)
  else if gpioSource n && decide (5 ≤ EVC_SRC_CFG_sense.get v) then (.slverr, s)
  else match s.srcState n with
    | .idle => (.ok, s.applySrcCfg n v)
    | .pending => (.ok, s.applySrcCfg n v)
    | _ => (.ok, { s with evc := { s.evc with deferred := tabSet deferredDefault s.evc.deferred n (some v) } })

/-- Another enabled Hearth target names Hearth h (R437). -/
def State.otherTarget (s : State) (t h : Nat) : Bool :=
  (List.range 4).any fun u => u != t && s.bit (EVC_TGT_CFG_H u) EVC_TGT_CFG_H_en &&
    s.fld (EVC_TGT_CFG_H u) EVC_TGT_CFG_H_hearth = h

/-- A write to EVC_TGT_CFG(t) (R437, R438). -/
def writeTgtCfg (t : Nat) (v : Word) : WriteEff := fun s =>
  if t < 4 then
    let h := EVC_TGT_CFG_H_hearth.get v
    let en := EVC_TGT_CFG_H_en.get v
    if 192 ≤ h then (.slverr, s)
    else if en = 1 && (!s.hearthSup h || s.otherTarget t h) then (.slverr, s)
    else if (s.stackOf t).length != 0 &&
        (h != s.fld (EVC_TGT_CFG_H t) EVC_TGT_CFG_H_hearth || en != s.fld (EVC_TGT_CFG_H t) EVC_TGT_CFG_H_en) then
      (.slverr, s)
    else (.ok, s.plainWrite (EVC_TGT_CFG_H t) v)
  else (.ok, s.plainWrite (EVC_TGT_CFG_X (t - 4)) v)

/-- A write to EVC_PEND(p): a 1 takes an edge source from PENDING to IDLE; level sources ignore it (R435). -/
def State.pendClear (s : State) (p : Nat) (v : Word) : State :=
  (List.range 32).foldl (fun t b =>
    let n := 32 * p + b
    if bitOf v.toNat b && !t.isLevel n && t.srcState n = .pending then t.setSrc n .idle else t) s

/-- GPIO i takes a level from outside. -/
def State.setPin (s : State) (i : Nat) (level : Bool) : State :=
  { s with pins := { s.pins with gpio :=
      if level then s.pins.gpio ||| BitVec.ofNat 32 (2 ^ i) else s.pins.gpio &&& ~~~BitVec.ofNat 32 (2 ^ i) } }

/-! ### The commands of the event controller -/

/-- SOURCE_RAISE (R435): an edge source is raised; a pin takes the level given, which raises or asserts its source
(R434), whatever the power state. Every other level source follows its own condition, which the command leaves as it is. -/
def execSourceRaise (n : Fin 512) (level : Bool) (s : State) : Host.Outcome State Fault Refusal :=
  s.runAon fun s =>
    if gpioSource n.val then s.setPin (n.val - 473) level
    else if !s.awake || levelSource n.val || !sourceExists n.val then s
    else s.raiseIf level n.val

/-- EVC_CLAIM (R440). -/
def execEvcClaim (m : Mid) (t : Fin 8) (s : State) : Host.Outcome State Fault Refusal :=
  s.run fun s => s.readReg m.val (EVC_CLAIM t.val) fun s => (.ok, (s.claim t.val).1, (s.claim t.val).2)

/-- EVC_COMPLETE (R441). -/
def execEvcComplete (m : Mid) (t : Fin 8) (v : Word) (s : State) : Host.Outcome State Fault Refusal :=
  s.run fun s => s.writeReg m.val (EVC_COMPLETE t.val) v
    (accept fun s => s.evcComplete t.val (EVC_COMPLETE_src.get v))

/-- STACK_RESET (R446). -/
def execStackReset (m : Mid) (t : Fin 8) (v : Word) (s : State) : Host.Outcome State Fault Refusal :=
  s.run fun s => s.writeReg m.val (EVC_STACK_RESET t.val) v
    (accept fun s => if bitOf v.toNat 0 then s.stackReset t.val else s)

/-- EVC_PEND_CLEAR (R435). -/
def execEvcPendClear (m : Mid) (p : Fin 16) (v : Word) (s : State) : Host.Outcome State Fault Refusal :=
  s.run fun s => s.writeReg m.val (EVC_PEND p.val) v (accept fun s => s.pendClear p.val v)

/-- EVC_SOFT (R433). -/
def execEvcSoft (m : Mid) (v : Word) (s : State) : Host.Outcome State Fault Refusal :=
  s.run fun s => s.writeReg m.val EVC_SOFT v (accept fun s => s.raiseIf (bitOf v.toNat 0) 472)

/-- EVC_SRC_CFG_WRITE (R450). -/
def execEvcSrcCfgWrite (m : Mid) (n : Fin 512) (v : Word) (s : State) : Host.Outcome State Fault Refusal :=
  s.run fun s => s.writeReg m.val (EVC_SRC_CFG n.val) v (writeSrcCfg n.val v)

/-- EVC_TGT_CFG_WRITE (R437). -/
def execEvcTgtCfgWrite (m : Mid) (t : Fin 8) (v : Word) (s : State) : Host.Outcome State Fault Refusal :=
  s.run fun s => s.writeReg m.val (tgtCfg t.val) v (writeTgtCfg t.val v)

end Sys2Proof.Machine
end

