-- ==== Sys2Proof/Machine/Flags.lean ====
section
/-! DEFINITION. The flag computations of the Hearth (R265 to R268) and its conditions (R263). -/

namespace Sys2Proof.Machine

/-- A word's two's complement value. -/
def sint (w : Word) : Int := w.toInt

/-- The signed result fits in 32 bits. -/
def fits32 (x : Int) : Bool := decide (-2147483648 ≤ x) && decide (x ≤ 2147483647)

/-- The nearer end of the 32-bit range, for a value outside it. -/
def sat32 (x : Int) : Word :=
  if x < -2147483648 then 0x80000000 else if x > 2147483647 then 0x7FFFFFFF else BitVec.ofInt 32 x

/-- z and n describe the 32-bit result (R265). -/
def Stat.setZN (st : Stat) (r : Word) : Stat := { st with z := r = 0, n := r.msb }

/-- sat only ever gets set (R265). -/
def Stat.stickSat (st : Stat) (b : Bool) : Stat := { st with sat := st.sat || b }

/-- The flags of an addition or subtraction: z n c v, and sat when the form saturates and overflows (R266, R268). -/
def Stat.arith (st : Stat) (r : Word) (c v satForm : Bool) : Stat :=
  { ((st.setZN r).stickSat (satForm && v)) with c := c, v := v }

/-- The wrapped result of an arithmetic form, or with saturation the nearer end of the range (R268). -/
def arithResult (exact : Int) (satForm : Bool) : Word :=
  if satForm && !fits32 exact then sat32 exact else BitVec.ofInt 32 exact

/-- Carry out of bit 31 of an addition (R266). -/
def addCarry (a b : Word) : Bool := decide (2 ^ 32 ≤ a.toNat + b.toNat)

/-- No borrow: the first operand is unsigned-greater than or equal to the second (R266). -/
def subCarry (a b : Word) : Bool := decide (b.toNat ≤ a.toNat)

/-- The leading bits equal to bit 31, minus 1 (R266). -/
def clsOf (a : Word) : Nat := (if a.msb then (~~~a).clz.toNat else a.clz.toNat) - 1

/-- A condition against STAT (R263). -/
def condHolds (k : Cond) (st : Stat) : Bool :=
  match k with
  | .al => true
  | .eq => st.z
  | .ne => !st.z
  | .lt => st.n != st.v
  | .ge => st.n == st.v
  | .gt => !st.z && st.n == st.v
  | .le => st.z || st.n != st.v
  | .ltu => !st.c
  | .geu => st.c
  | .gtu => st.c && !st.z
  | .leu => !st.c || st.z
  | .mi => st.n
  | .pl => !st.n
  | .vs => st.v
  | .vc => !st.v
  | .sat => st.sat

end Sys2Proof.Machine
end

