-- ==== Sys2Proof/Machine/Hearth.lean ====
section
/-! DEFINITION. The Hearth's registers, status, traps and the retirement of an instruction (08). -/

namespace Sys2Proof.Machine

/-! ### A Hearth after reset (R258, R259) -/

def statReset : Stat := ⟨false, false, false, false, false, false, false, false, 0, 1, 0⟩

def paceReset : Pace := ⟨false, none, 0, 0⟩

/-- Every Hearth after system reset; SPILL takes the reset value of HRT_SPILL_LIM.lo (R258). -/
def hearthReset : Hearth :=
  { pc := 0, npc := 1, stat := statReset, inSlot := false, g := [], acc := [], accOld := none, loadSh := none, ptr := [],
    spc := 0, snpc := 0, sstat := 0, xpc := 0, xnpc := 0, xstat := 0, xcause := 0, xval := 0, xinfo := 0,
    spill := 0x7C00, asr := 0, dz := false, dom := false, assist := none, exp := 0, ctag := 0, rally := 0,
    latch := none, loops := [], sb := [], q := [], out := [], paramIn := [], ctlIn := [], ram := [], ramErr := [],
    prog := [], progBad := [], slots := [], armed := none, zcSign := [], zcLeft := 0, zcDue := false,
    imprecise := none, stalled := none, sent := false, pcFresh := true, haltDue := false, bpSkip := false, stepping := false, wpHit := none,
    pace := paceReset }

def hearthDefault (_ : Nat) : Hearth := hearthReset

/-- Hearth n. -/
def State.hearth (s : State) (n : Nat) : Hearth := tabGet hearthDefault s.hearths n

def State.setHearth (s : State) (n : Nat) (h : Hearth) : State :=
  { s with hearths := tabSet hearthDefault s.hearths n h }

def State.modHearth (s : State) (n : Nat) (f : Hearth → Hearth) : State := s.setHearth n (f (s.hearth n))

/-! ### Registers (R222, R223, R227) -/

def zeroWord (_ : Nat) : Word := 0
def zeroByte (_ : Nat) : Byte := 0
def zeroAcc (_ : Nat) : BitVec 80 := 0
def zeroNat (_ : Nat) : Nat := 0
def noTokens (_ : Nat) : List Token := []
def slotDefault (_ : Nat) : Slot := ⟨0, 0, false, false, false⟩

/-- Where a g register stands: g0 to g15 once, g16 to g31 in W(wcur), in trap mode in W5 (R223). -/
def gKey (st : Stat) (r : Nat) : Nat := if r < 16 then r else 16 * (if st.trap then 5 else st.wcur) + r

/-- A g register; g0 reads 0. -/
def Hearth.getG (h : Hearth) (r : Nat) : Word := if r = 0 then 0 else tabGet zeroWord h.g (gKey h.stat r)

/-- Writes a register by its place. -/
def Hearth.setKey (h : Hearth) (k : Nat) (v : Word) : Hearth := { h with g := tabSet zeroWord h.g k v }

/-- A write to a g register; a write to g0 is discarded. -/
def Hearth.setG (h : Hearth) (r : Nat) (v : Word) : Hearth := if r = 0 then h else h.setKey (gKey h.stat r) v

/-- A pointer-file register: p0 to p7, m0 to m7, b0 to b7, l0 to l7 (R262). -/
def Hearth.getP (h : Hearth) (x : Nat) : Word := tabGet zeroWord h.ptr x

def Hearth.setP (h : Hearth) (x : Nat) (v : Word) : Hearth := { h with ptr := tabSet zeroWord h.ptr x v }

/-- An accumulator as an arithmetic instruction reads it. -/
def Hearth.getA (h : Hearth) (x : Nat) : BitVec 80 := tabGet zeroAcc h.acc x

/-- An accumulator as MOVA, MOVAR and MOVAS read it: in the step after a MAC-group instruction the value from before that
instruction (R235). -/
def Hearth.seeA (h : Hearth) (x : Nat) : BitVec 80 :=
  match h.accOld with
  | none => h.getA x
  | some t => tabGet zeroAcc t x

def Hearth.setA (h : Hearth) (x : Nat) (v : BitVec 80) : Hearth := { h with acc := tabSet zeroAcc h.acc x v }

/-- The post-modified pointer: pi + mi, circular within [bi, bi + li) when li is not 0 (R227). -/
def postMod (p m b l : Word) : Word :=
  if l = 0 then p + m
  else BitVec.ofInt 32 ((b.toNat : Int) + ((p.toNat : Int) - b.toNat + m.toInt) % (l.toNat : Int))

/-- The pointer before a post-modify, as POPL steps back (R283). -/
def preMod (p m b l : Word) : Word :=
  if l = 0 then p - m
  else BitVec.ofInt 32 ((b.toNat : Int) + ((p.toNat : Int) - b.toNat - m.toInt) % (l.toNat : Int))

def Hearth.postP (h : Hearth) (i : Nat) : Hearth :=
  h.setP i (postMod (h.getP i) (h.getP (8 + i)) (h.getP (16 + i)) (h.getP (24 + i)))

def Hearth.preP (h : Hearth) (i : Nat) : Hearth :=
  h.setP i (preMod (h.getP i) (h.getP (8 + i)) (h.getP (16 + i)) (h.getP (24 + i)))

/-! ### STAT (R226) -/

/-- STAT as a word. -/
def Hearth.statWord (h : Hearth) : Word :=
  let t := h.stat
  BitVec.ofNat 32 (b2n t.z + b2n t.n * 2 + b2n t.c * 4 + b2n t.v * 8 + b2n t.sat * 16 + b2n t.ie * 32 + b2n t.trap * 64 +
    b2n t.annul * 128 + t.wcur * 2 ^ 8 + t.wres * 2 ^ 11 + h.loops.length * 2 ^ 14 + t.frame * 2 ^ 17)

/-- SYSW STAT changes z, n, c, v, sat and ie only. -/
def Stat.writeSysw (t : Stat) (w : Word) : Stat :=
  let n := w.toNat
  { t with z := bitOf n 0, n := bitOf n 1, c := bitOf n 2, v := bitOf n 3, sat := bitOf n 4, ie := bitOf n 5 }

/-- RETI and RETT restore all of STAT but wcur, wres, ldepth and frame (R245, R246). -/
def Stat.restore (t : Stat) (w : Word) : Stat :=
  let u := t.writeSysw w
  { u with trap := bitOf w.toNat 6, annul := bitOf w.toNat 7 }

/-! ### Window rotation (R224) -/

def Stat.forward (t : Stat) : Stat :=
  { t with wcur := (t.wcur + 1) % 5, wres := t.wres + 1, frame := (t.frame + 1) % 16 }

def Stat.backward (t : Stat) : Stat :=
  { t with wcur := (t.wcur + 4) % 5, wres := t.wres - 1, frame := (t.frame + 15) % 16 }

/-! ### Halting -/

/-- The Hearth runs: HRT_CTRL.run is 1 (R256). -/
def State.running (s : State) (n : Nat) : Bool := s.bit (HRT_CTRL n) HRT_CTRL_run

/-- The Hearth executes instructions of its program RAM: it runs, or a debug step of it is under way (R517); Hearth 0 runs the
boot ROM until the handover (R466, R472). None does until the clear is done: no access reaches a tile RAM (R327). -/
def State.executes (s : State) (n : Nat) : Bool :=
  s.ramOpen && (s.running n || (s.hearth n).stepping) && (n != 0 || decide (s.skp.rom = .done))

/-- What ends between two instructions at a halt, an interrupt or a trap: a pending load lands and the accumulator shadow ends
(R235). -/
def Hearth.settleShadows (h : Hearth) : Hearth :=
  { (match h.loadSh with
     | none => h
     | some (k, v) => h.setKey k v) with loadSh := none, accOld := none }

/-- A stalled instruction is abandoned (R244, R256, R288). Where it had ended the work of a sample, the work goes on, and ends anew
when the instruction issues again (R34). -/
def Hearth.abandon (h : Hearth) : Hearth :=
  { h.settleShadows with stalled := none, bpSkip := false, pace := { h.pace with ended := none } }

/-- The Hearth halts (R256). -/
def State.haltHearth (s : State) (n : Nat) : State :=
  (s.setFld (HRT_CTRL n) HRT_CTRL_run 0).modHearth n fun h => { h.abandon with
    bpSkip := h.bpSkip, sent := false, haltDue := false, stepping := false, wpHit := none }

/-- A debug halt: the halt record, and SRC_DOORBELL(n) when irq is 1 (R517). -/
def State.debugHalt (s : State) (n cause index : Nat) : State :=
  ((s.haltHearth n).setReg (HRT_DBG_STAT n) (BitVec.ofNat 32 (cause + index * 2 ^ 4))).raiseIf
    (s.bit (HRT_DBG_CTRL n) HRT_DBG_CTRL_irq) (1 + n)

/-! ### Traps (R246 to R249) -/

/-- Trap causes. -/
abbrev causeWOVF := 1
abbrev causeWUNF := 2
abbrev causeTRAP := 3
abbrev causeILLEGAL := 4
abbrev causePRIV := 5
abbrev causeADDR := 6
abbrev causeBUS := 7
abbrev causeDECC := 8
abbrev causeIPAR := 9
abbrev causeKIND := 10
abbrev causeLOOPOVF := 11
abbrev causeLOOPFORM := 12
abbrev causeSPILL := 13
abbrev causeDOUBLE := 14
abbrev causeWDOG := 15

/-- HRT_FAULT captures the first fault since valid was cleared; halted stands apart (R248). -/
def State.captureFault (s : State) (n cause prior : Nat) (imprecise : Bool) (pc : Nat) (val : Word) : State :=
  if s.bit (HRT_FAULT n) HRT_FAULT_valid then s
  else
    (s.setReg (HRT_FAULT n) (BitVec.ofNat 32 (cause + prior * 2 ^ 5 + b2n imprecise * 2 ^ 10 +
      s.fld (HRT_FAULT n) HRT_FAULT_halted * 2 ^ 11 + pc * 2 ^ 16 + 2 ^ 31))).setReg (HRT_FAULT_VAL n) val

/-- A trap while trap = 1: the Hearth halts, and the save set, W5 and STAT stay (R248, R249). -/
def State.doubleFault (s : State) (n : Nat) (val : Word) (imprecise : Bool) : State :=
  let h := s.hearth n
  let s1 := s.captureFault n causeDOUBLE h.xcause imprecise h.pc val
  ((s1.setFld (HRT_FAULT n) HRT_FAULT_halted 1).haltHearth n).raise (193 + n)

/-- Trap entry (R246): XPC and XNPC are given, since TRAP and imprecise traps save the next instruction. A fault-class
trap raises SRC_HEARTH_FAULT(n) and is captured (R248). DEDUCED, log entry 13. -/
def State.trapEnter (s : State) (n cause : Nat) (val : Word) (info xpc xnpc : Nat) : State :=
  let h := s.hearth n
  if h.stat.trap then s.doubleFault n val (bitOf info 3)
  else
    let xb := s.fld (HRT_VEC n) HRT_VEC_xbase
    let h1 := { h.abandon with
      xpc := xpc, xnpc := xnpc, xstat := h.statWord, xcause := cause, xval := val, xinfo := info,
      stat := { h.stat with trap := true, ie := false, annul := false },
      pc := xb, npc := (xb + 1) % 4096, inSlot := false, wpHit := none }
    let s1 := s.setHearth n h1
    if 4 ≤ cause ∧ cause ≤ 13 then (s1.captureFault n cause 0 (bitOf info 3) xpc val).raise (193 + n) else s1

/-! ### Retirement -/

/-- How the program continues after an instruction that retires. -/
inductive Flow where
  /-- the next instruction in sequence; the loop end is tested (R242) -/
  | seq
  /-- a branch taken after its slot (R279); the slot may be annulled (R236) -/
  | branch (target : Nat) (annulSlot : Bool)
  /-- a branch not taken; its slot may be annulled (R236) -/
  | fallthrough (annulSlot : Bool)
  /-- continues at two given addresses, with no slot (RETI, RETT, a LOOP that skips its body) -/
  | jump (pc npc : Nat)

/-- What an instruction's operation answers, with the state it leaves. -/
inductive HRes where
  /-- it retires, in the steps given (R264) -/
  | done (s : State) (flow : Flow) (steps : Nat)
  /-- it stalls (R237) -/
  | stall (s : State)
  /-- it takes a precise trap: cause, XVAL, XINFO (R246) -/
  | trap (s : State) (cause : Nat) (val : Word) (info : Nat)
  /-- it retires and takes the trap TRAP with this XVAL, past itself (R246) -/
  | soft (s : State) (val : Word)

/-- A loop entry is live for the instruction at an address: end, trap and frame match (R242). -/
def LoopEnt.matches (e : LoopEnt) (pc : Nat) (st : Stat) : Bool :=
  e.stop = pc && e.trap = st.trap && e.frame = st.frame

/-- The loop test as the instruction at `pc` retires: with passes left it returns to start; otherwise the entry is popped
and the new top is tested too (R242, R282). Gives the loop stack and the start to continue at. -/
def loopTest (pc : Nat) (st : Stat) : List LoopEnt → List LoopEnt × Option Nat
  | [] => ([], none)
  | e :: rest =>
    if e.matches pc st then
      if e.left = 0 then loopTest pc st rest else ({ e with left := e.left - 1 } :: rest, some e.start)
    else (e :: rest, none)

/-- The PC after an instruction that retires. -/
def Hearth.advance (h : Hearth) (pc npc : Nat) (flow : Flow) : Hearth :=
  match flow with
  | .seq =>
    let r := loopTest pc h.stat h.loops
    match r.2 with
    | some st => { h with loops := r.1, pc := st, npc := (st + 1) % 4096, inSlot := false }
    | none => { h with loops := r.1, pc := npc, npc := (npc + 1) % 4096, inSlot := false }
  | .branch t a => { h with pc := npc, npc := t % 4096, inSlot := true, stat := { h.stat with annul := a } }
  | .fallthrough a => { h with pc := npc, npc := (npc + 1) % 4096, inSlot := true, stat := { h.stat with annul := a } }
  | .jump p q => { h with pc := p % 4096, npc := q % 4096, inSlot := false }

/-- An annulled slot: one step, no effect (R234, R236). -/
def Hearth.annulStep (h : Hearth) : Hearth :=
  { h with pc := h.npc, npc := (h.npc + 1) % 4096, inSlot := false,
           stat := { h.stat with annul := false } }

/-- An uncorrectable event of a tile RAM (R231). DEDUCED, log entry 17. -/
def State.tileUnc (s : State) (n addr : Nat) (prog : Bool) : State :=
  (s.bump (HRT_ECC_UNC n) whole).setReg (HRT_ECC_ADDR n) (BitVec.ofNat 32 (addr + b2n prog * 2 ^ 16))

/-- A breakpoint of Hearth n at an address, if one is enabled (R517). -/
def State.breakpoint (s : State) (n pc : Nat) : Option Nat :=
  (List.range 4).find? fun i =>
    s.bit (HRT_DBG_BP n i) HRT_DBG_BP_en && s.fld (HRT_DBG_BP n i) HRT_DBG_BP_addr = pc

def falseAt (_ : Nat) : Bool := false

end Sys2Proof.Machine
end

