-- ==== Sys2Proof/Machine/Pace.lean ====
section
/-! DEFINITION. The Pace monitor (01 R32 to R39). -/

namespace Sys2Proof.Machine

/-- Changes the Pace state of Hearth n. -/
def State.setPace (s : State) (n : Nat) (p : Pace) : State := s.modHearth n fun h => { h with pace := p }

/-- The monitor of Hearth n is enabled. -/
def State.paceOn (s : State) (n : Nat) : Bool := s.bit (HRT_PACE_CTRL n) HRT_PACE_CTRL_en

/-- Steps of the work, counted from the arrival up to the end of the work (R34). -/
def State.paceSteps (s : State) (n k : Nat) : State :=
  let p := (s.hearth n).pace
  if s.paceOn n && p.ended.isNone then s.setPace n { p with steps := min (p.steps + k) 0xFFFF } else s

/-- The work of a sample ends (R33). -/
def State.paceEnd (s : State) (n : Nat) : State :=
  if s.paceOn n then s.setPace n { (s.hearth n).pace with ended := some s.now } else s

/-- DEADLINE_NEAR for a recorded slack (R36). -/
def State.paceNear (s : State) (n slack : Nat) : State :=
  if slack < s.fld (HRT_PACE_THRESH n) HRT_PACE_THRESH_thresh && !s.bit (HRT_PACE_STATUS n) HRT_PACE_STATUS_near then
    (s.setFld (HRT_PACE_STATUS n) HRT_PACE_STATUS_near 1).setReg (SYS_PACE_NEAR (n / 32))
      (s.reg (SYS_PACE_NEAR (n / 32)) ||| BitVec.ofNat 32 (2 ^ (n % 32)))
  else s

/-- The record of one arrival: LAST, MAXSTEPS, the running minimum and DEADLINE_NEAR (R34, R36). -/
def State.paceRecord (s : State) (n slack steps : Nat) : State :=
  let s1 := s.setReg (HRT_PACE_LAST n) (BitVec.ofNat 32 (slack + steps * 2 ^ 16))
  let s2 := s1.setFld (HRT_PACE_MAXSTEPS n) HRT_PACE_MAXSTEPS_max_steps
    (max (s1.fld (HRT_PACE_MAXSTEPS n) HRT_PACE_MAXSTEPS_max_steps) steps)
  let s3 := s2.setFld (HRT_PACE_MIN n) HRT_PACE_MIN_run_min (min (s2.fld (HRT_PACE_MIN n) HRT_PACE_MIN_run_min) slack)
  s3.paceNear n slack

/-- The next sample arrives after the work has ended: the slack is the ticks of the pace time base in between (R32). The
first arrival after the enable records nothing (R35), and it does not count as an arrival of the window.
An arrival before the work has ended is no arrival of R34. DESIGN CHOICE, log entry 171. -/
def State.paceArrival (s : State) (n : Nat) : State :=
  let p := (s.hearth n).pace
  match s.paceOn n, p.ended with
  | true, some t =>
    if p.started then
      (s.paceRecord n (min (s.now - t) 0xFFFF) p.steps).setPace n ⟨true, none, 0, p.arrivals + 1⟩
    else s.setPace n ⟨true, none, 0, p.arrivals⟩
  | _, _ => s

/-- The end of the work finds the next sample waiting: a slack of 0 is recorded and the overrun is counted (R34). The
step of the instruction that finds it is part of the work. -/
def State.paceOverrun (s : State) (n : Nat) : State :=
  let p := (s.hearth n).pace
  if s.paceOn n then
    if p.started then
      let s1 := s.paceRecord n 0 (min (p.steps + 1) 0xFFFF)
      let s2 := (s1.setFld (HRT_PACE_STATUS n) HRT_PACE_STATUS_overrun 1).bump (HRT_PACE_OVERRUNS n) whole
      (s2.raise 388).setPace n ⟨true, none, 0, p.arrivals + 1⟩
    else s.setPace n ⟨true, none, 0, p.arrivals⟩
  else s

/-- The window is 2^window arrivals; 0 to 3 act as 4. -/
def State.paceWindow (s : State) (n : Nat) : Nat := 2 ^ max 4 (s.fld (HRT_PACE_CTRL n) HRT_PACE_CTRL_window)

/-- PACE_WINDOW_END (R35). -/
def execPaceWindowEnd (h : HearthId) (s : State) : Host.Outcome State Fault Refusal :=
  s.runXo fun s =>
    let n := h.val
    let p := (s.hearth n).pace
    if s.paceWindow n ≤ p.arrivals then
      (s.setReg (HRT_PACE_MIN n)
        (BitVec.ofNat 32 (0xFFFF + s.fld (HRT_PACE_MIN n) HRT_PACE_MIN_run_min * 2 ^ 16))).setPace n { p with arrivals := 0 }
    else s

/-- PACE_LATE_NOTICE (R37): the oldest CONTROL token that reached the Hearth. Sub-code 0 is the late notice; the other
sub-codes are reserved and have no effect (R198). -/
def execPaceLateNotice (h : HearthId) (s : State) : Host.Outcome State Fault Refusal :=
  s.run fun s =>
    let n := h.val
    match (s.hearth n).ctlIn with
    | [] => s
    | t :: rest =>
      let s1 := s.modHearth n fun h => { h with ctlIn := rest }
      if t.ctag / 256 = 0 then
        (s1.bump (HRT_PACE_LATE n) whole).setFld (HRT_PACE_STATUS n) HRT_PACE_STATUS_late 1
      else s1

/-- A write to HRT_PACE_CTRL; en from 0 to 1 resets LAST and MIN and restarts the window (R33). -/
def State.paceCtrl (s : State) (n : Nat) (v : Word) : State :=
  let s1 := s.plainWrite (HRT_PACE_CTRL n) v
  if !s.paceOn n && s1.paceOn n then
    ((s1.setReg (HRT_PACE_LAST n) 0x0000FFFF).setReg (HRT_PACE_MIN n) 0xFFFFFFFF).setPace n ⟨false, none, 0, 0⟩
  else s1

/-- PACE_ENABLE (R33). -/
def execPaceEnable (m : Mid) (h : HearthId) (v : Word) (s : State) : Host.Outcome State Fault Refusal :=
  s.run fun s => s.writeReg m.val (HRT_PACE_CTRL h.val) v (accept fun s => s.paceCtrl h.val v)

/-- A write to HRT_PACE_STATUS: W1C, and near is cleared in SYS_PACE_NEAR too (R36). -/
def State.paceStatusWrite (s : State) (n : Nat) (v : Word) : State :=
  let s1 := s.plainWrite (HRT_PACE_STATUS n) v
  if bitOf v.toNat 0 then
    s1.setReg (SYS_PACE_NEAR (n / 32)) (s1.reg (SYS_PACE_NEAR (n / 32)) &&& ~~~BitVec.ofNat 32 (2 ^ (n % 32)))
  else s1

/-- A write to SYS_PACE_NEAR(i): each 1 clears near of its Hearth in both registers (R36). -/
def State.paceNearWrite (s : State) (i : Nat) (v : Word) : State :=
  (List.range 32).foldl (fun t b =>
    if bitOf v.toNat b && 32 * i + b < 192 then
      (t.setFld (HRT_PACE_STATUS (32 * i + b)) HRT_PACE_STATUS_near 0).setReg (SYS_PACE_NEAR i)
        (t.reg (SYS_PACE_NEAR i) &&& ~~~BitVec.ofNat 32 (2 ^ b))
    else t) s

/-- PACE_NEAR_CLEAR (R36). -/
def execPaceNearClear (m : Mid) (r : NearReg) (v : Word) (s : State) : Host.Outcome State Fault Refusal :=
  match r with
  | .hrt h => s.run fun s => s.writeReg m.val (HRT_PACE_STATUS h.val) v (accept fun s => s.paceStatusWrite h.val v)
  | .sys i => s.run fun s => s.writeReg m.val (SYS_PACE_NEAR i.val) v (accept fun s => s.paceNearWrite i.val v)

end Sys2Proof.Machine
end

