-- ==== Sys2Proof/Machine/Flue.lean ====
section
/-! DEFINITION. The Flue (07): routing and hops on both planes, the accesses of Hearths as MOVE tokens, stations' counts, the
route swap and the stall watchdog. -/

namespace Sys2Proof.Machine

/-! ### Geometry (R194, R195) -/

def portCode : FPort → Nat
  | .l => 0
  | .n => 1
  | .e => 2
  | .s => 3
  | .w => 4

/-- The router beyond a port, if the mesh goes on there. -/
def neighbour (r : Nat) : FPort → Option Nat
  | .l => none
  | .n => if r < 12 then none else some (r - 12)
  | .e => if r % 12 = 11 then none else some (r + 1)
  | .s => if 180 ≤ r then none else some (r + 12)
  | .w => if r % 12 = 0 then none else some (r - 1)

/-- The input of the neighbour that a port leads to. -/
def opposite : FPort → FPort
  | .l => .l
  | .n => .s
  | .e => .w
  | .s => .n
  | .w => .e

/-- Stations of a plane (Table: Edge stations): of the move plane the memory stations. -/
def planeStation (mv : Bool) (s : Nat) : Bool :=
  if mv then (34 ≤ s && s < 42) || (46 ≤ s && s < 54) else s < 30 || s = 32 || s = 33 || s = 42 || s = 43

/-- Router and port of a station. -/
def stationPlace (s : Nat) : Nat × FPort :=
  if s < 16 then (12 * s, .w)
  else if s < 32 then (12 * (s - 16) + 11, .e)
  else if s < 44 then (s - 32, .n)
  else (180 + (s - 44), .s)

/-- The station of a plane at a port that points off the mesh. -/
def stationAt (mv : Bool) (r : Nat) (p : FPort) : Option Nat :=
  let s := match p with
    | .w => r / 12
    | .e => 16 + r / 12
    | .n => 32 + r % 12
    | .s => 44 + r % 12
    | .l => 64
  if planeStation mv s && decide (stationPlace s = (r, p)) then some s else none

/-- The memory station of an engine address: that of the Mantel bank with the number address[7:4], and memory station 0 for what
lies outside the Mantel (R195, R229). -/
def memStation (a : Nat) : Nat :=
  if a < 0x00800000 then (if a / 16 % 16 < 8 then 34 + a / 16 % 16 else 38 + a / 16 % 16) else 34

/-! ### Tokens -/

def kindCode : TokKind → Nat
  | .audio => 0
  | .param => 1
  | .event => 2
  | .control => 3
  | .move => 4

/-- AUDIO and EVENT tokens go by route table (R196). -/
def tableRouted (k : TokKind) : Bool := k = .audio || k = .event

/-! ### Route tables (R199, R205, R206) -/

def State.activeBank (s : State) : Bool := s.bit FLUE_RT_STAT FLUE_RT_STAT_bank

def routeKey (bank : Bool) (r tag : Nat) : Nat := (b2n bank * 192 + r) * 4096 + tag

def State.routeEntry (s : State) (bank : Bool) (r tag : Nat) : Nat := tabGet zeroNat s.flue.routes (routeKey bank r tag)

def State.setRoute (s : State) (bank : Bool) (r tag v : Nat) : State :=
  { s with flue := { s.flue with routes := tabSet zeroNat s.flue.routes (routeKey bank r tag) v } }

/-- Four entries as a word of HRT_ROUTE_SH or HRT_ROUTE_ACT. -/
def State.routeWord (s : State) (bank : Bool) (r w : Nat) : Word :=
  BitVec.ofNat 32 (s.routeEntry bank r (4 * w) + s.routeEntry bank r (4 * w + 1) * 2 ^ 8 +
    s.routeEntry bank r (4 * w + 2) * 2 ^ 16 + s.routeEntry bank r (4 * w + 3) * 2 ^ 24)

def State.setRouteWord (s : State) (bank : Bool) (r w : Nat) (v : Word) : State :=
  (List.range 4).foldl (fun t b => t.setRoute bank r (4 * w + b) (v.toNat / 256 ^ b % 128)) s

/-! ### Routing (R200, R204) -/

/-- An edge port points off the mesh. -/
def isEdge (r : Nat) (p : FPort) : Bool := p != .l && (neighbour r p).isNone

/-- Table: Outputs allowed by input. -/
def allowedOut (r : Nat) (inp out : FPort) : Bool :=
  match inp with
  | .l => out != .l
  | .w => if isEdge r .w then out != .w else out = .l || out = .n || out = .s || out = .e
  | .e => if isEdge r .e then out != .e else out = .l || out = .n || out = .s || out = .w
  | .n => if isEdge r .n then out != .n else out = .l || out = .s || isEdge r out
  | .s => if isEdge r .s then out != .s else out = .l || out = .n || isEdge r out

/-- The outputs that a route entry names. -/
def entryOuts (entry : Nat) : List FPort :=
  [FPort.l, .n, .e, .s, .w].filter fun p => bitOf entry (portCode p)

/-- Router and port of a node ID that is not reserved (R195). -/
def nodePlace (node : Nat) : Option (Nat × FPort) :=
  if node < 192 then some (node, .l)
  else if node < 0xF8 then some (stationPlace (node - 0xC0))
  else none

/-- The next output of a directed token: along X, then along Y, then to L or the node's edge port (R204). -/
def directedOut (r node : Nat) : List FPort :=
  match nodePlace node with
  | none => []
  | some (d, p) =>
    if r % 12 < d % 12 then [.e]
    else if d % 12 < r % 12 then [.w]
    else if r / 12 < d / 12 then [.s]
    else if d / 12 < r / 12 then [.n]
    else [p]

/-- The outputs of a token that came in by a port. -/
def State.tokenOuts (s : State) (r : Nat) (inp : FPort) (f : FTok) : List FPort :=
  if tableRouted f.tok.kind then (entryOuts (s.routeEntry f.bank r f.tok.ctag)).filter (allowedOut r inp)
  else directedOut r (f.tok.ctag % 256)

/-- The outputs that the token at the front of an input still waits for. -/
def State.waitsFor (s : State) (r : Nat) (inp : FPort) (f : FTok) : List FPort :=
  match f.outs with
  | some l => l
  | none => s.tokenOuts r inp f

/-! ### Sinks -/

/-- The misroute sink of a router takes a copy (R202). -/
def State.misroute (s : State) (r : Nat) (inp : FPort) (t : Token) : State :=
  let s := s.bump FLUE_MIS_COUNT whole
  if s.bit FLUE_MIS_INFO FLUE_MIS_INFO_valid then s
  else s.setReg FLUE_MIS_INFO (BitVec.ofNat 32
    (r + portCode inp * 2 ^ 8 + b2n (t.kind = .move) * 2 ^ 11 + kindCode t.kind * 2 ^ 12 + t.ctag * 2 ^ 16 + 2 ^ 31))

/-- Tokens in input p of router r on a plane. -/
def bufKey (mv : Bool) (r : Nat) (p : FPort) : Nat := (b2n mv * 192 + r) * 5 + portCode p

def noFToks (_ : Nat) : List FTok := []

def State.bufOf (s : State) (mv : Bool) (r : Nat) (p : FPort) : List FTok := tabGet noFToks s.flue.bufs (bufKey mv r p)

def State.setBuf (s : State) (mv : Bool) (r : Nat) (p : FPort) (l : List FTok) : State :=
  { s with flue := { s.flue with bufs := tabSet noFToks s.flue.bufs (bufKey mv r p) l } }

/-- The move-plane tokens that Hearth n holds for injection. -/
def State.moutOf (s : State) (n : Nat) : List Token := tabGet noTokens s.flue.mout n

def State.setMout (s : State) (n : Nat) (l : List Token) : State :=
  { s with flue := { s.flue with mout := tabSet noTokens s.flue.mout n l } }

def State.outboxOf (s : State) (st : Nat) : List Token := tabGet noTokens s.flue.outbox st

def State.setOutbox (s : State) (st : Nat) (l : List Token) : State :=
  { s with flue := { s.flue with outbox := tabSet noTokens s.flue.outbox st l } }

/-- A station forms a token and holds it for injection, in order. -/
def State.stationSend (s : State) (st : Nat) (t : Token) : State := s.setOutbox st (s.outboxOf st ++ [t])

def State.inboxOf (s : State) (st : Nat) : List Token := tabGet noTokens s.flue.inbox st

def State.setInbox (s : State) (st : Nat) (l : List Token) : State :=
  { s with flue := { s.flue with inbox := tabSet noTokens s.flue.inbox st l } }

/-- Input queue q of a Hearth. -/
def Hearth.queue (h : Hearth) (q : Nat) : List Token := tabGet noTokens h.q q

def Hearth.setQueue (h : Hearth) (q : Nat) (l : List Token) : Hearth := { h with q := tabSet noTokens h.q q l }

/-- A token lands in a Hearth's input queue; for the pace queue in QUEUE mode that is an arrival (R33). -/
def State.landInQueue (s : State) (n q : Nat) (t : Token) : State :=
  let s := s.modHearth n fun h => h.setQueue q (h.queue q ++ [t])
  if s.bit (HRT_PACE_CTRL n) HRT_PACE_CTRL_mode && s.fld (HRT_PACE_CTRL n) HRT_PACE_CTRL_queue = q then s.paceArrival n
  else s

/-! ### The move plane (R196, R198, R229) -/

/-- The sub-codes of MOVE tokens: towards a memory station a command or a datum of an access, and a word of a MOVE; and an
answer. Their sample tag is the Hearth that issued the access, and of an answer the memory station. -/
abbrev moveSubAccess : Nat := 0
abbrev moveSubWord : Nat := 1
abbrev moveSubAnswer : Nat := 2

/-- A MOVE token from `src` to the station st. DESIGN CHOICE, log entry 158. -/
def moveTok (src st sub : Nat) (payload : Word) : Token := ⟨.move, src, 0xC0 + st + sub * 2 ^ 8, payload⟩

/-- The tokens of an access to its memory station (Table: Move-plane tokens per Mantel access): a command, and the data of a
write; of a MOVE two commands. -/
def moveTokens (n : Nat) (x : Access) (copy : Option Nat) : List Token :=
  let tok (w : Word) : Token := moveTok n (memStation x.addr) moveSubAccess w
  tok (BitVec.ofNat 32 x.addr) :: (match copy, x.write with
    | some dst, _ => [tok (BitVec.ofNat 32 dst)]
    | none, none => []
    | none, some v => tok (v.truncate 32) :: (if x.size = .b64 then [tok (v.extractLsb' 32 32)] else []))

/-- Hearth n sends an access on the move plane: its tokens wait at the L input. A MOVE copies `words` words to `dst`. -/
def State.moveSend (s : State) (n : Nat) (x : Access) (copy : Option (Nat × Nat)) (waits : Bool) : State :=
  let l := s.moves n
  let id := match l.getLast? with
    | none => 0
    | some o => o.id + 1
  let toks := moveTokens n x (copy.map fun c => c.1)
  let op : MoveOp := ⟨id, x, copy.map fun c => (c.1, c.2, none), waits, .going toks.length⟩
  (s.setMoves n (l ++ [op])).setMout n (s.moutOf n ++ toks)

/-- Changes the first access of Hearth n on the move plane for which f answers. -/
def modFirst (f : MoveOp → Option MoveOp) : List MoveOp → List MoveOp
  | [] => []
  | o :: rest =>
    match f o with
    | some o' => o' :: rest
    | none => o :: modFirst f rest

/-- The memory station that answers an access: that of its address, and of a MOVE that of its last destination word. -/
def MoveOp.answerStation (o : MoveOp) : Nat :=
  match o.copy with
  | none => memStation o.acc.addr
  | some (dst, _, _) => memStation dst

/-- An answer token reaches the Hearth that issued the access. -/
def State.moveBack (s : State) (n st : Nat) : State :=
  s.setMoves n (modFirst (fun o => match o.stage with
    | .back (k + 1) r => if o.answerStation = st then some { o with stage := .back k r } else none
    | _ => none) (s.moves n))

/-! ### Hops (R201 to R204, R213 to R215) -/

/-- Output L of router r offers a token to its Hearth: an input queue, a pending slot, the Pace monitor, or the issuer of an
access (R196, R215). A PARAM token with a sub-code of 4 to 15 is discarded and sets bad (R252). `none` when a full queue stalls
the output (R214). -/
def State.deliverLocal (s : State) (r : Nat) (f : FTok) : Option State :=
  match f.tok.kind with
  | .param =>
    if 4 ≤ f.tok.ctag / 256 then some (s.setFld (HRT_PARAM_STAT r) HRT_PARAM_STAT_bad 1)
    else some (s.modHearth r fun h => { h with paramIn := h.paramIn ++ [f.tok] })
  | .control => some (s.modHearth r fun h => { h with ctlIn := h.ctlIn ++ [f.tok] })
  | .move => some (s.moveBack r f.tok.stag)
  | _ =>
    let q := s.routeEntry f.bank r f.tok.ctag / 32 % 4
    if ((s.hearth r).queue q).length < 8 then some (s.landInQueue r q f.tok) else none

/-- One output takes its copy of a token, or stalls it (R201, R202, R213, R214). Memory stations hold tokens back while the RAMs
are closed (R215, R327). -/
def State.deliver (s : State) (r : Nat) (inp : FPort) (f : FTok) (out : FPort) : Option State :=
  let mv := decide (f.tok.kind = .move)
  if out = .l then s.deliverLocal r f
  else match neighbour r out with
    | some r2 =>
      let b := s.bufOf mv r2 (opposite out)
      if b.length < 2 then some (s.setBuf mv r2 (opposite out) (b ++ [{ f with outs := none }])) else none
    | none =>
      match stationAt mv r out with
      | some st => if mv && !s.ramOpen then none else some (s.setInbox st (s.inboxOf st ++ [f.tok]))
      | none => some (s.misroute r inp f.tok)

/-- The key of an output: where its round robin is kept. -/
def State.lastServed (s : State) (mv : Bool) (r : Nat) (out : FPort) : Nat := tabGet zeroNat s.flue.served (bufKey mv r out)

/-- How far after the input served last an input comes in its output's round robin. -/
def turnOrder (last : Nat) (p : FPort) : Nat := (portCode p + 4 - last % 5) % 5

/-- At output `out` it is the turn of input `inp`: no input whose token waits for this output comes before it (R203). -/
def State.outTurn (s : State) (mv : Bool) (r : Nat) (inp out : FPort) : Bool :=
  let last := s.lastServed mv r out
  [FPort.l, .n, .e, .s, .w].all fun q => q = inp || decide (turnOrder last inp < turnOrder last q) ||
    match s.bufOf mv r q with
    | [] => true
    | f :: _ => !(s.waitsFor r q f).contains out

def State.setServed (s : State) (mv : Bool) (r : Nat) (out inp : FPort) : State :=
  { s with flue := { s.flue with served := tabSet zeroNat s.flue.served (bufKey mv r out) (portCode inp) } }

/-- Every output that waits for a copy takes it if it is the input's turn and it can; the outputs that still wait remain. -/
def State.forkTo (s : State) (r : Nat) (inp : FPort) (f : FTok) : List FPort → State × List FPort
  | [] => (s, [])
  | o :: rest =>
    let mv := decide (f.tok.kind = .move)
    match if s.outTurn mv r inp o then s.deliver r inp f o else none with
    | some s' => (s'.setServed mv r o inp).forkTo r inp f rest
    | none => ((s.forkTo r inp f rest).1, o :: (s.forkTo r inp f rest).2)

def noPorts (_ : Nat) : List FPort := []

def State.setStallSeen (s : State) (mv : Bool) (r : Nat) (p : FPort) (l : List FPort) : State :=
  { s with flue := { s.flue with stallSeen := tabSet noPorts s.flue.stallSeen (bufKey mv r p) l } }

/-- The token at the front of a router input moves on (R201 to R204). -/
def State.routeHead (s : State) (mv : Bool) (r : Nat) (inp : FPort) : State :=
  match s.bufOf mv r inp with
  | [] => s
  | f :: rest =>
    let outs := s.waitsFor r inp f
    if outs = [] then (s.setBuf mv r inp rest).misroute r inp f.tok
    else
      let (s', left) := (s.setBuf mv r inp rest).forkTo r inp f outs
      match left with
      | [] => s'.setStallSeen mv r inp []
      | o :: l => s'.setBuf mv r inp ({ f with outs := some (o :: l) } :: s'.bufOf mv r inp)

/-- An input that stands at a source takes one token in: from the Hearth's output queue or its move-plane tokens, unless its fence
gates them (R217), or from the station at the edge port. AUDIO and EVENT tokens are stamped with the active bank (R205). -/
def State.inject (s : State) (mv : Bool) (r : Nat) (inp : FPort) : State :=
  let b := s.bufOf mv r inp
  let take (t : State) (k : Token) : State := t.setBuf mv r inp (b ++ [⟨k, s.activeBank, none⟩])
  if 2 ≤ b.length then s
  else if inp = .l then
    if s.bit (HRT_FENCE r) HRT_FENCE_gate then s
    else if mv then
      match s.moutOf r with
      | [] => s
      | k :: rest => take (s.setMout r rest) k
    else
      match (s.hearth r).out with
      | [] => s
      | k :: rest => take (s.modHearth r fun h => { h with out := rest }) k
  else match stationAt mv r inp with
    | none => s
    | some st =>
      match s.outboxOf st with
      | [] => s
      | k :: rest => take (s.setOutbox st rest) k

/-- One passage through a router: its input takes a token in, if it stands at a source, and its first token moves on. -/
def State.hop (s : State) (mv : Bool) (r : Nat) (p : FPort) : State := (s.inject mv r p).routeHead mv r p

/-! ### Station counts (R218, R221) -/

/-- What a station counts; the numbers are those of the bits of FLUE_ST(s)_STAT. -/
inductive StCount where
  | late | stale | early | overrun | unmapped | dup
deriving DecidableEq, Repr

def StCount.bit : StCount → Nat
  | .late => 0
  | .stale => 1
  | .early => 2
  | .overrun => 3
  | .unmapped => 4
  | .dup => 5

/-- The event of a count (R221). -/
def StCount.source : StCount → Nat
  | .late => 389
  | .overrun => 390
  | _ => 391

/-- A station's count rises: its sticky bit is set, and when that bit was 0 and is enabled, FLUE_ST_SUM and the event. -/
def State.stationCount (s : State) (st : Nat) (c : StCount) : State :=
  let s := s.bump (FLUE_ST_LATE st + 4 * c.bit) whole
  let b := 2 ^ c.bit
  if bitOf (s.reg (FLUE_ST_STAT st)).toNat c.bit then s
  else
    let s := s.setReg (FLUE_ST_STAT st) (s.reg (FLUE_ST_STAT st) ||| BitVec.ofNat 32 b)
    if bitOf (s.reg (FLUE_ST_IRQ_EN st)).toNat c.bit then
      (s.setReg (FLUE_ST_SUM (st / 32)) (s.reg (FLUE_ST_SUM (st / 32)) ||| BitVec.ofNat 32 (2 ^ (st % 32)))).raise c.source
    else s

/-- A late slot: the count, and the late notice to the owner Hearth unless the owner is none (R28, R30, R198). An owner
that names no Hearth is routed as any directed token (R204). DEDUCED, log entry 66. -/
def State.lateSlot (s : State) (st slot e owner : Nat) : State :=
  let s := s.stationCount st .late
  if owner = 0xFF then s
  else s.stationSend st ⟨.control, e, owner, BitVec.ofNat 32 (0xC0 + st + slot % 32 * 2 ^ 8)⟩

/-- What the tag check answers (R27). -/
inductive TagJudge where
  | onTime | stale | early
deriving DecidableEq, Repr

/-- d = (t − e) mod 256, read as a signed number. -/
def tagJudge (t e : Nat) : TagJudge :=
  let d := (t + 256 - e % 256) % 256
  if d = 0 then .onTime else if 128 ≤ d then .stale else .early

/-! ### The route swap (R206 to R208) -/

def State.rallyNow (s : State) : Nat := s.rallyCount

/-- A Rally key lies in the past (R129). -/
def State.rallyPast (s : State) (key : Nat) : Bool :=
  let d := (key + 2 ^ 48 - s.rallyCount) % 2 ^ 48
  d = 0 || decide (2 ^ 47 ≤ d)

def State.routeKeyOf (s : State) : Nat :=
  (s.reg FLUE_RT_KEY_LO).toNat + s.fld FLUE_RT_KEY_HI FLUE_RT_KEY_HI_key * 2 ^ 32

def State.routeArmed (s : State) : Bool := s.bit FLUE_RT_CTRL FLUE_RT_CTRL_arm

def State.routeCopying (s : State) : Bool := s.bit FLUE_RT_STAT FLUE_RT_STAT_copying

/-- A write to FLUE_RT_CTRL (R207). -/
def writeRtCtrl (v : Word) : WriteEff := fun s =>
  let arm := bitOf v.toNat 0
  let cancel := bitOf v.toNat 1
  if arm && cancel then (.slverr, s)
  else if arm && s.routeCopying then (.slverr, s)
  else if arm then
    if s.routeArmed then (.ok, s)
    else
      let s1 := s.setFld FLUE_RT_CTRL FLUE_RT_CTRL_arm 1
      (.ok, { s1 with flue := { s1.flue with swapLate := s.rallyPast s.routeKeyOf, swapDue := none } })
  else if cancel then
    let s1 := s.setFld FLUE_RT_CTRL FLUE_RT_CTRL_arm 0
    (.ok, { s1 with flue := { s1.flue with swapLate := false, swapDue := none } })
  else (.ok, s)

/-- ROUTE_SWAP_ARM (R207): a write to FLUE_RT_CTRL. -/
def execRouteSwapArm (m : Mid) (v : Word) (s : State) : Host.Outcome State Fault Refusal :=
  s.run fun s => s.writeReg m.val FLUE_RT_CTRL v (writeRtCtrl v)

/-- ROUTE_SWAP_CANCEL (R207): a write of 1 to cancel, with arm at 0. -/
def execRouteSwapCancel (m : Mid) (s : State) : Host.Outcome State Fault Refusal :=
  s.run fun s => s.writeReg m.val FLUE_RT_CTRL 2 (writeRtCtrl 2)

/-- A write to a key register while a swap is armed is refused (R207). -/
def writeRtKey (hi : Bool) (v : Word) : WriteEff := fun s =>
  acceptIf (!s.routeArmed) (fun s => s.plainWrite (if hi then FLUE_RT_KEY_HI else FLUE_RT_KEY_LO) v) s

/-- A write to HRT_ROUTE_SH(w) of Hearth n (R206). -/
def writeRouteSh (n w : Nat) (v : Word) : WriteEff := fun s =>
  acceptIf (!s.routeArmed && !s.routeCopying) (fun s => s.setRouteWord (!s.activeBank) n w v) s

/-- ROUTE_SHADOW_WRITE (R206). -/
def execRouteShadowWrite (m : Mid) (h : HearthId) (w : Fin 1024) (v : Word) (s : State) :
    Host.Outcome State Fault Refusal :=
  s.run fun s => s.writeReg m.val (HRT_ROUTE_SH h.val w.val) v (writeRouteSh h.val w.val v)

/-- At a Rally instant an armed swap becomes due: on its key, at the first instant after an arm in the past, or at a jump
that passed over the key (R207, R127). `passed` says that the instant's jump passed over the key. -/
def State.routeRally (s : State) (passed : Nat → Bool) : State :=
  let due : Option Bool :=
    if s.routeArmed then
      if s.flue.swapDue.isSome then s.flue.swapDue
      else if s.flue.swapLate then some true
      else if s.rallyCount = s.routeKeyOf then some false
      else if passed s.routeKeyOf then some true
      else none
    else none
  { s with flue := { s.flue with swapDue := due } }

/-- ROUTE_SWAP (R207, R208): at the Rally instant at which it is due, every router exchanges its banks. -/
def execRouteSwap (s : State) : Host.Outcome State Fault Refusal :=
  s.runKey fun s =>
    match s.flue.swapDue with
    | none => s
    | some late =>
      let s1 := s.setFld FLUE_RT_STAT FLUE_RT_STAT_bank (b2n (!s.activeBank))
      let s2 := (s1.setFld FLUE_RT_STAT FLUE_RT_STAT_copying 1).setFldIf late FLUE_RT_STAT FLUE_RT_STAT_late 1
      let s3 := s2.setFld FLUE_RT_CTRL FLUE_RT_CTRL_arm 0
      { s3 with flue := { s3.flue with swapLate := false, swapDue := none } }

/-- Some AUDIO or EVENT token that is stamped with a bank has not reached a sink. -/
def State.bankInUse (s : State) (bank : Bool) : Bool :=
  s.flue.bufs.any fun e => e.2.any fun f => tableRouted f.tok.kind && f.bank = bank

/-- The route tables with the active bank copied into the shadow bank of every router. -/
def copyBank (active : Bool) (routes : Tab Nat) : Tab Nat :=
  let half := 192 * 4096
  let act := (routes.filter fun e => decide (half ≤ e.1) = active).map fun e => (e.1 % half, e.2)
  act ++ act.map fun e => (e.1 + half, e.2)

/-- ROUTE_COPY_COMPLETE (R208): the copy ends once every token of the former bank has reached a sink. -/
def execRouteCopyComplete (s : State) : Host.Outcome State Fault Refusal :=
  s.run fun s =>
    if s.routeCopying && !s.bankInUse (!s.activeBank) then
      let s1 := { s with flue := { s.flue with routes := copyBank s.activeBank s.flue.routes } }
      (s1.setFld FLUE_RT_STAT FLUE_RT_STAT_copying 0).setFld FLUE_RT_STAT FLUE_RT_STAT_done 1
    else s

/-! ### The stall watchdog (R216) -/

/-- A stall is counted, and the first is captured. -/
def State.countStall (s : State) (r : Nat) (out : FPort) (mv : Bool) (kind tag : Nat) : State :=
  let s := s.bump FLUE_STALL_COUNT whole
  if s.bit FLUE_STALL_INFO FLUE_STALL_INFO_valid then s
  else s.setReg FLUE_STALL_INFO (BitVec.ofNat 32
    (r + portCode out * 2 ^ 8 + b2n mv * 2 ^ 11 + kind * 2 ^ 12 + tag * 2 ^ 16 + 2 ^ 31))

/-- FLUE_STALL (R216): on either plane the token at the front of input `inp`, with the channel tag `tag`, has waited
FLUE_STALL.limit Ts at output `out` of router r. It is counted once for each output. -/
def execFlueStall (mv : Bool) (r : HearthId) (out inp : FPort) (tag : Fin 4096) (s : State) : Host.Outcome State Fault Refusal :=
  s.runXo fun s =>
    if s.fld FLUE_STALL FLUE_STALL_limit = 0 then s
    else match s.bufOf mv r.val inp with
      | [] => s
      | f :: _ =>
        let seen := tabGet noPorts s.flue.stallSeen (bufKey mv r.val inp)
        if f.tok.ctag = tag.val && (s.waitsFor r.val inp f).contains out && !seen.contains out then
          (s.countStall r.val out mv (kindCode f.tok.kind) f.tok.ctag).setStallSeen mv r.val inp (out :: seen)
        else s

end Sys2Proof.Machine
end

