-- ==== Sys2Proof/Machine/HearthExec.lean ====
section
/-! DEFINITION. How a Hearth executes one instruction: the checks before it, its retirement, stalls and traps (08). -/

namespace Sys2Proof.Machine

/-- A trap of Hearth n: the entry of R246 and its 2 steps (R234). -/
def State.hTrap (s : State) (n cause : Nat) (val : Word) (info xpc xnpc : Nat) : State :=
  (s.trapEnter n cause val info xpc xnpc).paceSteps n 2

/-- The imprecise trap for the first error that waits (R247): BUS with its response, or DECC. It abandons a stalled
instruction, which has had no effect. -/
def State.impreciseTrap (s : State) (n : Nat) : State :=
  let h := s.hearth n
  match h.imprecise with
  | none => s
  | some (a, r) =>
    let s1 := s.setHearth n { h with imprecise := none }
    match r with
    | some resp => s1.hTrap n causeBUS (BitVec.ofNat 32 a) (respCode resp + 8) h.pc h.npc
    | none => s1.hTrap n causeDECC (BitVec.ofNat 32 a) 8 h.pc h.npc

/-- An error of a posted access or a draining store waits for the next boundary; the first one counts (R247). -/
def State.noteImprecise (s : State) (n a : Nat) (r : Option Resp) : State :=
  s.modHearth n fun h => if h.imprecise.isSome then h else { h with imprecise := some (a, r) }

/-- After an instruction: a watchpoint it met halts the Hearth, and so does the end of a debug step (R517), or a write of 0 to
run that found an LDM waiting for its answer (R256). -/
def State.hEnd (s : State) (n : Nat) : State :=
  let h := s.hearth n
  match h.wpHit with
  | some j => s.debugHalt n 4 j
  | none =>
    if h.stepping && h.stalled.isNone then s.debugHalt n 2 0
    else if h.haltDue && !h.sent then s.debugHalt n 1 0
    else s

/-- An Assist operation that is accepted and squashed at once (R240). -/
def Hearth.squashIssue (h : Hearth) : Hearth :=
  if h.assist.isNone then { h with assist := some ⟨0, false, false, true⟩ } else h

/-- An instruction of Hearth n whose slot is annulled (R234, R236): one step. A parity error of its fetch counts (R231),
and an Assist instruction that issues to an idle Assist is squashed (R240). -/
def State.hAnnulled (s : State) (n : Nat) (asst : Bool) : State :=
  let h := s.hearth n
  let s1 := if tabGet falseAt h.progBad h.pc then s.tileUnc n h.pc true else s
  let s2 := s1.modHearth n fun h => if asst then h.settleShadows.annulStep.squashIssue else h.settleShadows.annulStep
  (s2.modHearth n fun h => { h with bpSkip := false }).paceSteps n 1

/-- The instruction at PC is a live loop's end (R242). -/
def Hearth.atLoopEnd (h : Hearth) : Bool :=
  match h.loops with
  | [] => false
  | e :: _ => e.matches h.pc h.stat

/-- What an answer makes of the Hearth: retirement (R236, R242), a stall (R237), or a trap (R246). `h` is the Hearth as
the instruction found it. -/
def State.hFinish (n : Nat) (i : Instr) (h : Hearth) : HRes → State
  | .done s flow steps =>
    (s.modHearth n fun t => { t.advance h.pc h.npc flow with stalled := none, bpSkip := false }).paceSteps n steps
  | .stall s => s.modHearth n fun t => { t with stalled := some i, bpSkip := true }
  | .trap s cause val info => s.hTrap n cause val info h.pc h.npc
  | .soft s val => (s.paceSteps n 1).hTrap n causeTRAP val 0 h.npc ((h.npc + 1) % 4096)

/-- The traps that come before the operation: a parity error (R231), a reserved encoding (R261), a loop end that is a control
instruction or a delay slot (R242), and a control instruction in a slot (R236). DEDUCED, log entry 11. -/
def Hearth.fetchTrap (h : Hearth) (wf ctl : Bool) : Option Nat :=
  if tabGet falseAt h.progBad h.pc then some causeIPAR
  else if !wf then some causeILLEGAL
  else if h.atLoopEnd && (ctl || h.inSlot) then some causeLOOPFORM
  else if ctl && h.inSlot then some causeILLEGAL
  else none

/-- Hearth n executes instruction i. `wf`: its operands form no reserved encoding; `ctl`: it is a control instruction of
R279; `asst`: it issues to the Assist. The operation reads the Hearth as it stood (the load shadow of R235) and changes a
state in which the pending load has landed (R274). A Hearth that does not execute, or that is stalled on another
instruction, does nothing. -/
def State.hInstr (s : State) (n : Nat) (i : Instr) (wf ctl asst : Bool) (op : Hearth → State → HRes) : State :=
  let h := s.hearth n
  if !s.executes n then s
  else if h.stalled.isSome && h.stalled != some i then s
  else if !h.bpSkip && (s.breakpoint n h.pc).isSome then s.debugHalt n 3 ((s.breakpoint n h.pc).getD 0)
  else if h.imprecise.isSome && !h.sent then (s.impreciseTrap n).hEnd n
  else if h.stat.annul then (s.hAnnulled n asst).hEnd n
  else
    match h.fetchTrap wf ctl with
    | some c =>
      let s1 := if c = causeIPAR then s.tileUnc n h.pc true else s
      (s1.hTrap n c 0 0 h.pc h.npc).hEnd n
    | none => (State.hFinish n i h (op h (s.modHearth n Hearth.settleShadows))).hEnd n

/-- An instruction with no reserved operands that is neither a control nor an Assist instruction. -/
def State.hPlain (s : State) (n : Nat) (i : Instr) (op : Hearth → State → HRes) : State :=
  s.hInstr n i true false false op

/-! ### Accesses that do not complete as they are issued -/

/-- The answer tokens of an access (Table: Move-plane tokens per Mantel access). -/
def MoveOp.answers (o : MoveOp) : Nat := if o.acc.size = .b64 && o.acc.write.isNone && o.copy.isNone then 2 else 1

/-- The memory station sends the answer of access k of Hearth n. -/
def State.moveAnswer (s : State) (n k : Nat) (r : Reply) : State :=
  match (s.moves n).find? fun o => o.id = k with
  | none => s
  | some o =>
    let tok : Token := ⟨.move, o.answerStation, n + moveSubAnswer * 2 ^ 8, r.data.truncate 32⟩
    let s1 := s.setMoves n (modFirst (fun o => if o.id = k then some { o with stage := .back o.answers r } else none) (s.moves n))
    s1.setOutbox o.answerStation (s1.outboxOf o.answerStation ++ List.replicate o.answers tok)

/-- Takes the answer of an access to the one who waits for it: that of a Hearth's access goes back on the move plane, and others
are kept until they are taken. -/
def State.answer (s : State) (who : Waiter) (r : Reply) : State :=
  let kept : Reply := ⟨r.resp, if respErr r.resp then 0 else r.data⟩
  match who with
  | .nobody => s
  | .move n k => s.moveAnswer n k kept
  | w => { s with answers := s.answers ++ [(w, kept)] }

/-- The oldest answer for one who waits. -/
def State.takeAnswer (s : State) (who : Waiter) : Option (Reply × State) :=
  match s.answers.find? fun x => x.1 = who with
  | none => none
  | some x => some (x.2, { s with answers := s.answers.erase x })

/-! ### Common answers -/

/-- Writes a g register of Hearth n. -/
def State.wrG (s : State) (n : Nat) (r : GReg) (v : Word) : State := s.modHearth n fun h => h.setG r.val v

/-- Changes STAT of Hearth n. -/
def State.modStat (s : State) (n : Nat) (f : Stat → Stat) : State := s.modHearth n fun h => { h with stat := f h.stat }

/-- Retires after one step, in sequence. -/
def HRes.ok (s : State) : HRes := .done s .seq 1

/-- Writes rd and flags, and retires. -/
def hWrite (n : Nat) (s : State) (rd : GReg) (v : Word) (f : Stat → Stat) : HRes := .ok ((s.wrG n rd v).modStat n f)

end Sys2Proof.Machine
end

