-- ==== Sys2Proof/Machine/Operands.lean ====
section
/-! DEFINITION. The operand forms of the Hearth's instructions: shift counts, pointer immediates, local addresses, data
RAM, pending slots and the store buffer (R229, R238, R252, R267, R269, R273). -/

namespace Sys2Proof.Machine

/-! ### Counts and immediates -/

/-- The count of a shift: rt[5:0], or the immediate (R267). -/
def Hearth.shiftCount (h : Hearth) : ShiftCount → Nat
  | .reg rt => (h.getG rt.val).toNat % 64
  | .imm k => k.val

/-- The value a pointer-file register takes from MOVI: sign-extended for m, zero-extended for p, b and l (R269). -/
def ptrImm (x : PtrReg) (imm : BitVec 16) : Word :=
  if x.val / 8 = 1 then imm.signExtend 32 else imm.zeroExtend 32

/-- ra + sext(off) (R273, R276). -/
def Hearth.addrOf (h : Hearth) (ra : GReg) (off : BitVec 13) : Word := h.getG ra.val + off.signExtend 32

/-! ### Data RAM (R229 to R231) -/

def locBytes : LocSize → Nat
  | .b => 1
  | .h => 2
  | .w => 4

/-- Reads `n` bytes from an address up, the lowest byte in the low bits. -/
def Hearth.ramBytes (h : Hearth) (a n : Nat) : Nat :=
  (List.range n).foldl (fun acc j => acc + (tabGet zeroByte h.ram (a + j)).toNat * 256 ^ j) 0

/-- Writes the low `n` bytes of a value from an address up. -/
def Hearth.ramPut (h : Hearth) (a n v : Nat) : Hearth :=
  let put (t : Tab Byte) (j : Nat) : Tab Byte := tabSet zeroByte t (a + j) (BitVec.ofNat 8 (v / 256 ^ j % 256))
  { h with ram := (List.range n).foldl put h.ram }

/-- The error mark of a data RAM word: 0 clean, 1 a single-bit error, 2 uncorrectable. -/
def Hearth.wordErr (h : Hearth) (a : Nat) : Nat := tabGet zeroNat h.ramErr (a / 4)

def Hearth.setWordErr (h : Hearth) (a e : Nat) : Hearth := { h with ramErr := tabSet zeroNat h.ramErr (a / 4) e }

/-- The check of a data RAM word as it is read (R231): a single-bit error is corrected, written back and counted; an
uncorrectable error counts and answers false. -/
def State.ramCheck (s : State) (n a : Nat) : Bool × State :=
  match (s.hearth n).wordErr a with
  | 0 => (true, s)
  | 1 => (true, (s.modHearth n fun h => h.setWordErr a 0).bump (HRT_ECC_CORR n) whole)
  | _ => (false, s.tileUnc n (a / 4 * 4) false)

/-- The local address and size name data RAM, or a pending slot as a word where that is allowed (R229, R273). -/
def localOk (a : Nat) (sz : LocSize) (slots : Bool) : Bool :=
  a % locBytes sz = 0 && (a < 0x8000 || (slots && sz = .w && 0x8000 ≤ a && a < 0x8400))

/-! ### The store buffer (R238) -/

/-- A buffered store overlaps an access. -/
def SbEnt.overlaps (e : SbEnt) (a n : Nat) : Bool := a < e.addr + locBytes e.size && e.addr < a + n

/-- The youngest overlapping store. -/
def youngest (sb : List SbEnt) (a n : Nat) : Option SbEnt := sb.reverse.find? fun e => e.overlaps a n

/-- What a local load finds. -/
inductive LoadAns where
  | value (s : State) (v : Nat)
  | stall
  | addr
  | decc (s : State)

/-- A local load of `sz` at address a (R231, R238, R252). -/
def State.localLoad (s : State) (n a : Nat) (sz : LocSize) (slots : Bool) : LoadAns :=
  let h := s.hearth n
  let k := locBytes sz
  if !localOk a sz slots then .addr
  else if 0x8000 ≤ a then .value s (tabGet slotDefault h.slots ((a - 0x8000) / 4)).act.toNat
  else match youngest h.sb a k with
    | some e => if e.addr = a ∧ e.size = sz then .value s (e.data.toNat % 2 ^ (8 * k)) else .stall
    | none =>
      match s.ramCheck n a with
      | (true, s') => .value s' (h.ramBytes a k)
      | (false, s') => .decc s'

/-- Extension of loaded data: zero with .u, else sign (R273). -/
def extend (sz : LocSize) (u : Bool) (v : Nat) : Word :=
  if u then BitVec.ofNat 32 v else BitVec.ofInt 32 (signed (8 * locBytes sz) v)

/-- A watchpoint on the bytes of an access that match its direction (R517). -/
def State.watch (s : State) (n a k : Nat) (write : Bool) : State :=
  let hit := (List.range 2).find? fun j =>
    let hi := HRT_DBG_WP_HI n j
    s.bit hi HRT_DBG_WP_HI_en && (if write then s.bit hi HRT_DBG_WP_HI_w else s.bit hi HRT_DBG_WP_HI_r) &&
    decide (s.fld (HRT_DBG_WP_LO n j) HRT_DBG_WP_LO_first < a + k) && decide (a ≤ s.fld hi HRT_DBG_WP_HI_last)
  match hit with
  | none => s
  | some j => s.modHearth n fun h => if h.wpHit.isSome then h else { h with wpHit := some j }

/-- A store enters the store buffer (R275). -/
def State.pushStore (s : State) (n a : Nat) (sz : LocSize) (v : Word) : State :=
  (s.modHearth n fun h => { h with sb := h.sb ++ [⟨a, sz, v⟩] }).watch n a (locBytes sz) true

/-- The oldest buffered store drains to the RAM. A sub-word store is a read-modify-write of its word: on an uncorrectable
error it is not performed, and the Hearth takes an imprecise DECC (R231, R247). -/
def State.drainOne (s : State) (n : Nat) : State :=
  match (s.hearth n).sb with
  | [] => s
  | e :: rest =>
    let s1 := s.modHearth n fun h => { h with sb := rest }
    if e.size = .w then s1.modHearth n fun h => (h.ramPut e.addr 4 e.data.toNat).setWordErr e.addr 0
    else match s1.ramCheck n e.addr with
      | (true, s2) => s2.modHearth n fun h => h.ramPut e.addr (locBytes e.size) e.data.toNat
      | (false, s2) => s2.noteImprecise n e.addr none

/-- Several buffered stores drain. -/
def State.drainN (s : State) (n : Nat) : Nat → State
  | 0 => s
  | k + 1 => (s.drainOne n).drainN n k

/-- The whole store buffer drains. -/
def State.drainAll (s : State) (n : Nat) : State := s.drainN n (s.hearth n).sb.length

end Sys2Proof.Machine
end

