-- ==== Sys2Proof/Machine/Alu.lean ====
section
/-! DEFINITION. The Hearth's ALU instructions (R266 to R269). -/

namespace Sys2Proof.Machine

/-! ### The operations -/

/-- An addition with flags z n c v (R266, R268). -/
def opAdd (n : Nat) (s : State) (rd : GReg) (a b : Word) (sat : Bool) : HRes :=
  let x := sint a + sint b
  let r := arithResult x sat
  hWrite n s rd r fun t => t.arith r (addCarry a b) (!fits32 x) sat

/-- A subtraction with flags z n c v (R266, R268). -/
def opSub (n : Nat) (s : State) (rd : GReg) (a b : Word) (sat : Bool) : HRes :=
  let x := sint a - sint b
  let r := arithResult x sat
  hWrite n s rd r fun t => t.arith r (subCarry a b) (!fits32 x) sat

/-- A comparison: a subtraction whose result is discarded. -/
def opCmp (n : Nat) (s : State) (a b : Word) : HRes :=
  .ok (s.modStat n fun t => t.arith (a - b) (subCarry a b) (!fits32 (sint a - sint b)) false)

/-- A result with flags z n. -/
def opLogic (n : Nat) (s : State) (rd : GReg) (r : Word) : HRes := hWrite n s rd r fun t => t.setZN r

/-- A result that changes no flag. -/
def opMove (n : Nat) (s : State) (rd : GReg) (r : Word) : HRes := .ok (s.wrG n rd r)

/-- A shift's result and flags z n c; a count of 0 leaves c (R267). -/
def opShift (n : Nat) (s : State) (rd : GReg) (k : Nat) (r : Word) (c : Bool) : HRes :=
  hWrite n s rd r fun t => { (t.setZN r) with c := if k = 0 then t.c else c }

/-- The last bit that a left shift moves out. -/
def shlOut (a : Word) (k : Nat) : Bool := if k ≤ 32 then bitOf a.toNat (32 - k) else false

/-- The last bit that a logical right shift moves out. -/
def shrOut (a : Word) (k : Nat) : Bool := if k ≤ 32 then bitOf a.toNat (k - 1) else false

/-- The last bit that an arithmetic right shift moves out. -/
def sarOut (a : Word) (k : Nat) : Bool := if k ≤ 32 then bitOf a.toNat (k - 1) else a.msb

/-- SHL.s saturates when a bit shifted out, or the new bit 31, differs from bit 31 (R268). -/
def shlOverflows (a : Word) (k : Nat) : Bool := !fits32 (sint a * (2 ^ k : Nat))

/-! ### The instructions -/

def doAdd (h : HearthId) (rd rs rt : GReg) (sat : Bool) (s : State) : State :=
  s.hPlain h.val (.add h rd rs rt sat) fun o s => opAdd h.val s rd (o.getG rs.val) (o.getG rt.val) sat

/-- ADD (R266). -/
def execAdd (h : HearthId) (rd rs rt : GReg) (sat : Bool) (s : State) : Host.Outcome State Fault Refusal :=
  s.run (doAdd h rd rs rt sat)

def doSub (h : HearthId) (rd rs rt : GReg) (sat : Bool) (s : State) : State :=
  s.hPlain h.val (.sub h rd rs rt sat) fun o s => opSub h.val s rd (o.getG rs.val) (o.getG rt.val) sat

/-- SUB (R266). -/
def execSub (h : HearthId) (rd rs rt : GReg) (sat : Bool) (s : State) : Host.Outcome State Fault Refusal :=
  s.run (doSub h rd rs rt sat)

def doAnd (h : HearthId) (rd rs rt : GReg) (s : State) : State :=
  s.hPlain h.val (.and h rd rs rt) fun o s => opLogic h.val s rd (o.getG rs.val &&& o.getG rt.val)

/-- AND (R266). -/
def execAnd (h : HearthId) (rd rs rt : GReg) (s : State) : Host.Outcome State Fault Refusal := s.run (doAnd h rd rs rt)

def doOr (h : HearthId) (rd rs rt : GReg) (s : State) : State :=
  s.hPlain h.val (.or h rd rs rt) fun o s => opLogic h.val s rd (o.getG rs.val ||| o.getG rt.val)

/-- OR (R266). -/
def execOr (h : HearthId) (rd rs rt : GReg) (s : State) : Host.Outcome State Fault Refusal := s.run (doOr h rd rs rt)

def doXor (h : HearthId) (rd rs rt : GReg) (s : State) : State :=
  s.hPlain h.val (.xor h rd rs rt) fun o s => opLogic h.val s rd (o.getG rs.val ^^^ o.getG rt.val)

/-- XOR (R266). -/
def execXor (h : HearthId) (rd rs rt : GReg) (s : State) : Host.Outcome State Fault Refusal := s.run (doXor h rd rs rt)

def doNot (h : HearthId) (rd rs : GReg) (s : State) : State :=
  s.hPlain h.val (.not h rd rs) fun o s => opLogic h.val s rd (~~~o.getG rs.val)

/-- NOT (R266). -/
def execNot (h : HearthId) (rd rs : GReg) (s : State) : Host.Outcome State Fault Refusal := s.run (doNot h rd rs)

def doShl (h : HearthId) (rd rs : GReg) (k : ShiftCount) (sat : Bool) (s : State) : State :=
  s.hPlain h.val (.shl h rd rs k sat) fun o s =>
    let a := o.getG rs.val
    let c := o.shiftCount k
    if sat && shlOverflows a c then
      opShift h.val (s.modStat h.val fun t => t.stickSat true) rd c (sat32 (sint a * (2 ^ c : Nat))) (shlOut a c)
    else opShift h.val s rd c (a <<< c) (shlOut a c)

/-- SHL (R267, R268). -/
def execShl (h : HearthId) (rd rs : GReg) (k : ShiftCount) (sat : Bool) (s : State) :
    Host.Outcome State Fault Refusal := s.run (doShl h rd rs k sat)

def doShr (h : HearthId) (rd rs : GReg) (k : ShiftCount) (s : State) : State :=
  s.hPlain h.val (.shr h rd rs k) fun o s =>
    let c := o.shiftCount k
    opShift h.val s rd c (o.getG rs.val >>> c) (shrOut (o.getG rs.val) c)

/-- SHR (R267). -/
def execShr (h : HearthId) (rd rs : GReg) (k : ShiftCount) (s : State) : Host.Outcome State Fault Refusal :=
  s.run (doShr h rd rs k)

def doSar (h : HearthId) (rd rs : GReg) (k : ShiftCount) (s : State) : State :=
  s.hPlain h.val (.sar h rd rs k) fun o s =>
    let c := o.shiftCount k
    opShift h.val s rd c ((o.getG rs.val).sshiftRight c) (sarOut (o.getG rs.val) c)

/-- SAR (R267). -/
def execSar (h : HearthId) (rd rs : GReg) (k : ShiftCount) (s : State) : Host.Outcome State Fault Refusal :=
  s.run (doSar h rd rs k)

def doRol (h : HearthId) (rd rs : GReg) (k : ShiftCount) (s : State) : State :=
  s.hPlain h.val (.rol h rd rs k) fun o s =>
    let c := o.shiftCount k
    let r := (o.getG rs.val).rotateLeft (c % 32)
    opShift h.val s rd c r (r.getLsbD 0)

/-- ROL (R267). -/
def execRol (h : HearthId) (rd rs : GReg) (k : ShiftCount) (s : State) : Host.Outcome State Fault Refusal :=
  s.run (doRol h rd rs k)

def doMin (h : HearthId) (rd rs rt : GReg) (u : Bool) (s : State) : State :=
  s.hPlain h.val (.min h rd rs rt u) fun o s =>
    let a := o.getG rs.val
    let b := o.getG rt.val
    opLogic h.val s rd (if (if u then a.ult b else a.slt b) then a else b)

/-- MIN (R266). -/
def execMin (h : HearthId) (rd rs rt : GReg) (u : Bool) (s : State) : Host.Outcome State Fault Refusal :=
  s.run (doMin h rd rs rt u)

def doMax (h : HearthId) (rd rs rt : GReg) (u : Bool) (s : State) : State :=
  s.hPlain h.val (.max h rd rs rt u) fun o s =>
    let a := o.getG rs.val
    let b := o.getG rt.val
    opLogic h.val s rd (if (if u then a.ult b else a.slt b) then b else a)

/-- MAX (R266). -/
def execMax (h : HearthId) (rd rs rt : GReg) (u : Bool) (s : State) : Host.Outcome State Fault Refusal :=
  s.run (doMax h rd rs rt u)

def doAbs (h : HearthId) (rd rs : GReg) (sat : Bool) (s : State) : State :=
  s.hPlain h.val (.abs h rd rs sat) fun o s =>
    let x : Int := (sint (o.getG rs.val)).natAbs
    let r := arithResult x sat
    hWrite h.val s rd r fun t => { ((t.setZN r).stickSat (sat && !fits32 x)) with v := !fits32 x }

/-- ABS (R266, R268). -/
def execAbs (h : HearthId) (rd rs : GReg) (sat : Bool) (s : State) : Host.Outcome State Fault Refusal :=
  s.run (doAbs h rd rs sat)

def doNeg (h : HearthId) (rd rs : GReg) (sat : Bool) (s : State) : State :=
  s.hPlain h.val (.neg h rd rs sat) fun o s => opSub h.val s rd 0 (o.getG rs.val) sat

/-- NEG (R266, R268). -/
def execNeg (h : HearthId) (rd rs : GReg) (sat : Bool) (s : State) : Host.Outcome State Fault Refusal :=
  s.run (doNeg h rd rs sat)

def doClz (h : HearthId) (rd rs : GReg) (s : State) : State :=
  s.hPlain h.val (.clz h rd rs) fun o s => opLogic h.val s rd (o.getG rs.val).clz

/-- CLZ (R266). -/
def execClz (h : HearthId) (rd rs : GReg) (s : State) : Host.Outcome State Fault Refusal := s.run (doClz h rd rs)

def doCls (h : HearthId) (rd rs : GReg) (s : State) : State :=
  s.hPlain h.val (.cls h rd rs) fun o s => opLogic h.val s rd (BitVec.ofNat 32 (clsOf (o.getG rs.val)))

/-- CLS (R266). -/
def execCls (h : HearthId) (rd rs : GReg) (s : State) : Host.Outcome State Fault Refusal := s.run (doCls h rd rs)

def doSel (h : HearthId) (rd rs rt : GReg) (c : Cond) (s : State) : State :=
  s.hPlain h.val (.sel h rd rs rt c) fun o s =>
    opMove h.val s rd (if condHolds c o.stat then o.getG rs.val else o.getG rt.val)

/-- SEL (R263, R266). -/
def execSel (h : HearthId) (rd rs rt : GReg) (c : Cond) (s : State) : Host.Outcome State Fault Refusal :=
  s.run (doSel h rd rs rt c)

def doCmp (h : HearthId) (rs rt : GReg) (s : State) : State :=
  s.hPlain h.val (.cmp h rs rt) fun o s => opCmp h.val s (o.getG rs.val) (o.getG rt.val)

/-- CMP (R266). -/
def execCmp (h : HearthId) (rs rt : GReg) (s : State) : Host.Outcome State Fault Refusal := s.run (doCmp h rs rt)

def doMov (h : HearthId) (f : MovForm) (s : State) : State :=
  s.hPlain h.val (.mov h f) fun o s =>
    match f with
    | .gg rd rs => opMove h.val s rd (o.getG rs.val)
    | .toPtr x rs => .ok (s.modHearth h.val fun t => t.setP x.val (o.getG rs.val))
    | .fromPtr rd x => opMove h.val s rd (o.getP x.val)

/-- MOV (R269). -/
def execMov (h : HearthId) (f : MovForm) (s : State) : Host.Outcome State Fault Refusal := s.run (doMov h f)

def doAddi (h : HearthId) (rd rs : GReg) (imm : BitVec 16) (s : State) : State :=
  s.hPlain h.val (.addi h rd rs imm) fun o s => opAdd h.val s rd (o.getG rs.val) (imm.signExtend 32) false

/-- ADDI (R266). -/
def execAddi (h : HearthId) (rd rs : GReg) (imm : BitVec 16) (s : State) : Host.Outcome State Fault Refusal :=
  s.run (doAddi h rd rs imm)

def doSubi (h : HearthId) (rd rs : GReg) (imm : BitVec 16) (s : State) : State :=
  s.hPlain h.val (.subi h rd rs imm) fun o s => opSub h.val s rd (o.getG rs.val) (imm.signExtend 32) false

/-- SUBI (R266). -/
def execSubi (h : HearthId) (rd rs : GReg) (imm : BitVec 16) (s : State) : Host.Outcome State Fault Refusal :=
  s.run (doSubi h rd rs imm)

def doCmpi (h : HearthId) (rs : GReg) (imm : BitVec 16) (s : State) : State :=
  s.hPlain h.val (.cmpi h rs imm) fun o s => opCmp h.val s (o.getG rs.val) (imm.signExtend 32)

/-- CMPI (R266). -/
def execCmpi (h : HearthId) (rs : GReg) (imm : BitVec 16) (s : State) : Host.Outcome State Fault Refusal :=
  s.run (doCmpi h rs imm)

def doMovi (h : HearthId) (rd : GReg) (imm : BitVec 16) (s : State) : State :=
  s.hPlain h.val (.movi h rd imm) fun _ s => opMove h.val s rd (imm.signExtend 32)

/-- MOVI (R266, R269). -/
def execMovi (h : HearthId) (rd : GReg) (imm : BitVec 16) (s : State) : Host.Outcome State Fault Refusal :=
  s.run (doMovi h rd imm)

def doMovhi (h : HearthId) (rd : GReg) (imm : BitVec 16) (s : State) : State :=
  s.hPlain h.val (.movhi h rd imm) fun o s => opMove h.val s rd (imm ++ (o.getG rd.val).extractLsb' 0 16)

/-- MOVHI (R266). -/
def execMovhi (h : HearthId) (rd : GReg) (imm : BitVec 16) (s : State) : Host.Outcome State Fault Refusal :=
  s.run (doMovhi h rd imm)

def doMoviPointer (h : HearthId) (x : PtrReg) (imm : BitVec 16) (s : State) : State :=
  s.hPlain h.val (.moviPointer h x imm) fun _ s => .ok (s.modHearth h.val fun t => t.setP x.val (ptrImm x imm))

/-- MOVI to the pointer file (R269). -/
def execMoviPointer (h : HearthId) (x : PtrReg) (imm : BitVec 16) (s : State) : Host.Outcome State Fault Refusal :=
  s.run (doMoviPointer h x imm)

end Sys2Proof.Machine
end

