-- ==== Sys2Proof/Machine/Assist.lean ====
section
/-! DEFINITION. The Hearth's Assist unit (R239, R240, R289, R290). Where R289 bounds a result's error and does not give the
result, the result is a free choice within the bound (Config.assistPick), saturated to 32 bits. -/

namespace Sys2Proof.Machine

/-- Floor and ceiling of num / den, for den above 0. -/
def floorDiv (num den : Int) : Int := num / den
def ceilDiv (num den : Int) : Int := -(-num / den)

/-- The square root rounded down, bit by bit from 2^k down. -/
def isqrtFrom : Nat → Nat → Nat → Nat
  | 0, _, r => r
  | k + 1, m, r => isqrtFrom k m (if (r + 2 ^ k) * (r + 2 ^ k) ≤ m then r + 2 ^ k else r)

/-- The square root rounded down, for m below 2^400. -/
def isqrt (m : Nat) : Nat := isqrtFrom 200 m 0

/-- The square root rounded up. -/
def isqrtUp (m : Nat) : Nat := if isqrt m * isqrt m = m then isqrt m else isqrt m + 1

/-- A free choice among the integers lo to hi, saturated to 32 bits. DESIGN CHOICE, log entry 10. -/
def assistChoice (op : Nat) (w : Word) (lo hi : Int) : Word :=
  let x := lo + ((Config.assistPick op w).toNat : Int) % (hi - lo + 1)
  if fits32 x then BitVec.ofInt 32 x else sat32 x

/-- The extreme of a sign. -/
def satSign (neg : Bool) : Word := if neg then 0x80000000 else 0x7FFFFFFF

/-- What an Assist operation gives: ASR, dz, dom. -/
abbrev AssistRes := Word × Bool × Bool

/-- DIV: Q31 by Q31, or with .i integer by integer; rounded toward zero (R289). -/
def assistDiv (int : Bool) (a b : Word) : AssistRes :=
  if b = 0 then (satSign a.msb, true, false)
  else if int then
    let q := (sint a).tdiv (sint b)
    if fits32 q then (BitVec.ofInt 32 q, false, false) else (0x7FFFFFFF, false, true)
  else if (sint b).natAbs ≤ (sint a).natAbs then (satSign (a.msb != b.msb), false, true)
  else (BitVec.ofInt 32 ((sint a * 2 ^ 31).tdiv (sint b)), false, false)

/-- RCP: 1/x in Q2.30 within 1 LSB, for 0.5 ≤ |x| ≤ 1; 1/0.5 saturates (R289). -/
def assistRcp (a : Word) : AssistRes :=
  let x := sint a
  if x = 0 then (0x7FFFFFFF, true, false)
  else if x.natAbs < 2 ^ 30 then (satSign a.msb, false, true)
  else if x = 2 ^ 30 then (0x7FFFFFFF, false, false)
  else
    let num : Int := if x < 0 then -(2 ^ 61) else 2 ^ 61
    let den : Int := x.natAbs
    (assistChoice 1 a (ceilDiv (num - den) den) (floorDiv (num + den) den), false, false)

/-- SQRT: √x in Q31 within 1 LSB, for x ≥ 0 (R289). -/
def assistSqrt (a : Word) : AssistRes :=
  if a.msb then (0, false, true)
  else
    let m := a.toNat * 2 ^ 31
    (assistChoice 2 a ((isqrtUp m : Int) - 1) ((isqrt m : Int) + 1), false, false)

/-- RSQ: 1/√x in Q2.30 within 1 LSB, for 0.25 ≤ x < 1; x = 0.25 saturates (R289). With m = 2^91 / x the exact result is
√m; it is whole only when the division leaves nothing and m is a square. -/
def assistRsq (a : Word) : AssistRes :=
  if a.msb then (0, false, true)
  else if a = 0 then (0x7FFFFFFF, true, false)
  else if a.toNat ≤ 2 ^ 29 then (0x7FFFFFFF, false, decide (a.toNat < 2 ^ 29))
  else
    let m := 2 ^ 91 / a.toNat
    let whole := 2 ^ 91 % a.toNat = 0 ∧ isqrt m * isqrt m = m
    let up : Int := if whole then (isqrt m : Int) else (isqrt m : Int) + 1
    (assistChoice 3 a (up - 1) ((isqrt m : Int) + 1), false, false)

/-- Bits of the binary logarithm of y / 2^128 with 1 ≤ y / 2^128 < 2: `k` bits after the point, and whether nothing
remains below them. -/
def logBits : Nat → Nat → Nat → Nat × Bool
  | 0, y, acc => (acc, decide (y = 2 ^ 128))
  | k + 1, y, acc =>
    let z := y * y / 2 ^ 128
    if 2 ^ 129 ≤ z then logBits k (z / 2) (2 * acc + 1) else logBits k z (2 * acc)

/-- 2^26 × log2(w), rounded down, and whether that is exact; the working carries 128 bits after the point. -/
def log2Fix (w : Nat) : Nat × Bool :=
  let e := Nat.log2 w
  let r := logBits 26 (w * 2 ^ 128 / 2 ^ e) 0
  (e * 2 ^ 26 + r.1, r.2)

/-- LOG2: log2(x) in Q6.26 within 2 LSB, for x > 0; from −31.0 to −2^−26, which the x just below 1.0 gives (R289). -/
def assistLog2 (a : Word) : AssistRes :=
  if a.msb || a = 0 then (0x80000000, false, true)
  else if a = 0x7FFFFFFF then (0xFFFFFFFF, false, false)
  else
    let r := log2Fix a.toNat
    let fl : Int := (r.1 : Int) - 31 * 2 ^ 26
    let up : Int := if r.2 then fl else fl + 1
    let lo := limitInt (-31 * 2 ^ 26) (-1) (up - 2)
    let hi := limitInt (-31 * 2 ^ 26) (-1) (fl + 2)
    (assistChoice 4 a lo hi, false, false)

/-- 2^(f / 2^26) with 128 bits after the point, from the bits of f; `r` is the root of 2 that the top bit stands for. -/
def expBits : Nat → Nat → Nat → Nat → Nat
  | 0, _, _, acc => acc
  | k + 1, f, r, acc =>
    expBits k f (isqrt (r * 2 ^ 128)) (if bitOf f k then acc * r / 2 ^ 128 else acc)

/-- 2^31 × 2^y rounded down, for y = v / 2^26 from −31 to below 0, and whether it is exact. -/
def exp2Fix (v : Int) : Nat × Bool :=
  let i := (-(v / 2 ^ 26)).toNat
  let f := (v % 2 ^ 26).toNat
  let m := expBits 26 f (isqrt (2 ^ 257)) (2 ^ 128) * 2 ^ 31
  (m / 2 ^ (128 + i), decide (f = 0))

/-- EXP2: 2^y in Q31 within 2 LSB, for y ≤ 0; y = 0 and y < −31 are exact (R289). -/
def assistExp2 (a : Word) : AssistRes :=
  let v := sint a
  if 0 < v then (0x7FFFFFFF, false, true)
  else if v = 0 then (0x7FFFFFFF, false, false)
  else if v < -31 * 2 ^ 26 then (0, false, false)
  else
    let r := exp2Fix v
    let fl : Int := r.1
    let up : Int := if r.2 then fl else fl + 1
    (assistChoice 5 a (up - 2) (fl + 2), false, false)

/-! ### The instructions -/

/-- An Assist instruction (R240). -/
def State.hAssist (s : State) (n : Nat) (i : Instr) (op : Hearth → State → HRes) : State :=
  s.hInstr n i true false true op

/-- An issue: it stalls while the Assist is busy; otherwise the operation is accepted and the instruction retires. -/
def opIssue (n : Nat) (s : State) (r : AssistRes) : HRes :=
  if (s.hearth n).assist.isSome then .stall s
  else .ok (s.modHearth n fun h => { h with assist := some ⟨r.1, r.2.1, r.2.2, false⟩ })

def doDiv (h : HearthId) (int : Bool) (rs rt : GReg) (s : State) : State :=
  s.hAssist h.val (.div h int rs rt) fun o s => opIssue h.val s (assistDiv int (o.getG rs.val) (o.getG rt.val))

/-- DIV (R289). -/
def execDiv (h : HearthId) (int : Bool) (rs rt : GReg) (s : State) : Host.Outcome State Fault Refusal :=
  s.run (doDiv h int rs rt)

def doRcp (h : HearthId) (rs : GReg) (s : State) : State :=
  s.hAssist h.val (.rcp h rs) fun o s => opIssue h.val s (assistRcp (o.getG rs.val))

/-- RCP (R289). -/
def execRcp (h : HearthId) (rs : GReg) (s : State) : Host.Outcome State Fault Refusal := s.run (doRcp h rs)

def doSqrt (h : HearthId) (rs : GReg) (s : State) : State :=
  s.hAssist h.val (.sqrt h rs) fun o s => opIssue h.val s (assistSqrt (o.getG rs.val))

/-- SQRT (R289). -/
def execSqrt (h : HearthId) (rs : GReg) (s : State) : Host.Outcome State Fault Refusal := s.run (doSqrt h rs)

def doRsq (h : HearthId) (rs : GReg) (s : State) : State :=
  s.hAssist h.val (.rsq h rs) fun o s => opIssue h.val s (assistRsq (o.getG rs.val))

/-- RSQ (R289). -/
def execRsq (h : HearthId) (rs : GReg) (s : State) : Host.Outcome State Fault Refusal := s.run (doRsq h rs)

def doLog2 (h : HearthId) (rs : GReg) (s : State) : State :=
  s.hAssist h.val (.log2 h rs) fun o s => opIssue h.val s (assistLog2 (o.getG rs.val))

/-- LOG2 (R289). -/
def execLog2 (h : HearthId) (rs : GReg) (s : State) : Host.Outcome State Fault Refusal := s.run (doLog2 h rs)

def doExp2 (h : HearthId) (rs : GReg) (s : State) : State :=
  s.hAssist h.val (.exp2 h rs) fun o s => opIssue h.val s (assistExp2 (o.getG rs.val))

/-- EXP2 (R289). -/
def execExp2 (h : HearthId) (rs : GReg) (s : State) : Host.Outcome State Fault Refusal := s.run (doExp2 h rs)

/-- An instruction that waits until the Assist is idle (R290). -/
def whenIdle (n : Nat) (s : State) (r : HRes) : HRes := if (s.hearth n).assist.isSome then .stall s else r

def doAsrd (h : HearthId) (rd : GReg) (s : State) : State :=
  s.hPlain h.val (.asrd h rd) fun o s => whenIdle h.val s (.ok (s.wrG h.val rd o.asr))

/-- ASRD (R290). -/
def execAsrd (h : HearthId) (rd : GReg) (s : State) : Host.Outcome State Fault Refusal := s.run (doAsrd h rd)

/-- The Assist finishes: ASR, dz and dom, or nothing when the operation was squashed (R239, R240). -/
def Hearth.assistDone (h : Hearth) : Hearth :=
  match h.assist with
  | none => h
  | some a =>
    if a.squashed then { h with assist := none }
    else { h with assist := none, asr := a.result, dz := h.dz || a.dz, dom := h.dom || a.dom }

/-- ASSIST_COMPLETE (R239, R240). -/
def execAssistComplete (h : HearthId) (s : State) : Host.Outcome State Fault Refusal :=
  s.run fun s => s.modHearth h.val Hearth.assistDone

end Sys2Proof.Machine
end

