-- ==== Sys2Proof/Machine/Bytes.lean ====
section
/-! DEFINITION. Byte strings: numbers in either order, checksums and CRCs. -/

namespace Sys2Proof.Machine

/-- A big-endian number. -/
def beNat (l : List Byte) : Nat := l.foldl (fun acc b => acc * 256 + b.toNat) 0

/-- A little-endian number. -/
def leNat : List Byte → Nat
  | [] => 0
  | b :: t => b.toNat + 256 * leNat t

/-- The low n bytes of a number, highest first. -/
def beBytes : Nat → Nat → List Byte
  | 0, _ => []
  | n + 1, v => beBytes n (v / 256) ++ [BitVec.ofNat 8 v]

/-- The low n bytes of a number, lowest first. -/
def leBytes : Nat → Nat → List Byte
  | 0, _ => []
  | n + 1, v => BitVec.ofNat 8 v :: leBytes n (v / 256)

/-- n bytes from a place of a string. -/
def slice (l : List Byte) (i n : Nat) : List Byte := (l.drop i).take n

/-- A big-endian field of a string; missing bytes are left out. -/
def beAt (l : List Byte) (i n : Nat) : Nat := beNat (slice l i n)

/-- The sum of the 16-bit words of a string, an odd last byte taken as the high byte. -/
def sum16 : List Byte → Nat
  | [] => 0
  | [a] => a.toNat * 256
  | a :: b :: t => a.toNat * 256 + b.toNat + sum16 t

/-- The end-around carry of a ones' complement sum. -/
def fold16 (x : Nat) : Nat :=
  let y := x % 65536 + x / 65536
  let z := y % 65536 + y / 65536
  z % 65536 + z / 65536

/-- The Internet checksum of a string. -/
def inetSum (l : List Byte) : Nat := 65535 - fold16 (sum16 l)

/-- One bit of a reflected CRC of 32 bits. -/
def crcBit (poly c : Nat) : Nat := if c % 2 = 1 then c / 2 ^^^ poly else c / 2

/-- One byte of a reflected CRC. -/
def crcByte (poly c : Nat) (b : Byte) : Nat := (List.range 8).foldl (fun x _ => crcBit poly x) (c ^^^ b.toNat)

/-- A reflected CRC of 32 bits, started and ended with all ones. -/
def crcOf (poly : Nat) (l : List Byte) : Nat := l.foldl (crcByte poly) 0xFFFFFFFF ^^^ 0xFFFFFFFF

/-- The CRC-32 of IEEE 802.3. -/
def crc32 (l : List Byte) : Nat := crcOf 0xEDB88320 l

/-- CRC-32C. -/
def crc32c (l : List Byte) : Nat := crcOf 0x82F63B78 l

end Sys2Proof.Machine
end

