-- ==== Sys2Proof/Machine/Schedule.lean ====
section
/-! DEFINITION. The Rally schedule and the phase against it (04 R125). -/

namespace Sys2Proof.Machine

/-- The engine's internal rate in Hz: family base rate × mult. -/
def State.internalRate (s : State) : Nat :=
  (if s.bit RSG_CTRL RSG_CTRL_family then 44100 else 48000) * 2 ^ s.fld RSG_CTRL RSG_CTRL_mult

abbrev rallyMod : Nat := 2 ^ 48

/-- The units of a Ts in which its elapsed fraction is kept: a tick of 2.5 ns is 5 × Fs × (10^12 + w) of them (R76). -/
abbrev tsUnits : Nat := 2000000000000000000000

/-- The elapsed fraction of the Ts one tick later; the Ts ends with its Rally instant, not before. -/
def State.tsTick (s : State) : State :=
  { s with tsu := { s.tsu with
      frac := min (s.tsu.frac + (5 * (s.internalRate : Int) * (1000000000000 + s.rsg.w)).toNat) (tsUnits - 1) } }

/-- t × Fs in units of 1 / 1,000,000,000 sample, with t = TOD − TSU_RALLY_OFFSET: S times that unit before the modulo. -/
def State.scheduleNum (s : State) : Int := ((s.tsu.ns : Int) - s.tsu.rallyOffs) * (s.internalRate : Int)

/-- S rounded down to a whole sample. -/
def State.scheduleCount (s : State) : Nat := (s.scheduleNum / 1000000000 % (rallyMod : Int)).toNat

/-- RALLY_COUNT plus the elapsed fraction of the Ts, minus S, signed, in units of a Ts. DEDUCED, log entry 54. -/
def State.rallyErr (s : State) : Int :=
  let m : Int := (rallyMod : Int) * tsUnits
  let d := ((s.rallyCount : Int) * tsUnits + s.tsu.frac - s.scheduleNum * 2000000000000) % m
  if m ≤ 2 * d then d - m else d

end Sys2Proof.Machine
end

