-- ==== Sys2Proof/Machine/Rsg.lean ====
section
/-! DEFINITION. The media clock and reference selection (03). -/

namespace Sys2Proof.Machine

/-! ### Candidates (R79, R85 to R91) -/

/-- The type of a candidate code 1 to 18. -/
def candType (c : Nat) : Nat :=
  if c ≤ 1 then 0 else if c ≤ 3 then 1 else if c ≤ 11 then 2 else if c ≤ 13 then 3 else if c ≤ 17 then 4 else 5

def candDefault (_ : Nat) : RsgCand := ⟨false, 0, 0, true, 0, 0, [], []⟩

def State.modRsg (s : State) (f : Rsg → Rsg) : State := { s with rsg := f s.rsg }

def State.cand (s : State) (c : Nat) : RsgCand := tabGet candDefault s.rsg.cands c

def State.setCand (s : State) (c : Nat) (v : RsgCand) : State :=
  s.modRsg fun r => { r with cands := tabSet candDefault r.cands c v }

/-- WARN in the units of the offsets; above 12.5 % it acts as 12.5 % for MEDIUM (R85, R91). -/
def State.warnOf (s : State) (t : Nat) : Int :=
  let v := s.fld (RSG_TYPE_LIM t) RSG_TYPE_LIM_warn
  10 * (if t = 4 then min v 12500 else v)

/-- LIMIT in the units of the offsets (R85, R91). -/
def State.limitOf (s : State) (t : Nat) : Int :=
  let v := s.fld (RSG_TYPE_LIM t) RSG_TYPE_LIM_limit
  10 * (if t = 4 then min v 12500 else v)

/-- The active Deuce servo is LOCKED. -/
def State.ptpLocked (s : State) : Bool := s.fld (TSU_SRV_STATE (s.fld TSU_DEUCE_STAT TSU_DEUCE_STAT_active)) TSU_SRV_STATE_state = 3

/-- The source named in RSG_BUFLEVEL_SRC runs in STEERING mode. -/
def State.steeringRuns (s : State) : Bool :=
  let i := s.fld RSG_BUFLEVEL_SRC RSG_BUFLEVEL_SRC_index
  match s.fld RSG_BUFLEVEL_SRC RSG_BUFLEVEL_SRC_kind with
  | 0 => i < 16 && s.bit (SAP_STAT i) SAP_STAT_running && s.fld (SAP_CTRL i) SAP_CTRL_rate_mode = 2
  | 1 => i < 8 && s.bit (AES_RX_STAT i) AES_RX_STAT_running && s.fld (AES_RX_CTRL i) AES_RX_CTRL_rate_mode = 2
  | 2 => i < 2 && s.bit (MADI_STAT i) MADI_STAT_running && s.fld (MADI_CTRL i) MADI_CTRL_rate_mode = 2
  | _ => s.bit (NET_RXS_STAT i) NET_RXS_STAT_running && s.fld (NET_RXS_CTRL i) NET_RXS_CTRL_rate_mode = 2

def servoDefault (_ : Nat) : Servo := ⟨0, [], 0, 0, 0, 0, none, none, none, none⟩

/-- What PTP reads as, in 0.1 ppb: the active servo's frequency and any SLEW term in progress (R80, R116). -/
def State.ptpReading (s : State) : Int :=
  let d := s.fld TSU_DEUCE_STAT TSU_DEUCE_STAT_active
  let offs := (tabGet servoDefault s.tsu.servos d).offs
  (s.reg (TSU_SRV_FREQ d)).toInt +
    (if !s.bit TSU_DEUCE_STAT TSU_DEUCE_STAT_slewing || offs = 0 then 0 else if 0 < offs then 100000 else -100000)

/-- The 10 ms reading of PTP in ppb, or of a MEDIUM candidate in 0.0001 %: MIF_SPEED against RSG_MED_NOM (R80, R359). It rounds
to either neighbour. DEDUCED, log entry 161. -/
def State.ownReading (s : State) (c : Nat) : Int × State :=
  if candType c = 0 then s.roundFree s.ptpReading 10
  else
    let nom := (s.reg (RSG_MED_NOM (c - 14))).toNat
    s.roundFree ((s.reg (MIF_SPEED (c - 14))).toInt * 1000000000 - 16000000 * nom) (16 * nom)

/-- The 10 ms and the 1 s offset of a candidate (R80). PTP and MEDIUM are read from the TSU and the MIF, and their 1 s offset is
the mean of the last second's readings; the others are measured. -/
def State.offsets (s : State) (c : Nat) (m : CandMeas) : CandMeas × List Int × State :=
  if candType c = 0 ∨ candType c = 4 then
    let (x, s1) := s.ownReading c
    let l := (x :: (s.cand c).recent).take 100
    let (y, s2) := s1.roundFree l.sum l.length
    (⟨m.seen, x, y⟩, l, s2)
  else (m, [], s)

/-- A candidate is present (R79, R80, R102). The offset tested for a word clock is that of the 10 ms window that must hold its
edges. DESIGN CHOICE, log entry 162. -/
def State.candPresent (s : State) (c : Nat) (m : CandMeas) : Bool :=
  match candType c with
  | 0 => s.ptpLocked
  | 1 => decide (0 < tabGet zeroNat s.rsg.wclk (c - 2)) && decide ((m.off10.natAbs : Int) ≤ 10 * s.limitOf 1)
  | 2 => m.seen && s.bit (AES_RX_STAT (c - 4)) AES_RX_STAT_lock
  | 3 => m.seen && s.bit (MADI_STAT (c - 12)) MADI_STAT_lock
  | 4 => s.fld (MIF_STAT (c - 14)) MIF_STAT_state = 1 && s.reg (RSG_MED_NOM (c - 14)) != 0 &&
      decide ((m.off10.natAbs : Int) ≤ s.limitOf 4)
  | _ => s.steeringRuns

/-- A change between qualified and disqualified is an event (R90); a candidate that was unproven makes none.
DEDUCED, log entry 19. -/
def State.requalify (s : State) (c q : Nat) : State :=
  let k := s.cand c
  let s1 := s.setCand c { k with qual := q, outSpan := 0, okSpan := 0 }
  if k.qual ≠ q ∧ k.qual ≠ 0 then s1.setFld RSG_STATUS RSG_STATUS_qual 1 else s1

/-- A candidate found absent (R80, R89): one that was present since reset is disqualified at once. Coming back it counts as one
that was inside WARN. -/
def State.candAbsent (s : State) (c : Nat) : State :=
  let s1 := if (s.cand c).seen then s.requalify c 2 else s
  let s2 := s1.setCand c { s1.cand c with pres := 0, inside := true, outSpan := 0, okSpan := 0, past := [], recent := [] }
  (s2.setFld (RSG_CAND_STAT c) RSG_CAND_STAT_qual 3).setFld (RSG_CAND_STAT c) RSG_CAND_STAT_out 0

/-- The drift rate: the 1 s offset now minus the one a second earlier; none is known during the first second.
DEDUCED, log entry 21. -/
def driftOf (k : RsgCand) (now : Int) : Option Int :=
  match k.past[99]? with
  | none => none
  | some x => some (now - x)

/-- A present candidate is out (R85). -/
def State.candOut (s : State) (t : Nat) (k : RsgCand) (tested off1s : Int) : Bool :=
  decide (s.limitOf t < tested.natAbs) ||
  (t != 4 && (match driftOf k off1s with
    | none => false
    | some d => decide (10 * (s.fld (RSG_TYPE_QUAL t) RSG_TYPE_QUAL_drift : Int) < d.natAbs)))

/-- The wait of a candidate: the wtr of the enabled entry that names it (R88). -/
def State.wtrOf (s : State) (c : Nat) : Nat :=
  match (List.range 8).find? fun e =>
      let w := tabGet zeroWord s.rsg.table e
      RSG_PRIO_en.get w = 1 && RSG_PRIO_cand.get w = c with
  | none => 0
  | some e => RSG_PRIO_wtr.get (tabGet zeroWord s.rsg.table e)

/-- Qualification of a present candidate (R86 to R89). A span of n evaluations is complete when n evaluations have
passed since its first one. -/
def State.candJudge (s : State) (c : Nat) (out inside : Bool) : State :=
  let k := s.cand c
  match k.qual with
  | 1 =>
    if out then
      let s1 := s.setCand c { k with outSpan := k.outSpan + 1 }
      if s.fld (RSG_TYPE_QUAL (candType c)) RSG_TYPE_QUAL_qual_time ≤ k.outSpan then s1.requalify c 2 else s1
    else s.setCand c { k with outSpan := 0 }
  | 2 =>
    if inside then
      let s1 := s.setCand c { k with okSpan := k.okSpan + 1 }
      if 100 * s.wtrOf c ≤ k.okSpan then s1.requalify c 1 else s1
    else s.setCand c { k with okSpan := 0 }
  | _ => if inside && decide (100 ≤ k.pres) then s.requalify c 1 else s

/-- Seconds left of a disqualified candidate's wait, rounded up. -/
def State.wtrLeft (s : State) (c : Nat) : Nat :=
  let k := s.cand c
  if k.qual = 2 then min 4095 ((100 * s.wtrOf c + 1 - min k.okSpan (100 * s.wtrOf c + 1) + 98) / 100) else 0

/-- One candidate at one evaluation (R80, R85 to R90). -/
def State.candEval (s : State) (c : Nat) (meas : CandMeas) : State :=
  let t := candType c
  let (m, recent, s0) := s.offsets c meas
  let s3 :=
    if !s0.candPresent c m then s0.candAbsent c
    else
      let k := s0.cand c
      let tested := if t = 4 then m.off10 else m.off1s
      let inside := decide ((tested.natAbs : Int) ≤ s0.warnOf t)
      let out := s0.candOut t k tested m.off1s
      let s1 := s0.setCand c { k with
        seen := true, pres := min (k.pres + 1) 100, inside := inside, past := (m.off1s :: k.past).take 100, recent := recent }
      let s2 :=
        if k.inside && !inside then
          (s1.setFld (RSG_CAND_STAT c) RSG_CAND_STAT_warn 1).setFld RSG_STATUS RSG_STATUS_warn 1
        else s1
      let s3 := s2.candJudge c out inside
      ((s3.setFld (RSG_CAND_STAT c) RSG_CAND_STAT_qual (s3.cand c).qual).setFld (RSG_CAND_STAT c) RSG_CAND_STAT_out
        (b2n out)).setReg (RSG_CAND_OFFS c) (BitVec.ofInt 32 (clampInt 32 m.off1s))
  s3.setFld (RSG_CAND_STAT c) RSG_CAND_STAT_wtr_left (s3.wtrLeft c)

/-- Every candidate, 1 to 18, in the order of the measurements; FREE is always qualified (R105). Its own RSG_CAND_STAT(0) reads 0. -/
def State.candsEval (s : State) : Nat → List CandMeas → State
  | _, [] => s
  | c, m :: rest => if 18 < c then s else (s.candEval c m).candsEval (c + 1) rest

/-! ### Selection and states (R81 to R84, R92 to R95) -/

abbrev rsgFree := 0
abbrev rsgAcquiring := 1
abbrev rsgLocked := 2
abbrev rsgHoldover := 3
abbrev rsgLost := 4

def State.rsgState (s : State) : Nat := s.fld RSG_STATE RSG_STATE_state

/-- Entry e of the table in force. -/
def State.entryWord (s : State) (e : Nat) : Word := tabGet zeroWord s.rsg.table e

/-- A candidate is qualified; FREE always is. -/
def State.qualified (s : State) (c : Nat) : Bool := c = 0 || (s.cand c).qual = 1

/-- Entry e may be selected (R82). -/
def State.entryOk (s : State) (e : Nat) : Bool :=
  RSG_PRIO_en.get (s.entryWord e) = 1 && s.qualified (RSG_PRIO_cand.get (s.entryWord e))

/-- The active entry, in ACQUIRING and LOCKED: an entry that names FREE is none, so that a higher one takes over from it at any
time (R83). -/
def State.activeEntry (s : State) : Option Nat :=
  if s.rsgState = rsgAcquiring ∨ s.rsgState = rsgLocked then some (s.fld RSG_STATE RSG_STATE_entry) else none

/-- The active entry still holds: it is enabled, names the active candidate, and that is qualified (R82). An entry that has come to
name another candidate is left as for a disqualification. -/
def State.activeOk (s : State) : Bool :=
  match s.activeEntry with
  | none => false
  | some e => s.entryOk e && RSG_PRIO_cand.get (s.entryWord e) = s.fld RSG_STATE RSG_STATE_cand

/-- The active entry's candidate is disqualified where the entry is no longer enabled (R82). -/
def State.disableActive (s : State) : State :=
  let c := s.fld RSG_STATE RSG_STATE_cand
  match s.activeEntry with
  | none => s
  | some e =>
    if RSG_PRIO_en.get (s.entryWord e) = 1 || (s.cand c).qual != 1 then s
    else
      let s1 := s.requalify c 2
      (s1.setFld (RSG_CAND_STAT c) RSG_CAND_STAT_qual 2).setFld (RSG_CAND_STAT c) RSG_CAND_STAT_wtr_left (s1.wtrLeft c)

/-- The entry that an evaluation selects (R82, R83): a qualified active entry is left only for a higher revertive one. -/
def State.selectEntry (s : State) : Option Nat :=
  match s.activeOk, s.activeEntry with
  | true, some a =>
    match (List.range a).find? fun e => s.entryOk e && RSG_PRIO_revertive.get (s.entryWord e) = 1 with
    | some e => some e
    | none => some a
  | _, _ => (List.range 8).find? fun e => s.entryOk e

/-- Holdover is valid (R97). -/
def State.holdValid (s : State) : Bool := s.fld RSG_HOLD_CFG RSG_HOLD_CFG_guard + 60 ≤ s.rsg.hist.length

/-- A change of state, entry and candidate (R78, R95, R101). A change from ACQUIRING on one entry to ACQUIRING on another is a state
change. -/
def State.rsgGo (s : State) (st entry cand : Nat) : State :=
  let wasMedium := s.activeEntry.isSome && candType (s.fld RSG_STATE RSG_STATE_cand) = 4 && st != rsgLocked
  let s1 := ((s.setFld RSG_STATE RSG_STATE_state st).setFld RSG_STATE RSG_STATE_entry entry).setFld RSG_STATE
    RSG_STATE_cand cand
  let s2 := (s1.setFld RSG_STATUS RSG_STATUS_state_chg 1).setFldIf (st = rsgLost) RSG_STATUS RSG_STATUS_lost 1
  let s3 := s2.setFldIf (st = rsgLocked) RSG_STATE RSG_STATE_ever_locked 1
  let s4 := s3.setFldIf (st = rsgHoldover) RSG_HOLD_ELAPSED RSG_HOLD_ELAPSED_seconds 0
  s4.modRsg fun r => { r with
    medSlew := r.medSlew || wasMedium, lockSpan := if st = rsgAcquiring then 0 else r.lockSpan,
    span := if st = rsgLocked then none else r.span }

/-- ACQUIRING on entry e. -/
def State.rsgAcquire (s : State) (e : Nat) : State := s.rsgGo rsgAcquiring e (RSG_PRIO_cand.get (s.entryWord e))

/-- At most one transition, by the first row of Table: State transitions that applies (R94). -/
def State.rsgTransition (s : State) : State :=
  let st := s.rsgState
  let sel := s.selectEntry
  if !s.bit RSG_CTRL RSG_CTRL_en || sel.any (fun e => RSG_PRIO_cand.get (s.entryWord e) = 0) then
    (if st = rsgFree then s else s.rsgGo rsgFree 0 0)
  else if s.activeEntry.isNone then
    match sel with
    | some e => s.rsgAcquire e
    | none =>
      if st = rsgHoldover ∧ s.fld RSG_HOLD_CFG RSG_HOLD_CFG_limit ≤ s.fld RSG_HOLD_ELAPSED RSG_HOLD_ELAPSED_seconds
      then s.rsgGo rsgLost 0 0
      else s
  else if st = rsgAcquiring ∧ s.fld RSG_LOCK RSG_LOCK_time ≤ s.rsg.lockSpan then
    s.rsgGo rsgLocked (s.fld RSG_STATE RSG_STATE_entry) (s.fld RSG_STATE RSG_STATE_cand)
  else if s.activeOk then
    match sel with
    | some e => if s.activeEntry = some e then s else s.rsgAcquire e
    | none => s
  else if s.holdValid then s.rsgGo rsgHoldover 0 0
  else match sel with
    | some e => s.rsgAcquire e
    | none => s.rsgGo (if s.bit RSG_STATE RSG_STATE_ever_locked then rsgLost else rsgFree) 0 0

/-- The table in force takes RSG_PRIO0–7 unless it is frozen (R84). -/
def State.takeTable (s : State) : State :=
  if s.bit RSG_CTRL RSG_CTRL_tbl_freeze then s
  else s.modRsg fun r => { r with
    table := (List.range 8).foldl (fun t e => tabSet zeroWord t e (s.reg (RSG_PRIO e))) r.table }

/-! ### The evaluation (R82, R93, R94, R96) -/

/-- T_now in 1/16 °C (R100). -/
def State.tempNow (s : State) : Word :=
  if s.bit RSG_CTRL RSG_CTRL_temp_src && !s.rsg.extStale then s.reg RSG_TEMP_EXT &&& 0xFFFF
  else s.reg SYS_TEMP &&& 0xFFFF

/-- The ranges of the present second take in w and T_now as they are. -/
def State.spanNote (s : State) : State :=
  let t := signed 16 s.tempNow.toNat
  s.modRsg fun r => { r with span := some (match r.span with
    | none => ⟨r.w, r.w, t, t⟩
    | some x => ⟨min x.wLo r.w, max x.wHi r.w, min x.tLo t, max x.tHi t⟩) }

/-- The phase error has stayed within RSG_LOCK.window since the last evaluation (R93): for PTP against the Rally schedule, for
another candidate as measured. -/
def State.inWindow (s : State) (phase : Nat) : Bool :=
  let win := s.fld RSG_LOCK RSG_LOCK_window
  if s.fld RSG_STATE RSG_STATE_cand = 1 then decide (256 * max s.rsg.phase s.rallyErr.natAbs ≤ win * tsUnits)
  else decide (phase ≤ win)

/-- RSG_EVALUATION (R82, R94, R105): what was measured of candidates 1 to 18 over the last 10 ms, but of PTP and MEDIUM, which
the block reads itself; and the largest phase error in that time of the loop of a candidate other than PTP, in 1/256 Ts (R93).
DEDUCED, log entry 23. -/
def execRsgEvaluation (meas : List CandMeas) (phase : Nat) (s : State) : Host.Outcome State Fault Refusal :=
  s.runLit fun s =>
    let s1 := ((s.takeTable.candsEval 1 meas).disableActive).spanNote
    (s1.modRsg fun r => { r with
      wclk := [], phase := 0, lockSpan := if s1.inWindow phase then min (r.lockSpan + 1) 65535 else 0 }).rsgTransition

/-- WCLK_EDGE (R79): a rising edge on WCLK0 or WCLK1 falls in the 10 ms window. -/
def execWclkEdge (n : Fin 2) (s : State) : Host.Outcome State Fault Refusal :=
  s.runLit fun s => s.modRsg fun r => { r with wclk := tabSet zeroNat r.wclk n.val (tabGet zeroNat r.wclk n.val + 1) }

/-! ### The frequency word (R76 to R78, R92, R99) -/

/-- w is clamped to ±13 %. -/
def clampW (x : Int) : Int := limitInt (-130000000000) 130000000000 x

/-- The slew limit over a number of µs, in units of w (R78): MEDIUM's while it is in force. -/
def State.slewStep (s : State) (us : Nat) : Int :=
  let medium := (s.activeEntry.isSome && candType (s.fld RSG_STATE RSG_STATE_cand) = 4) || s.rsg.medSlew
  if medium then 100 * s.fld (RSG_TYPE_QUAL 4) RSG_TYPE_QUAL_drift * us
  else (max 1 (s.fld RSG_SLEW RSG_SLEW_rate) * us / 100 : Nat)

/-- The trim term of the Chimney in whole units of w (R413). -/
def State.trimTerm (s : State) : Int := s.chm.trim.tdiv 14112

/-- What w moves to (Table: RSG states, R92, R99). The value that a candidate's loop asks for is not stated: it is free. While en is 0 it is 0, and the trim of a Chimney follower adds nothing.
DESIGN CHOICE, log entry 22. -/
def State.wTarget (s : State) : Int × State :=
  if !s.bit RSG_CTRL RSG_CTRL_en then (0, s)
  else match s.rsgState with
    | 1 => (clampW s.fresh.1.toInt, s.fresh.2)
    | 2 => (clampW s.fresh.1.toInt, s.fresh.2)
    | 3 => (clampW (s.rsg.wHold + s.trimTerm), s)
    | 4 =>
      (clampW ((if s.bit RSG_CTRL RSG_CTRL_policy && s.rsg.hist != [] then s.rsg.wHold else 0) + s.trimTerm), s)
    | _ => (clampW s.trimTerm, s)

/-- w moves towards its target by no more than the slew limit. -/
def slewTo (w target lim : Int) : Int := if target < w - lim then w - lim else if w + lim < target then w + lim else target

/-- DCO_UPDATE (R77, R78): a new w, a number of whole µs (at least 1) after the previous one. -/
def execDcoUpdate (us : Nat) (s : State) : Host.Outcome State Fault Refusal :=
  s.runLit fun s =>
    if us = 0 then s
    else
      let (target, s1) := s.wTarget
      let w := slewTo s.rsg.w target (s.slewStep us)
      let mediumNow := s.activeEntry.isSome && candType (s.fld RSG_STATE RSG_STATE_cand) = 4
      (((s1.spanNote).setFld RSG_STATE RSG_STATE_slewing (b2n (w != target))).modRsg fun r => { r with
        w := w, target := target, medSlew := if w = target ∧ mediumNow = false then false else r.medSlew }).spanNote

/-! ### The external temperature (R100) -/

/-- A write to RSG_TEMP_EXT: the temperature, fresh again (R100). -/
def State.tempExtWrite (s : State) (v : Word) : State :=
  ((s.plainWrite RSG_TEMP_EXT v).setFld RSG_STATUS RSG_STATUS_temp_stale 0).modRsg fun r => { r with extStale := false }

/-- TEMP_EXT_WRITE (R100). -/
def execTempExtWrite (m : Mid) (v : Word) (s : State) : Host.Outcome State Fault Refusal :=
  s.run fun s => s.writeReg m.val RSG_TEMP_EXT v (accept fun s => s.tempExtWrite v)

/-- TEMP_EXT_STALE (R100): 10 s have passed without a write. -/
def execTempExtStale (s : State) : Host.Outcome State Fault Refusal :=
  s.runXo fun s =>
    if s.bit RSG_CTRL RSG_CTRL_temp_src then
      (s.setFld RSG_STATUS RSG_STATUS_temp_stale 1).modRsg fun r => { r with extStale := true }
    else s.modRsg fun r => { r with extStale := true }

/-! ### History and holdover (R96 to R101) -/

/-- HISTORY_APPEND (R96): the mean w and the mean temperature of the second lie within what it held; the RTC count at its
middle lies half a second back, to a tick. DEDUCED, log entry 163. -/
def execHistoryAppend (w temp : Int) (d : Fin 3) (s : State) : Host.Outcome State Fault Refusal :=
  s.runLit fun s =>
    let s1 := s.spanNote
    match s1.rsg.span with
    | none => s1
    | some x =>
      let e : HistEnt := ⟨limitInt x.wLo x.wHi w, limitInt x.tLo x.tHi temp, (s.pwr.rtc + 2 ^ 48 - 16385 + d.val) % 2 ^ 48⟩
      let kept := s.rsgState = rsgLocked ∧ candType (s.fld RSG_STATE RSG_STATE_cand) ≠ 4
      (s1.modRsg fun r => { r with span := none, hist := if kept then (e :: r.hist).take 900 else r.hist }).spanNote

/-- ln(num / den) × 2^64 for positive num and den, from the binary logarithm. -/
def lnFix (num den : Nat) : Int :=
  let x := num * 2 ^ 256 / den
  let e := Nat.log2 x
  let f := (logBits 80 (x * 2 ^ 128 / 2 ^ e) 0).1
  (((e : Int) - 256) * 2 ^ 80 + f) * 12786308645202655659 / 2 ^ 80

/-- y(T) × 2^64 in ppb, for T = num / den in 1/16 °C (R98). -/
def State.tempTerm (s : State) (num : Int) (den : Nat) : Int :=
  let d := num - 400 * den
  let q : Int := 16 * den
  let c := fun k => (s.reg (RSG_TEMP_C k)).toInt
  c 0 * d * 2 ^ 48 / q + c 1 * d ^ 2 * 2 ^ 48 / q ^ 2 + c 2 * d ^ 3 * 2 ^ 48 / q ^ 3

/-- z(t) × 2^64 in ppb, for t = t2 / 2 RTC ticks; none where 1 + D is not positive (R98). -/
def State.ageTerm (s : State) (t2 : Int) : Option Int :=
  let day2 : Int := 2 * 32768 * 86400
  let d := t2 - 2 * 65536 * (s.reg RSG_AGE_EPOCH).toNat
  if d + day2 ≤ 0 then none
  else some ((s.reg RSG_AGE_A).toInt * d * 2 ^ 48 / day2 +
    (s.reg RSG_AGE_B).toInt * lnFix (d + day2).toNat day2.toNat / 2 ^ 16)

/-- w_hold × 2^64 for a list of entries, newest first; none where the spec gives no value (R97, R98).
DESIGN CHOICE, log entry 25. -/
def State.holdExact (s : State) (l : List HistEnt) (rtcNow : Nat) : Option Int :=
  match l, l.getLast? with
  | e :: _, some f =>
    let n := l.length
    let wh := (l.map fun x => x.w).sum * 2 ^ 64 / n
    if s.bit RSG_CTRL RSG_CTRL_policy then
      match s.ageTerm (2 * rtcNow), s.ageTerm (e.rtc + f.rtc) with
      | some z1, some z0 =>
        let y1 := s.tempTerm (signed 16 s.tempNow.toNat) 1
        let y0 := s.tempTerm (l.map fun x => x.temp).sum n
        some (wh - 1000 * (y1 - y0) - 1000 * (z1 - z0))
      | _, _ => none
    else some wh
  | _, _ => none

/-- HOLDOVER_RECOMPUTE (R97, R98), at the Ember's RTC count. A value that is no whole unit of w rounds up or down: the rounding is
open, and the command's. Where no value is stated, the value is free. -/
def execHoldoverRecompute (up : Bool) (s : State) : Host.Outcome State Fault Refusal :=
  s.runLit fun s =>
    if s.rsg.hist = [] then s
    else
      let l := (s.rsg.hist.drop (s.fld RSG_HOLD_CFG RSG_HOLD_CFG_guard)).take (s.fld RSG_HIST_COUNT RSG_HIST_COUNT_avg)
      let (x, s1) := match s.holdExact l s.pwr.rtc with
        | some x => (x / 2 ^ 64 + b2n (up && x % 2 ^ 64 != 0), s)
        | none => (s.fresh.1.toInt, s.fresh.2)
      s1.modRsg fun r => { r with wHold := clampInt 40 x }

/-- HOLD_ELAPSED_TICK (R101). -/
def execHoldElapsedTick (s : State) : Host.Outcome State Fault Refusal :=
  s.runLit fun s =>
    if s.rsgState = rsgHoldover then s.bump RSG_HOLD_ELAPSED RSG_HOLD_ELAPSED_seconds else s

/-! ### Registers -/

/-- A write to RSG_CTRL (R77, R84, R92): family and mult do not change while en is 1, and mult is 0 to 2. A stale RSG_TEMP_EXT that
becomes the source is flagged (R100). DEDUCED, log entry 24. -/
def writeRsgCtrl (v : Word) : WriteEff := fun s =>
  let same := RSG_CTRL_family.get v = s.fld RSG_CTRL RSG_CTRL_family ∧ RSG_CTRL_mult.get v = s.fld RSG_CTRL RSG_CTRL_mult
  if RSG_CTRL_mult.get v = 3 then (.slverr, s)
  else if s.bit RSG_CTRL RSG_CTRL_en = true ∧ ¬ same then (.slverr, s)
  else
    let freeze := RSG_CTRL_tbl_freeze.get v = 1 ∧ s.bit RSG_CTRL RSG_CTRL_tbl_freeze = false
    let s1 := if freeze then s.takeTable else s
    let s2 := s1.setFldIf (RSG_CTRL_temp_src.get v = 1 && !s.bit RSG_CTRL RSG_CTRL_temp_src && s.rsg.extStale)
      RSG_STATUS RSG_STATUS_temp_stale 1
    (.ok, (if same then s2 else s2.xpRestart).plainWrite RSG_CTRL v)

/-- RSG_ENABLE_WRITE (R92): a write to RSG_CTRL. -/
def execRsgEnableWrite (m : Mid) (v : Word) (s : State) : Host.Outcome State Fault Refusal :=
  s.run fun s => s.writeReg m.val RSG_CTRL v (writeRsgCtrl v)

/-- A write to RSG_PRIO(e) (R79, R81). -/
def writeRsgPrio (e : Nat) (v : Word) : WriteEff := fun s =>
  let c := RSG_PRIO_cand.get v
  let dup := RSG_PRIO_en.get v = 1 ∧ (List.range 8).any fun f =>
    f != e && s.fld (RSG_PRIO f) RSG_PRIO_en = 1 && s.fld (RSG_PRIO f) RSG_PRIO_cand = c
  if 18 < c ∨ 3600 < RSG_PRIO_wtr.get v ∨ dup then (.slverr, s) else (.ok, s.plainWrite (RSG_PRIO e) v)

/-- RSG_PRIO_WRITE (R81). -/
def execRsgPrioWrite (m : Mid) (e : Fin 8) (v : Word) (s : State) : Host.Outcome State Fault Refusal :=
  s.run fun s => s.writeReg m.val (RSG_PRIO e.val) v (writeRsgPrio e.val v)

/-- The bandwidth range of a type in mHz (R91). -/
def bwOk (t bw : Nat) : Bool :=
  match t with
  | 0 => 5 ≤ bw && bw ≤ 1000
  | 1 => 1000 ≤ bw && bw ≤ 100000
  | 2 => 500 ≤ bw && bw ≤ 50000
  | 3 => 500 ≤ bw && bw ≤ 50000
  | 4 => 2000 ≤ bw && bw ≤ 50000
  | _ => 1 ≤ bw && bw ≤ 100

/-- RSG_STATE and RSG_HIST_COUNT as they read. -/
def State.readRsgState (s : State) : Word := RSG_STATE_hold_valid.set (s.reg RSG_STATE) (b2n s.holdValid)

def State.readHistCount (s : State) : Word :=
  RSG_HIST_COUNT_entries.set (s.reg RSG_HIST_COUNT) s.rsg.hist.length

/-- A write to a register of the RSG. A guard above 300 is refused as any value outside a stated range is here, and a 1 written to
RSG_STATUS.temp_stale clears it while RSG_TEMP_EXT is still stale. -/
def rsgWrite (a : Nat) (v : Word) : WriteEff :=
  if a = RSG_CTRL then writeRsgCtrl v
  else if RSG_PRIO 0 ≤ a ∧ a < RSG_PRIO 8 then writeRsgPrio ((a - RSG_PRIO 0) / 4) v
  else if a = RSG_HOLD_CFG then
    acceptIf (decide (RSG_HOLD_CFG_limit.get v ≤ 86400) && decide (RSG_HOLD_CFG_guard.get v ≤ 300)) fun s => s.plainWrite a v
  else if a = RSG_HIST_COUNT then
    acceptIf (decide (60 ≤ RSG_HIST_COUNT_avg.get v) && decide (RSG_HIST_COUNT_avg.get v ≤ 600)) fun s => s.plainWrite a v
  else if RSG_TYPE_LIM 0 ≤ a ∧ a < RSG_TYPE_LIM 6 ∧ a % 16 = 8 then
    acceptIf (bwOk ((a - RSG_TYPE_LIM 0) / 16) (RSG_TYPE_BW_bw.get v)) fun s => s.plainWrite a v
  else if a = RSG_TEMP_EXT then accept fun s => s.tempExtWrite v
  else accept fun s => s.plainWrite a v

end Sys2Proof.Machine
end

