-- ==== Sys2Proof/Machine/Tsu.lean ====
section
/-! DEFINITION. Time of day, the PTP servos, Deuce, and time captures (04). -/

namespace Sys2Proof.Machine

/-! ### Access to the TSU's state -/

def State.modTsu (s : State) (f : Tsu → Tsu) : State := { s with tsu := f s.tsu }

def State.servo (s : State) (d : Nat) : Servo := tabGet servoDefault s.tsu.servos d

def State.setServo (s : State) (d : Nat) (v : Servo) : State :=
  s.modTsu fun t => { t with servos := tabSet servoDefault t.servos d v }

def trigDefault (_ : Nat) : Trig := ⟨0, false, none⟩

def State.trig (s : State) (n : Nat) : Trig := tabGet trigDefault s.tsu.trigs n

def State.setTrig (s : State) (n : Nat) (v : Trig) : State :=
  s.modTsu fun t => { t with trigs := tabSet trigDefault t.trigs n v }

def noCapture : CapEnt := ⟨0, 0, 0, false⟩

def capDefault (_ : Nat) : Cap := ⟨[], noCapture⟩

def State.cap (s : State) (n : Nat) : Cap := tabGet capDefault s.tsu.caps n

def State.setCap (s : State) (n : Nat) (v : Cap) : State :=
  s.modTsu fun t => { t with caps := tabSet capDefault t.caps n v }

def noPtp (_ : Nat) : List PtpFrame := []

/-- A PTP frame waits for its MAC. -/
def State.ptpSend (s : State) (p : Nat) (f : PtpFrame) : State :=
  s.modTsu fun t => { t with ptpTx := tabSet noPtp t.ptpTx p (tabGet noPtp t.ptpTx p ++ [f]) }

/-! ### Time of day (R111, R112) -/

/-- TOD passes 2^48 seconds. -/
abbrev todWrap : Nat := 2 ^ 48 * 1000000000

/-- TOD as the counter's words: seconds above 32 bits of nanoseconds. -/
def State.todWord (s : State) : Nat := s.tsu.ns / 1000000000 * 2 ^ 32 + s.tsu.ns % 1000000000

/-- Trigger n is armed with a PTP key. -/
def State.ptpArmed (s : State) (n : Nat) : Bool :=
  s.bit (TSU_TTRIG_CTRL n) TSU_TTRIG_CTRL_arm && s.bit (TSU_TTRIG_CTRL n) TSU_TTRIG_CTRL_key_type

/-- TOD takes a value other than by its advance: an armed PTP trigger whose key a forward step passes over fires late
(hard corner of 04); after a backward step it waits for its key again. -/
def State.todSet (s : State) (ns : Nat) : State :=
  let old := s.tsu.ns
  let s1 := s.modTsu fun t => { t with ns := ns % todWrap, sub := 0 }
  (List.range 16).foldl (fun s n =>
    if s.ptpArmed n then
      let t := s.trig n
      s.setTrig n { t with late := (t.late || decide (old < t.key)) && decide (t.key < ns % todWrap) }
    else s) s1

/-- TOD steps by a number of ns; every servo's offset is measured against TOD, so it moves the other way (R115, R120). -/
def State.todStep (s : State) (by_ : Int) : State :=
  let s1 := s.todSet (((s.tsu.ns : Int) + by_) % (todWrap : Int)).toNat
  let move (s : State) (d : Nat) : State := s.setServo d { s.servo d with offs := (s.servo d).offs - by_ }
  move (move s1 0) 1

/-- Moves a value towards 0 at 10 ppm over one tick of 2.5 ns: 25/1,000,000 ns. -/
def creep (acc : Nat) (x : Int) : Nat × Int :=
  if x = 0 then (0, 0)
  else if acc + 25 < 1000000 then (acc + 25, x)
  else (acc + 25 - 1000000, if 0 < x then x - 1 else x + 1)

def State.deuceActive (s : State) : Nat := s.fld TSU_DEUCE_STAT TSU_DEUCE_STAT_active

def State.deuceOn (s : State) : Bool := s.bit TSU_DEUCE_CTRL TSU_DEUCE_CTRL_en

abbrev srvDisabled := 0
abbrev srvListening := 1
abbrev srvAcquiring := 2
abbrev srvLocked := 3
abbrev srvCoast := 4

def State.srvState (s : State) (d : Nat) : Nat := s.fld (TSU_SRV_STATE d) TSU_SRV_STATE_state

def State.slewing (s : State) : Bool := s.bit TSU_DEUCE_STAT TSU_DEUCE_STAT_slewing

/-- A TOD rate is limited to ±200 ppm (R112). -/
def clampRate (x : Int) : Int := limitInt (-2000000) 2000000 x

/-- TSU_TOD_FREQ takes the rate in use. -/
def State.setRate (s : State) (x : Int) : State := s.setReg TSU_TOD_FREQ (BitVec.ofInt 32 (clampRate x))

/-- Whether TOD holds, and at which rate (R116), or at which a SLEW runs it (R119): judged after everything that can change it.
A SLEW waits while TOD holds. DEDUCED, log entry 164. -/
def State.holdUpdate (s : State) : State :=
  let st := s.srvState s.deuceActive
  let f := (s.reg (TSU_SRV_FREQ s.deuceActive)).toInt
  let o := (s.servo s.deuceActive).offs
  let hold := s.deuceOn && (st = srvCoast || st = srvListening || st = srvDisabled)
  let s1 := if hold then s.setRate f
    else if s.slewing && o != 0 then s.setRate (f + if 0 < o then 100000 else -100000)
    else s
  let s2 := s1.setFldIf (hold && !s.bit TSU_DEUCE_STAT TSU_DEUCE_STAT_hold) TSU_STATUS TSU_STATUS_tod_hold 1
  s2.setFld TSU_DEUCE_STAT TSU_DEUCE_STAT_hold (b2n hold)

/-- The rate that the active servo's loop sets; its gains are not stated, so it is free (R115). -/
def State.steer (s : State) (d : Nat) : State :=
  if s.deuceOn && s.deuceActive = d && !s.slewing && (s.srvState d = srvAcquiring || s.srvState d = srvLocked) then
    s.fresh.2.setRate s.fresh.1.toInt
  else s

/-- A SLEW whose offset is 0 is over, and the new servo's loop takes over (R119). -/
def State.slewDone (s : State) : State :=
  if s.slewing && (s.servo s.deuceActive).offs = 0 then
    ((s.setFld TSU_DEUCE_STAT TSU_DEUCE_STAT_slewing 0).steer s.deuceActive).holdUpdate
  else s

/-- A rebase is over when TSU_RALLY_OFFSET is 0 (R120). -/
def State.rebaseDone (s : State) : State :=
  if s.bit TSU_DEUCE_STAT TSU_DEUCE_STAT_rebasing && s.tsu.rallyOffs = 0 then
    ((s.setFld TSU_DEUCE_STAT TSU_DEUCE_STAT_rebasing 0).setFld TSU_DEUCE_CTRL TSU_DEUCE_CTRL_rebase 0).modTsu
      fun t => { t with rebaseAcc := 0 }
  else s

/-- The offsets that a rebase and a SLEW move, over one tick. -/
def State.creepTick (s : State) : State :=
  let s0 := if s.bit TSU_DEUCE_STAT TSU_DEUCE_STAT_rebasing then
      let (a, x) := creep s.tsu.rebaseAcc s.tsu.rallyOffs
      (s.modTsu fun t => { t with rebaseAcc := a, rallyOffs := x }).rebaseDone
    else s
  if s0.slewing && !s0.bit TSU_DEUCE_STAT TSU_DEUCE_STAT_hold then
    let d := s0.deuceActive
    let (a, x) := creep s0.tsu.slewAcc (s0.servo d).offs
    ((s0.modTsu fun t => { t with slewAcc := a }).setServo d { s0.servo d with offs := x }).slewDone
  else s0

/-- One tick of the 400 MHz time base: the Ts runs on, a rebase and a SLEW move their offsets (R119, R120), and TOD advances by
2.5 ns at the rate in use (R112). A wrap of TOD sets wrapped. A pending load is taken instead (R55). -/
def State.tsuTick (s : State) : State :=
  let s1 := s.tsTick.creepTick
  match s1.takeLoad (wideKey .tod) with
  | some (v, s2) => s2.todSet (v / 2 ^ 32 * 1000000000 + v % 2 ^ 32)
  | none =>
    let f := (s1.reg TSU_TOD_FREQ).toInt
    let sub := (s1.tsu.sub : Int) + 50000000000 + 5 * f
    let ns := s1.tsu.ns + (sub / 20000000000).toNat
    let s2 := s1.modTsu fun t => { t with ns := ns % todWrap, sub := (sub % 20000000000).toNat }
    s2.setFldIf (decide (todWrap ≤ ns)) TSU_TOD_STAT TSU_TOD_STAT_wrapped 1

/-! ### Timestamps (R109) -/

/-- A receive timestamp on MAC p, for a frame whose point passes now: 1 ns resolution. DESIGN CHOICE, log entry 49. -/
def State.rxStamp (s : State) (p : Nat) : Int × State :=
  s.roundFree (16 * (s.tsu.ns : Int) - s.fld (TSU_MAC_LAT p) TSU_MAC_LAT_rx_lat) 16

/-- A transmit timestamp on MAC p. -/
def State.txStamp (s : State) (p : Nat) : Int × State :=
  s.roundFree (16 * (s.tsu.ns : Int) + s.fld (TSU_MAC_LAT p) TSU_MAC_LAT_tx_lat) 16

/-- The path asymmetry of MAC p in 1/65536 ns. -/
def State.asymOf (s : State) (p : Nat) : Int := (s.reg (TSU_MAC_ASYM p)).toInt * 4096

/-! ### Deuce (R116 to R122) -/

/-- A switch to servo d (R118 to R121, R136). TOD is steered only while en is 1, so only then is Δ removed.
DEDUCED, log entry 50. -/
def State.deuceSwitch (s : State) (d : Nat) : State :=
  let delta := (s.servo d).offs
  let s1 := (s.setFld TSU_DEUCE_STAT TSU_DEUCE_STAT_active d).setFld TSU_DEUCE_CTRL TSU_DEUCE_CTRL_active d
  let s2 := (s1.bump TSU_DEUCE_SWITCHES whole).setFld TSU_STATUS TSU_STATUS_deuce_sw 1
  let s3 := (s2.setFld TSU_DEUCE_STAT TSU_DEUCE_STAT_slewing 0).modTsu fun t => { t with deuceOffs := delta, slewAcc := 0 }
  let step := s.bit TSU_DEUCE_CTRL TSU_DEUCE_CTRL_switch_mode
  let big := decide (10000 * s.fld TSU_DEUCE_CTRL TSU_DEUCE_CTRL_slew_max < delta.natAbs)
  let s4 :=
    if !s.deuceOn then s3
    else if step || big then
      ((s3.todStep delta).modTsu fun t => { t with rallyOffs := t.rallyOffs + delta }).setFldIf (!step)
        TSU_STATUS TSU_STATUS_slew_forced 1
    else if delta = 0 then s3
    else s3.setFld TSU_DEUCE_STAT TSU_DEUCE_STAT_slewing 1
  s4.rebaseDone.holdUpdate

/-- AUTO and AUTO_REVERT switch to the other servo while the active one is not LOCKED and the other is (R117, R122). -/
def State.deuceAuto (s : State) : State :=
  let a := s.deuceActive
  if s.fld TSU_DEUCE_CTRL TSU_DEUCE_CTRL_sel ≠ 0 ∧ s.srvState a ≠ srvLocked ∧ s.srvState (1 - a) = srvLocked then
    s.deuceSwitch (1 - a)
  else s.holdUpdate

/-- Servo d changes state (R113). -/
def State.srvGo (s : State) (d st : Nat) : State :=
  if s.srvState d = st then s
  else
    let s1 := (s.setFld (TSU_SRV_STATE d) TSU_SRV_STATE_state st).setFld TSU_STATUS TSU_STATUS_servo_chg 1
    (s1.setServo d { s1.servo d with inWin := 0, outWin := 0 }).deuceAuto

/-! ### Measurements (R109, R113 to R115) -/

/-- The step of TOD in ACQUIRING (R115); under SLEW TOD never steps (R136). DEDUCED, log entry 55. -/
def State.stepIfFar (s : State) (d : Nat) : State :=
  let o := (s.servo d).offs
  if s.deuceOn && s.deuceActive = d && s.srvState d = srvAcquiring && !s.slewing &&
      decide (1000 * s.fld (TSU_SRV_LOOP d) TSU_SRV_LOOP_step_thresh < o.natAbs) then
    (s.todStep o).setFld TSU_STATUS TSU_STATUS_tod_step 1
  else s

/-- A new o_d in the servo's state machine (R113). DEDUCED, log entry 46. -/
def State.srvJudge (s : State) (d : Nat) : State :=
  let v := s.servo d
  let a := v.offs.natAbs
  let inside := a ≤ s.fld (TSU_SRV_LOCK d) TSU_SRV_LOCK_lock_win
  let beyond := s.fld (TSU_SRV_FILT d) TSU_SRV_FILT_unlock_win < a
  match s.srvState d with
  | 1 => s.srvGo d srvAcquiring
  | 4 => s.srvGo d srvAcquiring
  | 2 =>
    let n := if inside then v.inWin + 1 else 0
    if inside && decide (s.fld (TSU_SRV_LOCK d) TSU_SRV_LOCK_lock_count ≤ n) then s.srvGo d srvLocked
    else s.setServo d { v with inWin := n }
  | 3 =>
    let n := if beyond then v.outWin + 1 else 0
    if 4 ≤ n then s.srvGo d srvAcquiring else s.setServo d { v with outWin := n }
  | _ => s

/-- A complete Sync: send time with corrections t1, in 1/65536 ns, and receive time t2 in ns. With a path delay it gives
o_d and f_d; f_d is an estimate whose filter is not stated, so its value is free. DEDUCED, log entry 47.
DESIGN CHOICE, log entry 48. -/
def State.syncDone (s : State) (d : Nat) (t1 t2 : Int) : State :=
  let s1 := s.setServo d { s.servo d with sync := none, last := some (t1, t2) }
  match (s.servo d).delays with
  | [] => s1
  | mpd :: _ =>
    let (o, s2) := s1.roundFree (t1 + (mpd - t2) * 65536) 65536
    let s3 := s2.setServo d { s2.servo d with offs := o }
    let s4 := s3.fresh.2.setReg (TSU_SRV_FREQ d) (BitVec.ofInt 32 (signed 32 s3.fresh.1.toNat))
    (((s4.srvJudge d).stepIfFar d).steer d).slewDone.holdUpdate

/-- A path delay in 1/131072 ns: judged against the mean of the last 16 accepted ones (R114). -/
def State.delayDone (s : State) (d : Nat) (twice : Int) : State :=
  let (m, s1) := s.roundFree twice 131072
  let v := s1.servo d
  let n := v.delays.length
  if n != 0 && decide ((s1.fld (TSU_SRV_FILT d) TSU_SRV_FILT_outlier : Int) * n < ((m * n - v.delays.sum).natAbs : Int)) then
    s1.bump (TSU_SRV_OUTLIERS d) whole
  else (s1.setServo d { v with delays := (m :: v.delays).take 16 }).setReg (TSU_SRV_MPD d) (BitVec.ofInt 32 m)

def State.srvPort (s : State) (d : Nat) : Nat := s.fld (TSU_SRV_CFG d) TSU_SRV_CFG_port

def State.srvOn (s : State) (d : Nat) : Bool := s.bit (TSU_SRV_CFG d) TSU_SRV_CFG_en

/-- SYNC (R107): sequence ID, originTimestamp in ns, correctionField in 1/65536 ns. -/
def State.opSync (s : State) (d : Nat) (twoStep : Bool) (seq : Nat) (origin corr : Int) : State :=
  if s.srvOn d then
    let (t2, s1) := s.rxStamp (s.srvPort d)
    let c := corr + s.asymOf (s.srvPort d)
    if twoStep then s1.setServo d { s1.servo d with sync := some (seq, c, t2) }
    else s1.syncDone d (origin * 65536 + c) t2
  else s

def execSync (d : Fin 2) (twoStep : Bool) (seq : BitVec 16) (origin corr : Int) (s : State) :
    Host.Outcome State Fault Refusal :=
  s.runLit fun s => s.opSync d.val twoStep seq.toNat origin corr

/-- FOLLOW_UP (R107): preciseOriginTimestamp and correctionField; it belongs to the Sync with its sequence ID. -/
def State.opFollowUp (s : State) (d seq : Nat) (origin corr : Int) : State :=
  match (s.servo d).sync with
  | none => s
  | some (q, c, t2) => if s.srvOn d && q = seq then s.syncDone d (origin * 65536 + c + corr) t2 else s

def execFollowUp (d : Fin 2) (seq : BitVec 16) (origin corr : Int) (s : State) : Host.Outcome State Fault Refusal :=
  s.runLit fun s => s.opFollowUp d.val seq.toNat origin corr

/-- DELAY_RESP (R107): receiveTimestamp and correctionField; it answers the outstanding Delay_Req (E2E). -/
def State.opDelayResp (s : State) (d seq : Nat) (recv corr : Int) : State :=
  let v := s.servo d
  match v.req, v.last with
  | some (q, t3), some (t1, t2) =>
    if s.srvOn d && !s.bit (TSU_SRV_CFG d) TSU_SRV_CFG_delay && q = seq then
      (s.setServo d { v with req := none }).delayDone d ((t2 - t3 + recv) * 65536 - t1 - corr)
    else s
  | _, _ => s

def execDelayResp (d : Fin 2) (seq : BitVec 16) (recv corr : Int) (s : State) : Host.Outcome State Fault Refusal :=
  s.runLit fun s => s.opDelayResp d.val seq.toNat recv corr

/-- PDELAY_RESP (R107): a Pdelay_Resp (time = requestReceiptTimestamp), or its follow-up (time =
responseOriginTimestamp); it answers the outstanding Pdelay_Req (P2P). A one-step answer's correctionField holds the
turnaround time. -/
def State.opPdelayResp (s : State) (d : Nat) (followUp twoStep : Bool) (seq : Nat) (time corr : Int) : State :=
  let v := s.servo d
  if s.srvOn d && s.bit (TSU_SRV_CFG d) TSU_SRV_CFG_delay then
    match v.req with
    | none => s
    | some (q, t1) =>
      if q ≠ seq then s
      else if followUp then
        match v.resp with
        | none => s
        | some (q2, t2, c, t4) =>
          if q2 = seq then
            (s.setServo d { v with req := none, resp := none }).delayDone d ((t4 - t1 - (time - t2)) * 65536 - c - corr)
          else s
      else
        let (t4, s1) := s.rxStamp (s.srvPort d)
        let c := corr + s.asymOf (s.srvPort d)
        if twoStep then s1.setServo d { v with resp := some (seq, time, c, t4) }
        else (s1.setServo d { v with req := none }).delayDone d ((t4 - t1) * 65536 - c)
  else s

def execPdelayResp (d : Fin 2) (followUp twoStep : Bool) (seq : BitVec 16) (time corr : Int) (s : State) :
    Host.Outcome State Fault Refusal :=
  s.runLit fun s => s.opPdelayResp d.val followUp twoStep seq.toNat time corr

/-- PDELAY_REQ (R108): a Pdelay_Req on a MAC and in a domain to which an enabled P2P servo is bound is answered. -/
def State.opPdelayReq (s : State) (p domain seq : Nat) (q : PdelayFrom) : State :=
  match (List.range 2).find? fun d => s.srvOn d && s.bit (TSU_SRV_CFG d) TSU_SRV_CFG_delay &&
    s.srvPort d = p && s.fld (TSU_SRV_CFG d) TSU_SRV_CFG_domain = domain with
  | some d =>
    let (rx, s1) := s.rxStamp p
    s1.ptpSend p (.pdelayResp d q.udp seq rx q.corr q.who.toNat)
  | none => s

def execPdelayReq (p : Fin 2) (domain : BitVec 7) (seq : BitVec 16) (req : PdelayFrom) (s : State) :
    Host.Outcome State Fault Refusal :=
  s.runLit fun s => s.opPdelayReq p.val domain.toNat seq.toNat req

/-- DELAY_REQ_SEND (R107): a Delay_Req or a Pdelay_Req with the next sequence ID goes to the bound MAC. -/
def State.opDelayReqSend (s : State) (d : Nat) : State :=
  if s.srvOn d then
    let q := (s.servo d).seq
    let s1 := s.setServo d { s.servo d with seq := (q + 1) % 65536 }
    s1.ptpSend (s.srvPort d) (if s.bit (TSU_SRV_CFG d) TSU_SRV_CFG_delay then .pdelayReq d q else .delayReq d q)
  else s

def execDelayReqSend (d : Fin 2) (s : State) : Host.Outcome State Fault Refusal := s.runLit fun s => s.opDelayReqSend d.val

/-- A PTP message leaves at time t (R109): a request's transmit time is kept for its answer. -/
def State.ptpSent (s : State) (f : PtpFrame) (t : Int) : State :=
  match f with
  | .delayReq d q => s.setServo d { s.servo d with req := some (q, t) }
  | .pdelayReq d q => s.setServo d { s.servo d with req := some (q, t), resp := none }
  | .pdelayResp _ _ _ _ _ _ => s

/-- SYNC_TIMEOUT (R113). -/
def execSyncTimeout (d : Fin 2) (s : State) : Host.Outcome State Fault Refusal :=
  s.runXo fun s =>
    if s.srvState d.val = srvAcquiring then s.srvGo d.val srvListening
    else if s.srvState d.val = srvLocked then s.srvGo d.val srvCoast
    else s

/-- A write to TSU_SRV(d)_PARENT_HI takes all three words (R113). The path delays belong to the old parent and are
dropped; a DISABLED servo stays so. DEDUCED, log entry 45. -/
def writeParentHi (d : Nat) (v : Word) : WriteEff := accept fun s =>
  let s1 := s.plainWrite (TSU_SRV_PARENT_HI d) v
  let id := (s1.reg (TSU_SRV_PARENT_LO d)).toNat + (s1.reg (TSU_SRV_PARENT_MID d)).toNat * 2 ^ 32 +
    s1.fld (TSU_SRV_PARENT_HI d) TSU_SRV_PARENT_HI_port_num * 2 ^ 64
  let s2 := s1.setServo d { s1.servo d with
    parent := id, delays := [], sync := none, last := none, req := none, resp := none }
  if s.srvState d = srvDisabled then s2
  else s2.srvGo d (if s.srvState d = srvLocked then srvCoast else srvListening)

/-- PARENT_WRITE (R113). -/
def execParentWrite (m : Mid) (d : Fin 2) (v : Word) (s : State) : Host.Outcome State Fault Refusal :=
  s.run fun s => s.writeReg m.val (TSU_SRV_PARENT_HI d.val) v (writeParentHi d.val v)

/-- A write to TSU_SRV(d)_CFG (R113): no field but en changes while en is 1; log_sync lies in −7 to 4 and log_dreq in −7
to 5. -/
def writeSrvCfg (d : Nat) (v : Word) : WriteEff := fun s =>
  let old := s.reg (TSU_SRV_CFG d)
  let ls := signed 4 (TSU_SRV_CFG_log_sync.get v)
  let ld := signed 4 (TSU_SRV_CFG_log_dreq.get v)
  if ls < -7 ∨ 4 < ls ∨ ld < -7 ∨ 5 < ld then (.slverr, s)
  else if s.srvOn d && (old &&& 0xFF7F0E) != (v &&& 0xFF7F0E) then (.slverr, s)
  else
    let on := s.srvOn d
    let s1 := s.plainWrite (TSU_SRV_CFG d) v
    if TSU_SRV_CFG_en.get v = 0 then (.ok, s1.srvGo d srvDisabled)
    else if on then (.ok, s1)
    else
      let v := s1.servo d
      (.ok, (s1.setServo d { servoDefault 0 with parent := v.parent, offs := v.offs, seq := v.seq }).srvGo d srvListening)

/-- SERVO_ENABLE (R113): a write to TSU_SRV(d)_CFG. -/
def execServoEnable (m : Mid) (d : Fin 2) (v : Word) (s : State) : Host.Outcome State Fault Refusal :=
  s.run fun s => s.writeReg m.val (TSU_SRV_CFG d.val) v (writeSrvCfg d.val v)

/-! ### Deuce commands (R117 to R121) -/

/-- A write to TSU_DEUCE_CTRL (R112, R117, R120). active is taken only where the written sel is MANUAL.
DEDUCED, log entry 51. -/
def writeDeuceCtrl (v : Word) : WriteEff := fun s =>
  let sel := TSU_DEUCE_CTRL_sel.get v
  let want := TSU_DEUCE_CTRL_active.get v
  let change := sel = 0 ∧ want ≠ s.deuceActive
  if sel = 3 ∨ 3600 < TSU_DEUCE_CTRL_wtr.get v then (.slverr, s)
  else if change ∧ s.srvState want ≠ srvLocked then (.slverr, s)
  else
    let s1 := s.setReg TSU_DEUCE_CTRL (TSU_DEUCE_CTRL_active.set
      (((v ||| (s.reg TSU_DEUCE_CTRL &&& 0x40)) &&& 0x0FFFFF7F)) s.deuceActive)
    let s2 := if s.deuceOn && !s1.deuceOn then s1.setFld TSU_DEUCE_STAT TSU_DEUCE_STAT_slewing 0 else s1
    let s3 := if s2.tsu.rallyOffs = 0 then s2.setFld TSU_DEUCE_CTRL TSU_DEUCE_CTRL_rebase 0 else s2
    let s4 := s3.setFld TSU_DEUCE_STAT TSU_DEUCE_STAT_rebasing (s3.fld TSU_DEUCE_CTRL TSU_DEUCE_CTRL_rebase)
    if change then (.ok, s4.deuceSwitch want) else (.ok, s4.deuceAuto)

/-- DEUCE_REVERT (R117): the preferred servo has been LOCKED for wtr seconds without a break. -/
def execDeuceRevert (s : State) : Host.Outcome State Fault Refusal :=
  s.runXo fun s =>
    let p := s.fld TSU_DEUCE_CTRL TSU_DEUCE_CTRL_prefer
    if s.fld TSU_DEUCE_CTRL TSU_DEUCE_CTRL_sel = 2 && s.srvState p = srvLocked && p != s.deuceActive then s.deuceSwitch p
    else s

/-- DEUCE_ACTIVE_WRITE (R117): a write to TSU_DEUCE_CTRL. -/
def execDeuceActiveWrite (m : Mid) (v : Word) (s : State) : Host.Outcome State Fault Refusal :=
  s.run fun s => s.writeReg m.val TSU_DEUCE_CTRL v (writeDeuceCtrl v)

/-- SLEW_COMPLETE (R119): o_new has reached 0. -/
def execSlewComplete (s : State) : Host.Outcome State Fault Refusal := s.runXo State.slewDone

/-- REBASE (R120): a write of 1 to TSU_DEUCE_CTRL.rebase, with the other fields as v gives them. -/
def execRebase (m : Mid) (v : Word) (s : State) : Host.Outcome State Fault Refusal :=
  s.runXo fun s => s.writeReg m.val TSU_DEUCE_CTRL (v ||| 0x40) (writeDeuceCtrl (v ||| 0x40))

/-- REBASE_COMPLETE (R120): TSU_RALLY_OFFSET has reached 0. -/
def execRebaseComplete (s : State) : Host.Outcome State Fault Refusal := s.runXo State.rebaseDone

/-! ### Triggers: arm and disarm (R128, R129, R131) -/

def State.trigArmed (s : State) (n : Nat) : Bool := s.bit (TSU_TTRIG_CTRL n) TSU_TTRIG_CTRL_arm

/-- A write to TSU_TTRIG(n)_CTRL. A 1 written to arm of an armed trigger keeps its latched
key, and a write that leaves the other fields as they are is accepted. DEDUCED, log entry 52. DEDUCED, log entry 53.
DESIGN CHOICE, log entry 165. -/
def writeTtrigCtrl (n : Nat) (v : Word) : WriteEff := fun s =>
  let c := TSU_TTRIG_CTRL n
  let armed := s.trigArmed n
  let arm := bitOf v.toNat 0
  let disarm := bitOf v.toNat 1
  let ptp := TSU_TTRIG_CTRL_key_type.get v = 1
  let period := (s.reg (TSU_TTRIG_PERIOD n)).toNat
  if arm && disarm then (.slverr, s)
  else if 4 < TSU_TTRIG_CTRL_action.get v then (.slverr, s)
  else if armed && (s.reg c &&& 0x1F7C) != (v &&& 0x1F7C) then (.slverr, s)
  else if arm && !armed && TSU_TTRIG_CTRL_periodic.get v = 1 && decide (period < if ptp then 5000 else 1) then (.slverr, s)
  else
    let s1 := s.setReg c ((v &&& 0xFFFF7F7C) ||| BitVec.ofNat 32 (b2n ((armed && !disarm) || arm)))
    if disarm then (.ok, s1.setTrig n (trigDefault n))
    else if arm && !armed then
      let lo := (s.reg (TSU_TTRIG_KEY_LO n)).toNat
      let mid := (s.reg (TSU_TTRIG_KEY_MID n)).toNat
      let hi := (s.reg (TSU_TTRIG_KEY_HI n)).toNat
      if ptp then
        let key := (mid + hi % 65536 * 2 ^ 32) * 1000000000 + lo
        (.ok, s1.setTrig n ⟨key, decide (key < s.tsu.ns), none⟩)
      else
        let key := lo + mid % 65536 * 2 ^ 32
        (.ok, s1.setTrig n ⟨key, s.rallyPast key, none⟩)
    else (.ok, s1)

/-- TTRIG_ARM (R128): a write of 1 to CTRL.arm, with the other fields as v gives them. -/
def execTtrigArm (m : Mid) (n : Fin 16) (v : Word) (s : State) : Host.Outcome State Fault Refusal :=
  s.run fun s => s.writeReg m.val (TSU_TTRIG_CTRL n.val) (v ||| 1) (writeTtrigCtrl n.val (v ||| 1))

/-- TTRIG_DISARM (R128): a write of 1 to CTRL.disarm. -/
def execTtrigDisarm (m : Mid) (n : Fin 16) (v : Word) (s : State) : Host.Outcome State Fault Refusal :=
  s.run fun s => s.writeReg m.val (TSU_TTRIG_CTRL n.val) (v ||| 2) (writeTtrigCtrl n.val (v ||| 2))

/-- At a Rally instant an armed Rally trigger becomes due: at its key, at the first instant after an arm in the past, or
at a jump that passed over the key (R127, R129). -/
def State.trigRally (passed : Nat → Bool) (s : State) (n : Nat) : State :=
  let t := s.trig n
  if s.trigArmed n && !s.bit (TSU_TTRIG_CTRL n) TSU_TTRIG_CTRL_key_type && t.due.isNone then
    if t.late then s.setTrig n { t with due := some true }
    else if s.rallyCount = t.key then s.setTrig n { t with due := some false }
    else if passed t.key then s.setTrig n { t with due := some true }
    else s
  else s

/-- A trigger has reached its key: late or not; none while it has not (R129). -/
def State.trigDue (s : State) (n : Nat) : Option Bool :=
  let t := s.trig n
  if !s.trigArmed n then none
  else if s.bit (TSU_TTRIG_CTRL n) TSU_TTRIG_CTRL_key_type then (if t.key ≤ s.tsu.ns then some t.late else none)
  else t.due

/-- The key after a firing of a periodic trigger, and the firings skipped (R131). -/
def State.nextKey (s : State) (n : Nat) : Nat × Nat :=
  let p := max 1 (s.reg (TSU_TTRIG_PERIOD n)).toNat
  if s.bit (TSU_TTRIG_CTRL n) TSU_TTRIG_CTRL_key_type then
    let k := (s.trig n).key + p
    let j := (s.tsu.ns - k + p - 1) / p
    (k + j * p, j)
  else
    let k := ((s.trig n).key + p) % 2 ^ 48
    let j := if s.rallyPast k then (s.rallyCount + 2 ^ 48 - k) % 2 ^ 48 / p + 1 else 0
    ((k + j * p) % 2 ^ 48, j)

/-- The record of a firing (R130, R131): fired, late, the event, and the key's advance or the disarm. -/
def State.trigRecord (s : State) (n : Nat) (late : Bool) : State :=
  let s1 := s.setFld (TSU_TTRIG_STAT n) TSU_TTRIG_STAT_fired 1
  let s2 := if late then (s1.setFld (TSU_TTRIG_STAT n) TSU_TTRIG_STAT_late 1).setFld TSU_STATUS TSU_STATUS_ttrig_late 1 else s1
  let s3 := s2.raiseIf (s.bit (TSU_TTRIG_CTRL n) TSU_TTRIG_CTRL_irq) (405 + n)
  if s.bit (TSU_TTRIG_CTRL n) TSU_TTRIG_CTRL_periodic then
    (s3.setTrig n ⟨(s.nextKey n).1, false, none⟩).bumpBy (TSU_TTRIG_STAT n) TSU_TTRIG_STAT_skipped (s.nextKey n).2
  else (s3.setTrig n (trigDefault n)).setFld (TSU_TTRIG_CTRL n) TSU_TTRIG_CTRL_arm 0

/-! ### GPIO pulses (R130, R521) -/

def State.pulsesOf (s : State) (i : Nat) : Pulses := tabGet pulsesDefault s.pins.pulses i

def State.setPulses (s : State) (i : Nat) (p : Pulses) : State :=
  { s with pins := { s.pins with pulses := tabSet pulsesDefault s.pins.pulses i p } }

/-- A pulse starts on a GPIO. -/
def State.pulseStart (s : State) (i : Nat) (low : Bool) : State :=
  let p := s.pulsesOf i
  s.setPulses i (if low then ⟨p.high, p.low + 1⟩ else ⟨p.high + 1, p.low⟩)

/-- GPIO_PULSE_END (R130): a pulse of a polarity ends. -/
def execGpioPulseEnd (i : Fin 32) (low : Bool) (s : State) : Host.Outcome State Fault Refusal :=
  s.runXo fun s =>
    let p := s.pulsesOf i.val
    s.setPulses i.val (if low then ⟨p.high, p.low - 1⟩ else ⟨p.high - 1, p.low⟩)

/-! ### Time captures (R133, R134) -/

/-- TCAP_EDGE (R133, R134): an edge on GPIO 16 + n, with the elapsed fraction of the Ts. DEDUCED, log entry 56. -/
def execTcapEdge (n : Fin 8) (rising : Bool) (phase : BitVec 8) (s : State) : Host.Outcome State Fault Refusal :=
  s.runXo fun s0 =>
    let s := s0.setPin (16 + n.val) rising
    let c := TSU_TCAP_CTRL n.val
    let sel := bitOf (s.fld c TSU_TCAP_CTRL_edge) (if rising then 0 else 1)
    if s.bit c TSU_TCAP_CTRL_en && sel && s.gpioFn (16 + n.val) = 2 then
      let x := s.cap n.val
      if 4 ≤ x.fifo.length then
        (((s.bump (TSU_TCAP_STAT n.val) TSU_TCAP_STAT_dropped).setFld (TSU_TCAP_STAT n.val) TSU_TCAP_STAT_ovf 1).setFld
          TSU_STATUS TSU_STATUS_tcap_ovf 1).raise 421
      else
        (s.setCap n.val { x with fifo := x.fifo ++ [⟨s.tsu.ns, s.rallyCount, phase.toNat, rising⟩] }).raiseIf
          (s.bit c TSU_TCAP_CTRL_irq) 421
    else s

/-- A read of TSU_TCAP(n)_NS (R134). -/
def State.capPop (n : Nat) (s : State) : Resp × Word × State :=
  match (s.cap n).fifo with
  | [] => (.ok, 0xFFFFFFFF, s)
  | e :: rest => (.ok, BitVec.ofNat 32 (e.ns % 1000000000), s.setCap n ⟨rest, e⟩)

/-- TCAP_POP (R134). -/
def execTcapPop (m : Mid) (n : Fin 8) (s : State) : Host.Outcome State Fault Refusal :=
  s.run fun s => s.readReg m.val (TSU_TCAP_NS n.val) (State.capPop n.val)

/-! ### Registers -/

/-- TSU_RALLY_CFG.src (R124): PTP while the RSG's active candidate is PTP in ACQUIRING or LOCKED, CHIMNEY while a Chimney
follower governs the count (R412). -/
def State.rallySrc (s : State) : Nat :=
  if s.activeEntry.isSome && s.fld RSG_STATE RSG_STATE_cand = 1 then 1
  else if s.bit CHM_STAT CHM_STAT_follower then 2 else 0

/-- A read of a register of the TSU that is not held as a word, or none. -/
def State.tsuRead (s : State) (a : Nat) : Option Word :=
  if a = TSU_RALLY_CFG then some (TSU_RALLY_CFG_src.set (s.reg a) s.rallySrc)
  else if TSU_TCAP_CTRL 0 ≤ a ∧ a < TSU_TCAP_CTRL 8 then
    let n := (a - TSU_TCAP_CTRL 0) / 32
    let x := (s.cap n).shadow
    match (a - TSU_TCAP_CTRL 0) % 32 with
    | 8 => some (BitVec.ofNat 32 (x.ns / 1000000000))
    | 12 => some (BitVec.ofNat 32 (x.ns / 1000000000 / 2 ^ 32))
    | 16 => some (BitVec.ofNat 32 x.rally)
    | 20 => some (BitVec.ofNat 32 (x.rally / 2 ^ 32 + x.phase * 2 ^ 16 + b2n x.rising * 2 ^ 24))
    | _ => none
  else none

/-- TSU_TCAP(n)_STAT shows the fill; its dropped count clears with the read. -/
def State.capStat (s : State) (n : Nat) : Word := TSU_TCAP_STAT_fill.set (s.reg (TSU_TCAP_STAT n)) (s.cap n).fifo.length

/-- A write to a register of the TSU other than a counter's words. -/
def tsuWrite (a : Nat) (v : Word) : WriteEff := fun s =>
  if a = TSU_TOD_FREQ then
    if s.deuceOn ∨ v.toInt < -2000000 ∨ 2000000 < v.toInt then (.slverr, s) else (.ok, s.plainWrite a v)
  else if a = TSU_DEUCE_CTRL then writeDeuceCtrl v s
  else if TSU_SRV_CFG 0 ≤ a ∧ a < TSU_SRV_CFG 2 then
    let d := (a - TSU_SRV_CFG 0) / 0x80
    if a = TSU_SRV_CFG d then writeSrvCfg d v s
    else if a = TSU_SRV_PARENT_HI d then writeParentHi d v s
    else if a = TSU_SRV_LOOP d ∧ (TSU_SRV_LOOP_bw.get v < 10 ∨ 4000 < TSU_SRV_LOOP_bw.get v) then (.slverr, s)
    else (.ok, s.plainWrite a v)
  else if TSU_TTRIG_CTRL 0 ≤ a ∧ a < TSU_TTRIG_CTRL 16 then
    let n := (a - TSU_TTRIG_CTRL 0) / 32
    if a = TSU_TTRIG_CTRL n then writeTtrigCtrl n v s
    else if a = TSU_TTRIG_STAT n then (.ok, s.plainWrite a v)
    else if s.trigArmed n then (.slverr, s)
    else (.ok, s.plainWrite a v)
  else (.ok, s.plainWrite a v)

end Sys2Proof.Machine
end

