-- ==== Sys2Proof/Machine/Memc.lean ====
section
/-! DEFINITION. The Mantel, its ECC, error injection, the scrubber and the clear on wake (11). -/

namespace Sys2Proof.Machine

/-! ### Words of the Mantel (R304, R309) -/

/-- A 64-bit word of the Mantel as it is stored, by its number. -/
def State.mantelWord (s : State) (w : Nat) : Nat :=
  (List.range 8).foldl (fun acc j => acc + (tabGet zeroByte s.mantel (8 * w + j)).toNat * 256 ^ j) 0

/-- The byte lanes of an access of n bytes at address a, in order: byte j goes to lane (a + j) mod 8 of the word (R309). -/
def lanes (a n : Nat) : List (Nat × Nat) := (List.range n).map fun j => (j, a / 8 * 8 + (a + j) % 8)

/-- Stores bytes of a value at their lanes. -/
def putLanes (m : Tab Byte) (a n v : Nat) : Tab Byte :=
  (lanes a n).foldl (fun t e => tabSet zeroByte t e.2 (BitVec.ofNat 8 (v / 256 ^ e.1 % 256))) m

/-- Takes the bytes of an access out of a word: rotated right by a mod 8, wrapping (R309). -/
def takeLanes (word a n : Nat) : Nat :=
  (lanes a n).foldl (fun acc e => acc + word / 256 ^ (e.2 % 8) % 256 * 256 ^ e.1) 0

/-! ### ECC (R313 to R316) -/

/-- The bits of a stored word of 72 that are wrong: data bits 0 to 63, check bits 64 to 71 (R313, R314). The Mantel's bytes hold
what was written. -/
def State.flipsOf (s : State) (w : Nat) : Nat := tabGet zeroNat s.flips w

def State.setFlips (s : State) (w m : Nat) : State := { s with flips := tabSet zeroNat s.flips w m }

/-- The bits that are 1 in a mask of 72. -/
def flipBits (m : Nat) : List Nat := (List.range 72).filter fun b => bitOf m b

/-- The data bits of a word as they are stored, wrong ones among them. -/
def State.storedWord (s : State) (w : Nat) : Nat := s.mantelWord w ^^^ s.flipsOf w % 2 ^ 64

/-- Port B serves every master but the Hearths (R305). -/
def portB (mid : Nat) : Bool := 192 ≤ mid

/-- A corrected error at word w, bit position `bit` (R314). -/
def State.noteCe (s : State) (w mid bit : Nat) : State :=
  let s1 := (s.bump MEMC_CE_COUNT whole).setFld MEMC_EVT MEMC_EVT_ce 1
  if s1.bit MEMC_CE_INFO MEMC_CE_INFO_valid then s1
  else (s1.setReg MEMC_CE_ADDR (BitVec.ofNat 32 (8 * w))).setReg MEMC_CE_INFO
    (BitVec.ofNat 32 (bit + mid * 2 ^ 8 + b2n (portB mid) * 2 ^ 20 + 2 ^ 31))

/-- An uncorrectable error at word w (R315). -/
def State.noteUe (s : State) (w mid : Nat) (rmw : Bool) : State :=
  let s1 := (s.bump MEMC_UE_COUNT whole).setFld MEMC_EVT MEMC_EVT_ue 1
  if s1.bit MEMC_UE_INFO MEMC_UE_INFO_valid then s1
  else (s1.setReg MEMC_UE_ADDR (BitVec.ofNat 32 (8 * w))).setReg MEMC_UE_INFO
    (BitVec.ofNat 32 (mid * 2 ^ 8 + b2n (portB mid) * 2 ^ 20 + b2n rmw * 2 ^ 21 + 2 ^ 31))

/-- What the check of a word answers. -/
inductive EccAns where
  | clean
  | corrected
  | bad
deriving DecidableEq, Repr

/-- The check of word w as it is read, with its write-back (R313 to R315). Three or more flipped bits are uncorrectable,
corrected with wrong data or missed: which of them is free, and so is the wrong data; one that is missed stays in the word.
DEDUCED, log entry 26. DESIGN CHOICE, log entry 27. -/
def State.eccCheck (s : State) (w mid : Nat) (rmw : Bool) : EccAns × State :=
  match flipBits (s.flipsOf w) with
  | [] => (.clean, s)
  | [b] => (.corrected, (s.setFlips w 0).noteCe w mid b)
  | [_, _] => (.bad, s.noteUe w mid rmw)
  | _ =>
    let (v, s1) := s.fresh
    match v.toNat % 3 with
    | 0 => (.bad, s1.noteUe w mid rmw)
    | 1 =>
      let (d, s2) := s1.fresh
      let (p, s3) := s2.fresh
      (.corrected, ({ s3.setFlips w 0 with mantel := putLanes s3.mantel (8 * w) 8 d.toNat }).noteCe w mid (p.toNat % 72))
    | _ => (.clean, s1)

/-- A read of n bytes at address a by a master: response ECC, or the data (R309, R314, R315). -/
def State.mantelRead (s : State) (mid a n : Nat) : Option Nat × State :=
  match s.eccCheck (a / 8) mid false with
  | (.bad, s1) => (none, s1)
  | (_, s1) => (some (takeLanes (s1.storedWord (a / 8)) a n), s1)

/-- The check bits after a write to word w: an armed injection on the word is used up (R318). -/
def State.freshCheck (s : State) (w : Nat) : State :=
  if s.bit MEMC_INJ_CTRL MEMC_INJ_CTRL_arm && (s.reg MEMC_INJ_ADDR).toNat / 8 = w then
    ((s.setFlips w (s.fld MEMC_INJ_CTRL MEMC_INJ_CTRL_flip * 2 ^ 64)).setFld MEMC_INJ_CTRL MEMC_INJ_CTRL_arm 0).setFld MEMC_EVT
      MEMC_EVT_inj_done 1
  else s.setFlips w 0

/-- A write of n bytes at address a (R309 to R311, R316): all 8 lanes are written at once, fewer by read-modify-write.
False when the read half finds an uncorrectable error, and then nothing is written. The bytes merge into the word as it was read:
an error that the check missed becomes data. -/
def State.mantelWrite (s : State) (mid a n v : Nat) : Bool × State :=
  if n = 8 then (true, { s.freshCheck (a / 8) with mantel := putLanes s.mantel a 8 v })
  else
    match s.eccCheck (a / 8) mid true with
    | (.bad, s1) => (false, s1)
    | (_, s1) => (true, { s1.freshCheck (a / 8) with
        mantel := putLanes (putLanes s1.mantel (a / 8 * 8) 8 (s1.storedWord (a / 8))) a n v })

/-- A read of an engine of the block, as any master's: outside the Mantel it finds DECERR or PERM (R41, R559). A response that is
no OK is logged (R50), and the read gives nothing. DEDUCED, log entry 159. -/
def State.dmaRead (s : State) (mid a : Nat) (sz : AccSize) : Option Nat × State :=
  match s.accessCheck mid a sz false with
  | .ok =>
    match s.mantelRead mid a (sizeBytes sz) with
    | (none, s1) => (none, s1.logViolation mid a sz false .ecc)
    | (some v, s1) => (some v, s1)
  | r => (none, s.logViolation mid a sz false r)

/-- A write of an engine of the block. -/
def State.dmaWrite (s : State) (mid a : Nat) (sz : AccSize) (v : Nat) : Bool × State :=
  match s.accessCheck mid a sz true with
  | .ok =>
    match s.mantelWrite mid a (sizeBytes sz) v with
    | (true, s1) => (true, s1)
    | (false, s1) => (false, (s1.logViolation mid a sz true .ecc).noteWriteError mid true .ecc)
  | r => (false, (s.logViolation mid a sz true r).noteWriteError mid true r)

/-- Writes a list of 64-bit words from an address up. -/
def State.dmaWriteWords (s : State) (mid a : Nat) : List Nat → State
  | [] => s
  | v :: rest => ((s.dmaWrite mid a .b64 v).2).dmaWriteWords mid (a + 8) rest

/-! ### Error injection (R318) -/

/-- A write to MEMC_INJ_CTRL. -/
def writeInjCtrl (v : Word) : WriteEff := fun s =>
  let armed := s.bit MEMC_INJ_CTRL MEMC_INJ_CTRL_arm
  if armed && MEMC_INJ_CTRL_flip.get v != s.fld MEMC_INJ_CTRL MEMC_INJ_CTRL_flip then (.slverr, s)
  else (.ok, s.plainWrite MEMC_INJ_CTRL v)

/-- INJ_ARM (R318): a write of 1 to arm with the flip mask of v. -/
def execInjArm (m : Mid) (v : Word) (s : State) : Host.Outcome State Fault Refusal :=
  s.run fun s => s.writeReg m.val MEMC_INJ_CTRL (v ||| 1) (writeInjCtrl (v ||| 1))

/-! ### The scrubber (R320 to R325) -/

def scrubReset : Scrub := ⟨0, 0, 0, none, none⟩

def State.scrubbing (s : State) : Bool := s.bit MEMC_SCRUB_CTRL MEMC_SCRUB_CTRL_en

def State.scrubTiles (s : State) : Bool := s.bit MEMC_SCRUB_CTRL MEMC_SCRUB_CTRL_target

/-- Where a pass starts: an engine address. -/
def State.scrubStart (s : State) : Nat :=
  let v := s.fld MEMC_SCRUB_START MEMC_SCRUB_START_addr
  if s.scrubTiles then 0x01000000 + 0x10000 * v else v

/-- START and END fit the layout of a target, and the range is not empty and lies in its space (R321).
DEDUCED, log entry 29. -/
def scrubRangeOk (tiles : Bool) (a b : Nat) : Bool :=
  if tiles then a ≤ b && b ≤ 191 else a % 8 = 0 && b % 8 = 0 && a < b && b ≤ 0x800000

/-- The first word of a pass is next. -/
def State.scrubBegin (s : State) : State :=
  { s.setReg MEMC_SCRUB_POS (BitVec.ofNat 32 s.scrubStart) with scrub := scrubReset }

/-- The summary of a pass, written in one instant (R323, R324). -/
def State.scrubSummary (s : State) (part : Bool) : State :=
  let p := s.scrub
  let bound (x : Option Nat) : Word := match x with
    | none => 0xFFFFFFFF
    | some a => BitVec.ofNat 32 a
  let s1 := (s.setReg MEMC_SCRUB_CHECKED (BitVec.ofNat 32 p.checked)).setReg MEMC_SCRUB_CORR (BitVec.ofNat 32 p.corr)
  let s2 := (s1.setReg MEMC_SCRUB_UNC (BitVec.ofNat 32 p.unc)).setReg MEMC_SCRUB_UE_FIRST (bound p.first)
  let s3 := (s2.setReg MEMC_SCRUB_UE_LAST (bound p.last)).setReg MEMC_SCRUB_STAT
    (BitVec.ofNat 32 (b2n part + 2 * b2n s.scrubTiles))
  { (s3.setFld MEMC_EVT MEMC_EVT_scrub_done 1) with scrub := scrubReset }

/-- A write to MEMC_SCRUB_CTRL (R321, R324). -/
def writeScrubCtrl (v : Word) : WriteEff := fun s =>
  let on := s.scrubbing
  let en := MEMC_SCRUB_CTRL_en.get v = 1
  if on && (s.reg MEMC_SCRUB_CTRL &&& 6) != (v &&& 6) then (.slverr, s)
  else if en && !scrubRangeOk (bitOf v.toNat 2) (s.fld MEMC_SCRUB_START MEMC_SCRUB_START_addr)
      (s.fld MEMC_SCRUB_END MEMC_SCRUB_END_addr) then (.slverr, s)
  else
    let s1 := s.plainWrite MEMC_SCRUB_CTRL v
    if en && !on then (.ok, s1.scrubBegin)
    else if on && !en then (.ok, s1.scrubSummary true)
    else (.ok, s1)

/-- SCRUB_ENABLE (R321): a write of 1 to en. -/
def execScrubEnable (m : Mid) (v : Word) (s : State) : Host.Outcome State Fault Refusal :=
  s.run fun s => s.writeReg m.val MEMC_SCRUB_CTRL (v ||| 1) (writeScrubCtrl (v ||| 1))

/-- SCRUB_STOP (R324): a write of 0 to en. -/
def execScrubStop (m : Mid) (v : Word) (s : State) : Host.Outcome State Fault Refusal :=
  s.run fun s => s.writeReg m.val MEMC_SCRUB_CTRL (v &&& ~~~1) (writeScrubCtrl (v &&& ~~~1))

/-- The running pass counts a word. -/
def Scrub.count (p : Scrub) (a : Nat) : EccAns → Scrub
  | .clean => { p with checked := p.checked + 1 }
  | .corrected => { p with checked := p.checked + 1, corr := p.corr + 1 }
  | .bad => ⟨p.checked + 1, p.corr, p.unc + 1, some (p.first.getD a), some a⟩

/-- The check of the word at engine address a: a Mantel word, or a data RAM word of a Hearth (R322). -/
def State.scrubCheck (s : State) (a : Nat) : EccAns × State :=
  if s.scrubTiles then
    let n := (a - 0x01000000) / 0x10000
    let (good, s1) := s.ramCheck n (a % 0x10000)
    if good then (if (s.hearth n).wordErr (a % 0x10000) = 0 then .clean else .corrected, s1)
    else (.bad, s1.logViolation 0x313 a .b32 false .ecc)
  else
    let (r, s1) := s.eccCheck (a / 8) 0x313 false
    (r, if r = .bad then s1.logViolation 0x313 a .b64 false .ecc else s1)

/-- The word after the one at a, if the pass has one. -/
def State.scrubNext (s : State) (a : Nat) : Option Nat :=
  let e := s.fld MEMC_SCRUB_END MEMC_SCRUB_END_addr
  if s.scrubTiles then
    if a % 0x10000 + 4 < 0x8000 then some (a + 4)
    else if (a - 0x01000000) / 0x10000 < e then some (a / 0x10000 * 0x10000 + 0x10000)
    else none
  else if a + 8 < e then some (a + 8) else none

/-- The engine is in RUN. -/
def State.inRun (s : State) : Bool := s.fld SYS_PWR_STAT SYS_PWR_STAT_state = 0

/-- SCRUB_WORD (R322, R323): the scrubber issues its next word, in RUN only (R325). -/
def execScrubWord (s : State) : Host.Outcome State Fault Refusal :=
  s.runXo fun s =>
    if s.scrubbing && s.inRun && s.ramOpen then
      let a := (s.reg MEMC_SCRUB_POS).toNat
      let (r, s1) := s.scrubCheck a
      let s2 := { s1 with scrub := s1.scrub.count a r }
      match s2.scrubNext a with
      | some b => s2.setReg MEMC_SCRUB_POS (BitVec.ofNat 32 b)
      | none =>
        let s3 := (s2.scrubSummary false).bump MEMC_SCRUB_PASSES whole
        if s3.bit MEMC_SCRUB_CTRL MEMC_SCRUB_CTRL_mode then s3.scrubBegin else s3.setFld MEMC_SCRUB_CTRL MEMC_SCRUB_CTRL_en 0
    else s

/-! ### The clear on wake (R326, R327) -/

/-- The RAMs of a Hearth zeroed, with valid check bits. -/
def Hearth.cleared (h : Hearth) : Hearth := { h with ram := [], ramErr := [], prog := [], progBad := [], slots := [] }

/-! ### Registers -/

/-- A write to a register of the MEMC. -/
def memcWrite (a : Nat) (v : Word) : WriteEff :=
  if a = MEMC_SCRUB_CTRL then writeScrubCtrl v
  else if a = MEMC_INJ_CTRL then writeInjCtrl v
  else if a = MEMC_SCRUB_START ∨ a = MEMC_SCRUB_END then
    fun s => if s.scrubbing then (.slverr, s) else (.ok, s.plainWrite a v)
  else if a = MEMC_INJ_ADDR then
    fun s => if s.bit MEMC_INJ_CTRL MEMC_INJ_CTRL_arm then (.slverr, s) else (.ok, s.plainWrite a v)
  else accept fun s => s.plainWrite a v

end Sys2Proof.Machine
end

