-- ==== Sys2Proof/Machine/PortLine.lean ====
section
/-! DEFINITION. What a digital audio transmitter sends: subframes, MADI line coding, and a converter's fade (05 R152, R153,
R163). -/

namespace Sys2Proof.Machine

/-! ### Subframes (R152, R155) -/

/-- Some bit of the `n` lowest bits is odd in number: the bit that makes parity even. -/
def parityOf (n v : Nat) : Nat := (List.range n).foldl (fun p i => (p + b2n (bitOf v i)) % 2) 0

/-- The 28 bits of a subframe after its first four, first bit lowest: audio field, validity, user bit, channel-status bit, and
even parity over them (AES3-2009, AES10). PRESUMED, log entry 20. -/
def subframeBits (audio : Nat) (v u c : Bool) : Nat :=
  let body := audio % 2 ^ 24 + b2n v * 2 ^ 24 + b2n u * 2 ^ 25 + b2n c * 2 ^ 26
  body + parityOf 27 body * 2 ^ 27

/-- The first four bits of a MADI subframe: frame sync, channel active, subframe B, block start (AES10). PRESUMED, log
entry 20. -/
def madiMode (chan : Nat) (z : Bool) : Nat := b2n (chan = 0) + 2 + chan % 2 * 4 + b2n z * 8

/-- The preamble of an AES3 subframe: 0 = X, 1 = Y, 2 = Z. -/
def aesPreamble (chan : Nat) (z : Bool) : Nat := if chan != 0 then 1 else if z then 2 else 0

/-! ### MADI line coding (R153) -/

/-- The 4B5B code of four bits, first bit on top (AES10). PRESUMED, log entry 20. -/
def lineCode (nibble : Nat) : Nat :=
  [0b11110, 0b01001, 0b10100, 0b10101, 0b01010, 0b01011, 0b01110, 0b01111,
    0b10010, 0b10011, 0b10110, 0b10111, 0b11010, 0b11011, 0b11100, 0b11101].getD nibble 0

/-- The 40 code bits of a 32-bit subframe in the order sent: its bits go out from the lowest, four to a code. -/
def codeBits (sub : Nat) : List Bool :=
  (List.range 8).flatMap fun n =>
    let d := sub / 2 ^ (4 * n)
    let code := lineCode (b2n (bitOf d 0) * 8 + b2n (bitOf d 1) * 4 + b2n (bitOf d 2) * 2 + b2n (bitOf d 3))
    (List.range 5).map fun i => bitOf code (4 - i)

/-- NRZI: a 1 changes the level of the line, a 0 keeps it. -/
def nrzi (level : Bool) : List Bool → List Bool
  | [] => []
  | b :: rest => (level != b) :: nrzi (level != b) rest

/-- The code bits of a sync symbol (AES10). It has an even number of ones, so it leaves the line at its level.
PRESUMED, log entry 20. -/
def syncBits : List Bool := [true, true, false, false, false, true, false, false, false, true]

/-- The 40 line levels of a channel after the level that the line had. -/
def madiLine (before : List Bool) (sub : Nat) : List Bool := nrzi (before.getLastD false) (codeBits sub)

/-! ### The raised-cosine fade (R163) -/

/-- cos(π/1024) in units of 2^−80. -/
abbrev fadeCos : Int := 1208920130179513785331761

/-- cos(πn/1024) and the value after it, in units of 2^−80. -/
def fadeAt : Nat → Int × Int
  | 0 => (2 ^ 80, fadeCos)
  | n + 1 =>
    let (a, b) := fadeAt n
    (b, 2 * fadeCos * b / 2 ^ 80 - a)

/-- A word under the fade, n output samples after the lock: times (1 − cos(πn/1024)) / 2, and whole from sample 1,024. -/
def faded (n : Nat) (w : Word) : Word :=
  if 1024 ≤ n then w else BitVec.ofInt 32 (w.toInt * (2 ^ 80 - (fadeAt n).1) / 2 ^ 81)

end Sys2Proof.Machine
end

