-- ==== Sys2Proof/Machine/Ports.lean ====
section
/-! DEFINITION. Serial, AES3 and MADI ports with rate conversion and port DMA (05; 01 R17 to R30). -/

namespace Sys2Proof.Machine

/-! ### Ports and their registers -/

/-- The key of a port: below 32 it is its edge station. -/
def portKey : PortId → Nat
  | .sap p => p.val
  | .aesRx i => 16 + i.val
  | .madiRx m => 24 + m.val
  | .aesTx i => 32 + i.val
  | .madiTx m => 40 + m.val

/-- The edge station of a port. -/
def portStation (k : Nat) : Nat := if k < 32 then k else k - 16

/-- By kind of port: SAP, AES3 receiver, MADI receiver, AES3 transmitter, MADI transmitter. -/
def byPort {α : Type} (k : Nat) (sap rx madi tx madiT : Nat → α) : α :=
  if k < 16 then sap k else if k < 24 then rx (k - 16) else if k < 32 then madi (k - 24)
  else if k < 40 then tx (k - 32) else madiT (k - 40)

def portCtrl (k : Nat) : Nat :=
  byPort k (fun p => SAP_CTRL p) (fun i => AES_RX_CTRL i) (fun m => MADI_CTRL m) (fun i => AES_TX_CTRL i)
    (fun m => MADI_CTRL m)

def portStat (k : Nat) : Nat :=
  byPort k (fun p => SAP_STAT p) (fun i => AES_RX_STAT i) (fun m => MADI_STAT m) (fun i => AES_TX_STAT i)
    (fun m => MADI_STAT m)

def portSlips (k : Nat) : Nat :=
  byPort k (fun p => SAP_SLIPS p) (fun i => AES_RX_SLIPS i) (fun m => MADI_SLIPS m) (fun i => AES_RX_SLIPS i)
    (fun m => MADI_SLIPS m)

def portMeas (k : Nat) : Nat :=
  byPort k (fun p => SAP_MEAS p) (fun i => AES_RX_MEAS i) (fun m => MADI_MEAS m) (fun i => AES_RX_MEAS i)
    (fun m => MADI_MEAS m)

def portFill (k : Nat) : Nat :=
  byPort k (fun p => SAP_FILL p) (fun i => AES_RX_FILL i) (fun m => MADI_FILL m) (fun i => AES_RX_FILL i)
    (fun m => MADI_FILL m)

/-- The first DMA register of a direction; _CFG and _POS follow at 4 and 8. -/
def portDma (k : Nat) (out : Bool) : Nat :=
  byPort k (fun p => if out then SAP_DOUT_BASE p else SAP_DIN_BASE p) (fun i => AES_RX_DIN_BASE i)
    (fun m => MADI_DIN_BASE m) (fun i => AES_TX_DOUT_BASE i) (fun m => MADI_DOUT_BASE m)

/-! Fields that the ports share (Table: SAP_CTRL; Table: Status, counts and DMA). -/

abbrev pEn : Fld := ⟨0, 0⟩
abbrev pMode : Fld := ⟨3, 2⟩
abbrev pSubst : Fld := ⟨6, 6⟩
abbrev pRate : Fld := ⟨10, 8⟩
abbrev pDepth : Fld := ⟨21, 16⟩
abbrev pTagOffset : Fld := ⟨31, 24⟩
abbrev stRunning : Fld := ⟨0, 0⟩
abbrev stWaiting : Fld := ⟨1, 1⟩
abbrev stMismatch : Fld := ⟨2, 2⟩
abbrev stSlip : Fld := ⟨3, 3⟩
abbrev stLock : Fld := ⟨4, 4⟩
abbrev stCsNew : Fld := ⟨5, 5⟩
abbrev stCrcErr : Fld := ⟨6, 6⟩
abbrev stPhase : Fld := ⟨23, 16⟩
abbrev slipRepeats : Fld := ⟨15, 0⟩
abbrev slipDrops : Fld := ⟨31, 16⟩
abbrev errParity : Fld := ⟨15, 0⟩
abbrev errLine : Fld := ⟨31, 16⟩
abbrev dmaEn : Fld := ⟨0, 0⟩
abbrev dmaFrames : Fld := ⟨4, 1⟩
abbrev dmaChans : Fld := ⟨11, 5⟩
abbrev dmaLead : Fld := ⟨15, 12⟩
abbrev dmaIrq : Fld := ⟨19, 16⟩

/-- Rate mode: 0 LOCKED, 1 CONVERTED, 2 STEERING. -/
def State.portMode (s : State) (k : Nat) : Nat :=
  if 40 ≤ k then s.fld (portCtrl k) MADI_CTRL_tx_rate_mode else s.fld (portCtrl k) pMode

/-- The port is enabled; a MADI transmitter needs tx_en too. -/
def State.portEn (s : State) (k : Nat) : Bool :=
  s.bit (portCtrl k) pEn && (decide (k < 40) || s.bit (portCtrl k) MADI_CTRL_tx_en)

def State.portRuns (s : State) (k : Nat) : Bool :=
  if k < 32 then s.bit (portStat k) stRunning else s.portEn k

/-- A serial audio port in turnaround. -/
def State.turnOf (s : State) (k : Nat) : Bool := decide (k < 16) && s.bit (SAP_CTRL k) SAP_CTRL_turn_en

/-- Channels of a MADI frame in its mode (R153). -/
def State.madiChans (s : State) (m : Nat) : Nat :=
  (if s.bit (MADI_CTRL m) MADI_CTRL_ch56 then 56 else 64) / (if s.bit (MADI_CTRL m) MADI_CTRL_f96 then 2 else 1)

/-- Slots or channels of a port's frame. -/
def State.portSlots (s : State) (k : Nat) : Nat :=
  byPort k (fun p => if s.fld (SAP_FMT p) SAP_FMT_fmt = 2 then s.fld (SAP_FMT p) SAP_FMT_slots + 1 else 2) (fun _ => 2)
    (fun m => s.madiChans m) (fun _ => 2) (fun m => s.madiChans m)

def zeroName (_ : Nat) : Nat := 0
def noWord (_ : Nat) : Option Word := none
def noSub (_ : Nat) : TxSub := ⟨0, 0⟩

/-- A port after reset: no substitute but 0 has been sent (R28). -/
def portReset : Port :=
  { named := false, cur := 0, prev := 0, seq := 0, dropped := false, repeated := false, ending := false, imap := [],
    omap := [], omapNext := none, words := [], dmaIn := [], fifo := [], steerLast := ⟨[], []⟩, substZero := false, tagOffs := 0,
    hold := [], last := [], wire := [], loaded := [], outName := none, dmaOut := [], badPre := 0, viol := 0, block := none,
    csA := 0, csB := 0, uA := 0, uB := 0, chans := 0, txFrame := 0, commit := false, txCs := 0, subs := [], sent := 64,
    line := [], inFrames := 0, outFrames := 0, fadeIn := 0, fadeOut := 0, ratioIn := 0, ratioOut := 0 }

def portDefault (_ : Nat) : Port := portReset

def State.port (s : State) (k : Nat) : Port := tabGet portDefault s.ports k

def State.setPort (s : State) (k : Nat) (p : Port) : State := { s with ports := tabSet portDefault s.ports k p }

def State.modPort (s : State) (k : Nat) (f : Port → Port) : State := s.setPort k (f (s.port k))

/-! ### Map entries (R144, Table: Map, tag and ownership fields) -/

/-- A map entry: where the slot goes or comes from (bit 0 Flue, bit 1 DMA), channel tag, DMA channel, owner. -/
structure MapEnt where
  dest : Nat
  tag : Nat
  dch : Nat
  owner : Nat
deriving DecidableEq, Repr

def mapEnt (w : Word) : MapEnt :=
  ⟨SAP_OMAP_src.get w, SAP_OMAP_tag.get w, SAP_OMAP_dch.get w, SAP_OMAP_owner.get w⟩

/-- The input entry of slot j by an input map. -/
def State.inEntBy (s : State) (imap : Tab Word) (k j : Nat) : MapEnt :=
  byPort k (fun _ => mapEnt (tabGet zeroWord imap j))
    (fun i => ⟨s.fld (AES_RX_TAGS i) AES_RX_TAGS_dest,
      if j = 0 then s.fld (AES_RX_TAGS i) AES_RX_TAGS_tag_a else s.fld (AES_RX_TAGS i) AES_RX_TAGS_tag_b, j, 0xFF⟩)
    (fun m => ⟨s.fld (MADI_TAGS m) MADI_TAGS_rx_dest, (s.fld (MADI_TAGS m) MADI_TAGS_rx_tag_base + j) % 4096, j, 0xFF⟩)
    (fun _ => ⟨0, 0, 0, 0xFF⟩) (fun _ => ⟨0, 0, 0, 0xFF⟩)

/-- The input entry of slot j by the map in force. -/
def State.inEnt (s : State) (k j : Nat) : MapEnt := s.inEntBy (s.port k).imap k j

/-- The output entry of slot j by the map in force. -/
def State.outEnt (s : State) (k j : Nat) : MapEnt :=
  byPort k (fun _ => mapEnt (tabGet zeroWord (s.port k).omap j)) (fun _ => ⟨0, 0, 0, 0xFF⟩) (fun _ => ⟨0, 0, 0, 0xFF⟩)
    (fun i => ⟨s.fld (AES_TX_TAGS i) AES_TX_TAGS_src,
      if j = 0 then s.fld (AES_TX_TAGS i) AES_TX_TAGS_tag_a else s.fld (AES_TX_TAGS i) AES_TX_TAGS_tag_b, j,
      s.fld (AES_TX_OWN i) AES_TX_OWN_owner⟩)
    (fun m => ⟨s.fld (MADI_TAGS m) MADI_TAGS_tx_src, (s.fld (MADI_TAGS m) MADI_TAGS_tx_tag_base + j) % 4096, j,
      s.fld (MADI_OWN m) MADI_OWN_owner⟩)

/-- The map registers of a serial audio port as a table. -/
def State.mapRegs (s : State) (out : Bool) (p : Nat) : Tab Word :=
  (List.range 32).foldl (fun t j => tabSet zeroWord t j (s.reg (if out then SAP_OMAP p j else SAP_IMAP p j))) []

/-! ### Rate converters (R160, R162, R163) -/

/-- ASRC channel i is tied to a channel of a port direction. -/
def State.asrcTied (s : State) (k : Nat) (out : Bool) (chan : Nat → Bool) (i : Nat) : Bool :=
  let a := ASRC_ALLOC i
  let kind := byPort k (fun _ => 0) (fun _ => 1) (fun _ => 2) (fun _ => 1) (fun _ => 2)
  let port := byPort k id id id id id
  s.bit a ASRC_ALLOC_en && s.bit a ASRC_ALLOC_dir = out && s.fld a ASRC_ALLOC_kind = kind &&
    s.fld a ASRC_ALLOC_port = port && chan (s.fld a ASRC_ALLOC_chan)

/-- The converter of a channel of a port direction. -/
def State.asrcOf (s : State) (k : Nat) (out : Bool) (j : Nat) : Option Nat :=
  (List.range 128).find? fun i => s.asrcTied k out (fun c => c = j) i

/-- Every channel that a map sends or takes has a converter (R160). For a port that starts, the maps are the registers. -/
def State.asrcReady (s : State) (k : Nat) (out : Bool) : Bool :=
  (List.range (s.portSlots k)).all fun j =>
    let e := if k < 16 then mapEnt (s.reg (if out then SAP_OMAP k j else SAP_IMAP k j))
      else if out then s.outEnt k j else s.inEnt k j
    e.dest = 0 || (s.asrcOf k out j).isSome

def State.asrcLocked (s : State) (i : Nat) : Bool := bitOf (s.reg (ASRC_LOCK (i / 32))).toNat (i % 32)

def State.setAsrcLock (s : State) (i : Nat) (b : Bool) : State :=
  let a := ASRC_LOCK (i / 32)
  let m := BitVec.ofNat 32 (2 ^ (i % 32))
  s.setReg a (if b then s.reg a ||| m else s.reg a &&& ~~~m)

/-- Output samples of a direction's converters since their tracker locked. -/
def Port.fade (p : Port) (out : Bool) : Nat := if out then p.fadeOut else p.fadeIn

/-- A converter's word: 0 until its tracker is locked, then under the fade (R163). The conversion's words are not stated: they
are free. DESIGN CHOICE, log entry 61. -/
def State.asrcWord (s : State) (k : Nat) (out : Bool) (j : Nat) : Word × State :=
  match s.asrcOf k out j with
  | none => (0, s)
  | some i => if s.asrcLocked i then (faded ((s.port k).fade out) (s.fresh.1.truncate 32), s.fresh.2) else (0, s)

/-- The converters of a direction have put out one more sample. -/
def State.fadeOn (s : State) (k : Nat) (out : Bool) : State :=
  s.modPort k fun p => if out then { p with fadeOut := min (p.fadeOut + 1) 1024 } else { p with fadeIn := min (p.fadeIn + 1) 1024 }

/-- The port has its input: a receiver only while it is locked (R150, R165). -/
def State.portLive (s : State) (k : Nat) : Bool :=
  s.portRuns k && !(decide (16 ≤ k) && decide (k < 32) && !s.bit (portStat k) stLock)

/-- The direction of a port that a command names: a serial audio port has both. -/
def portOut (p : PortId) (out : Bool) : Bool :=
  match p with
  | .sap _ => out
  | .aesRx _ => false
  | .madiRx _ => false
  | .aesTx _ => true
  | .madiTx _ => true

/-- ASRC_LOCK (R163): the tracker of a port direction locks with a ratio in 4.28 format, inside 0.2 to 5.0. -/
def execAsrcLock (p : PortId) (out : Bool) (ratio : Word) (s : State) : Host.Outcome State Fault Refusal :=
  s.run fun s =>
    let k := portKey p
    let out := portOut p out
    if s.portLive k && decide (2 ^ 28 ≤ 5 * ratio.toNat ∧ ratio.toNat ≤ 5 * 2 ^ 28) then
      let s1 := (List.range 128).foldl (fun t i =>
        if s.asrcTied k out (fun _ => true) i then (t.setAsrcLock i true).setReg (ASRC_RATIO i) ratio else t) s
      s1.modPort k fun p =>
        if out then { p with fadeOut := 0, ratioOut := ratio } else { p with fadeIn := 0, ratioIn := ratio }
    else s

/-- The tracker of a port direction loses its lock, and its converters put out 0 at once (R163). -/
def State.asrcDrop (s : State) (k : Nat) (out : Bool) : State :=
  let mine := (List.range 128).filter fun i => s.asrcTied k out (fun _ => true) i && s.asrcLocked i
  if mine = [] then s
  else (mine.foldl (fun t i => t.setAsrcLock i false) s).setFld ASRC_STAT ⟨0, 0⟩ 1

/-- ASRC_LOCK_LOSS (R163): the tracker of a port direction lost its input or its ratio. -/
def execAsrcLockLoss (p : PortId) (out : Bool) (s : State) : Host.Outcome State Fault Refusal :=
  s.run fun s => s.asrcDrop (portKey p) (portOut p out)

/-- The port key and direction that an ASRC_ALLOC word names; none for a port or kind that does not exist. -/
def allocPort (w : Word) : Option (Nat × Bool) :=
  let p := ASRC_ALLOC_port.get w
  let out := ASRC_ALLOC_dir.get w = 1
  match ASRC_ALLOC_kind.get w with
  | 0 => some (p, out)
  | 1 => if p < 8 then some (if out then 32 + p else 16 + p, out) else none
  | 2 => if p < 2 then some (if out then 40 + p else 24 + p, out) else none
  | _ => none

/-- The port that an enabled entry names is enabled, or still runs until its stop (R162). -/
def State.allocBusy (s : State) (w : Word) : Bool :=
  ASRC_ALLOC_en.get w = 1 && match allocPort w with
    | none => false
    | some (k, _) => s.portEn k || s.bit (portCtrl k) pEn || s.portRuns k

/-- A write to ASRC_ALLOC(i) (R162): refused while the port that the entry named or would name runs, for a second entry on
one channel and direction, and for a kind that does not exist. The channel shows the ratio of its new tracker, which is
not locked. -/
def writeAsrcAlloc (i : Nat) (v : Word) : WriteEff := fun s =>
  let old := s.reg (ASRC_ALLOC i)
  let key := v &&& 0x3FFE
  let dup := ASRC_ALLOC_en.get v = 1 && (List.range 128).any fun n =>
    n != i && s.bit (ASRC_ALLOC n) ASRC_ALLOC_en && (s.reg (ASRC_ALLOC n) &&& 0x3FFE) = key
  if dup || s.allocBusy old || s.allocBusy v || ASRC_ALLOC_kind.get v = 3 then (.slverr, s)
  else
    let ratio := match allocPort v with
      | some (k, out) => if ASRC_ALLOC_en.get v = 1 then (if out then (s.port k).ratioOut else (s.port k).ratioIn) else 0
      | none => 0
    (.ok, ((s.plainWrite (ASRC_ALLOC i) v).setAsrcLock i false).setReg (ASRC_RATIO i) ratio)

/-- ASRC_ALLOC_WRITE (R162). -/
def execAsrcAllocWrite (m : Mid) (i : Fin 128) (v : Word) (s : State) : Host.Outcome State Fault Refusal :=
  s.run fun s => s.writeReg m.val (ASRC_ALLOC i.val) v (writeAsrcAlloc i.val v)

/-! ### Tokens and DMA frames of an input (R17, R20, R144, R165) -/

/-- An input station forms an AUDIO token, unless it already holds four for the port (R20). -/
def State.formToken (s : State) (st name tag : Nat) (w : Word) : State :=
  if 4 ≤ ((s.outboxOf st).filter fun t => t.kind = .audio).length then s.stationCount st .overrun
  else s.stationSend st ⟨.audio, name % 256, tag, w⟩

/-- A word of frame `name` for slot j goes to the Flue if its entry of the map says so. -/
def State.emitBy (s : State) (imap : Tab Word) (k name j : Nat) (w : Word) : State :=
  let e := s.inEntBy imap k j
  if e.dest % 2 = 1 then s.formToken (portStation k) name e.tag w else s

/-- The same by the map in force. -/
def State.emitWord (s : State) (k name j : Nat) (w : Word) : State := s.emitBy (s.port k).imap k name j w

/-- The DMA channels of a frame, from its words: channel c takes the slot whose entry names it. -/
def State.dmaFrame (s : State) (imap : Tab Word) (k : Nat) (words : Tab Word) : List Word :=
  (List.range (s.fld (portDma k false + 4) dmaChans)).map fun c =>
    match (List.range (s.portSlots k)).find? fun j => (s.inEntBy imap k j).dest ≥ 2 && (s.inEntBy imap k j).dch = c with
    | none => 0
    | some j => tabGet zeroWord words j

/-- Frame `name` is whole and waits for port DMA. -/
def State.queueDma (s : State) (imap : Tab Word) (k name : Nat) (words : Tab Word) : State :=
  if s.bit (portDma k false + 4) dmaEn && s.portLive k then
    let f := s.dmaFrame imap k words
    s.modPort k fun p => { p with dmaIn := p.dmaIn ++ [(name, f)] }
  else s

/-- A slip is counted and reported (R158, R161). -/
def State.countSlip (s : State) (k : Nat) (rep : Bool) : State :=
  ((s.setFld (portStat k) stSlip 1).setFld (portStat k) stMismatch 1).bump (portSlips k)
    (if rep then slipRepeats else slipDrops)

/-- FILL in 1/256 frame, of a port that has it. -/
def State.showFill (s : State) (k : Nat) : State :=
  if k < 32 then s.setReg (portFill k) (BitVec.ofNat 32 (256 * (s.port k).fifo.length)) else s

/-- A whole frame in STEERING enters the elastic buffer with its input map, or is dropped when it is full (R145, R161). -/
def State.steerPush (s : State) (k : Nat) : State :=
  let p := s.port k
  if s.fld (portCtrl k) pDepth ≤ p.fifo.length then s.countSlip k false
  else
    let f := (List.range (s.portSlots k)).map fun j => tabGet zeroWord p.words j
    (s.modPort k fun p => { p with fifo := p.fifo ++ [⟨p.imap, f⟩] }).showFill k

/-- The word of slot j of this frame is captured. In LOCKED mode it forms its token at once; a repeat first forms one for
the frame name that it skips, with the word of the frame before (R157). -/
def State.takeWord (s : State) (k j : Nat) (w : Word) : State :=
  let p := s.port k
  if p.dropped then s
  else
    let old := tabGet zeroWord p.words j
    let s1 := s.modPort k fun p => { p with words := tabSet zeroWord p.words j w }
    let last := j + 1 = s.portSlots k
    match s.portMode k with
    | 0 =>
      let s2 := if p.repeated then s1.emitWord k (p.cur + 2 ^ 48 - 1) j old else s1
      let s3 := s2.emitWord k p.cur j w
      if last then s3.queueDma p.imap k p.cur (s3.port k).words else s3
    | 2 => if last then s1.steerPush k else s1
    | _ => s1

/-- The bits of a slot kept as its word, from the top (R141). -/
def wordBits : Nat → Nat
  | 0 => 16
  | 1 => 20
  | 2 => 24
  | _ => 32

def keepTop (n : Nat) (w : Word) : Word := BitVec.ofNat 32 (w.toNat / 2 ^ (32 - n) * 2 ^ (32 - n))

/-- INPUT_SLOT_END (R17, R141): the last bit of slot j of SAPp is captured; w is the slot's bits, first bit on top. -/
def execInputSlotEnd (p : Fin 16) (j : Fin 32) (w : Word) (s : State) : Host.Outcome State Fault Refusal :=
  s.runLit fun s =>
    if s.portRuns p.val && decide (j.val < s.portSlots p.val) then
      s.takeWord p.val j.val (keepTop (wordBits (s.fld (SAP_FMT p.val) SAP_FMT_word_bits)) w)
    else s

/-- ASRC_EMIT (R160): the input converters of a port emit internal sample k, the present count. Without lock their words are
0, and port DMA takes no frame (R165). DEDUCED, log entry 167. -/
def execAsrcEmit (p : PortId) (s : State) : Host.Outcome State Fault Refusal :=
  s.runLit fun s =>
    let k := portKey p
    if s.portRuns k && s.portMode k = 1 && decide (k < 32) then
      let step (acc : State × Tab Word) (j : Nat) : State × Tab Word :=
        if (acc.1.inEnt k j).dest = 0 then acc
        else
          let (w, s1) := acc.1.asrcWord k false j
          (s1.emitWord k s.rallyCount j w, tabSet zeroWord acc.2 j w)
      let (s1, words) := (List.range (s.portSlots k)).foldl step (s, [])
      (s1.queueDma (s.port k).imap k s.rallyCount words).fadeOn k false
    else s

/-- A frame is read out for the present count by its own map: its tokens, its DMA frame, and the frame that an empty buffer
repeats. DEDUCED, log entry 64. -/
def State.steerOut (s : State) (k : Nat) (f : BufFrame) : State :=
  let words := (List.range f.words.length).foldl (fun t j => tabSet zeroWord t j (f.words.getD j 0)) []
  let s1 := (List.range f.words.length).foldl (fun t j => t.emitBy f.imap k s.rallyCount j (f.words.getD j 0)) s
  (s1.queueDma f.imap k s.rallyCount words).modPort k fun p => { p with steerLast := f }

/-- STEERING_READOUT (R161): frame k is read out of the elastic buffer; an empty buffer repeats the previous words. A receiver
without lock reads nothing out (R150). -/
def execSteeringReadout (p : PortId) (s : State) : Host.Outcome State Fault Refusal :=
  s.runLit fun s =>
    let k := portKey p
    if s.portLive k && s.portMode k = 2 && decide (k < 32) then
      match (s.port k).fifo with
      | f :: rest => (((s.modPort k fun p => { p with fifo := rest })).steerOut k f).showFill k
      | [] => (s.steerOut k (s.port k).steerLast).countSlip k true
    else s

/-! ### Frames (R139, R143, R145 to R147, R157 to R159) -/

/-- Output maps, substitute and tag offset as a port starts. DEDUCED, log entry 68. -/
def State.portBegin (s : State) (k : Nat) : State :=
  let old := s.port k
  let p := { portReset with
    last := old.last, wire := old.wire, txCs := old.txCs, commit := old.commit, subs := old.subs, line := old.line,
    ratioIn := old.ratioIn, ratioOut := old.ratioOut,
    omap := if k < 16 then s.mapRegs true k else [], imap := if k < 16 then s.mapRegs false k else [],
    substZero := s.bit (portCtrl k) pSubst, tagOffs := s.fld (portCtrl k) pTagOffset }
  (s.setPort k p).showFill k

/-- The input of a port ends: frames that wait for port DMA or for the read-out go, and its trackers lose their input (R163,
R165). -/
def State.portQuiet (s : State) (k : Nat) : State :=
  let s0 := if k < 32 then s.asrcDrop k false else s
  let s1 := if 16 ≤ k && k < 32 then s0 else s0.asrcDrop k true
  (s1.modPort k fun p => { p with named := false, fifo := [], dmaIn := [], dropped := false, repeated := false }).showFill k

/-- The port stops at this frame start (R147): output frames that have started end with their load points. -/
def State.portStop (s : State) (k : Nat) : State :=
  let s1 := (s.portQuiet k).modPort k fun p => { p with ending := true }
  (s1.setFld (portStat k) stRunning 0).setFld (portStat k) stWaiting 0

/-- The port takes its frames from the media clock: a master SAP or a transmitter, in LOCKED mode (R158). -/
def State.mediaPaced (s : State) (k : Nat) : Bool :=
  32 ≤ k || (decide (k < 16) && s.bit (SAP_CTRL k) SAP_CTRL_master)

/-- A transmitter's tx_phase, in 1/256 Ts (R151, R156). -/
def State.txPhase (s : State) (k : Nat) : Nat :=
  if k < 40 then s.fld (AES_TX_CTRL (k - 32)) AES_TX_CTRL_tx_phase else s.fld (MADI_TX_PHASE (k - 40)) MADI_TX_PHASE_tx_phase

/-- The frame's name and phase in 1/65536 Ts, and whether it is dropped or repeats (R143, R151, R157, R159). `frac` is the
elapsed fraction of the Ts at the frame start; a port in LOCKED mode that is paced by the media clock starts its frames at its
own phase. On a slip boundary the arbiter's choice is free. DEDUCED, log entry 58. DESIGN CHOICE, log entry 59. -/
def State.nameFrame (s : State) (k frac : Nat) : (Nat × Int × Bool × Bool) × State :=
  let p := s.port k
  let near : Nat × Int := if frac < 32768 then (s.rallyCount, (frac : Int)) else ((s.rallyCount + 1) % 2 ^ 48, (frac : Int) - 65536)
  if s.portMode k ≠ 0 then ((near.1, near.2, false, false), s)
  else if s.mediaPaced k then ((s.rallyCount, if k < 32 then 0 else 256 * (s.txPhase k : Int), false, false), s)
  else if !p.named then ((near.1, near.2, false, false), s)
  else
    let e := (p.cur + 1) % 2 ^ 48
    let ph : Int := 65536 * signed 48 (s.rallyCount + 2 ^ 48 - e) + frac
    let edge := decide (ph = -49152) || decide (ph = 49152)
    let pick := edge && bitOf s.fresh.1.toNat 0
    let s1 := if edge then s.fresh.2 else s
    if ph < -49152 ∨ (ph = -49152 ∧ pick) then ((p.cur, ph + 65536, true, false), s1)
    else if 49152 < ph ∨ (ph = 49152 ∧ pick) then (((p.cur + 2) % 2 ^ 48, ph - 65536, false, true), s1)
    else ((e, ph, false, false), s1)

/-- The CRCC of a channel-status block: x^8 + x^4 + x^3 + x^2 + 1 over bytes 0 to 22, lowest bit first, from all ones
(AES3-2009). PRESUMED, log entry 20. -/
def crccStep (crc : Nat) (b : Bool) : Nat :=
  if (crc % 2 = 1) != b then crc / 2 ^^^ 0xB8 else crc / 2

def crcc (block : Nat) : Nat := (List.range 184).foldl (fun c i => crccStep c (bitOf block i)) 0xFF

/-- A block with its byte 23 replaced. -/
def withCrcc (block : Nat) : Nat := block % 2 ^ 184 + crcc block * 2 ^ 184

/-- Six register words as a block. -/
def State.blockRegs (s : State) (addr : Nat → Nat) : Nat :=
  (List.range 6).foldl (fun acc w => acc + (s.reg (addr w)).toNat * 2 ^ (32 * w)) 0

/-- Stores a block in six register words. -/
def State.setBlock (s : State) (addr : Nat → Nat) (v : Nat) : State :=
  (List.range 6).foldl (fun t w => t.setReg (addr w) (BitVec.ofNat 32 (v / 2 ^ (32 * w)))) s

/-- A transmitter's frame within its channel-status block: at a Z preamble a committed block is taken (R152). -/
def State.txBlock (s : State) (k : Nat) : State :=
  let p := s.port k
  let take := p.txFrame = 0 && p.commit
  let regs := byPort k (fun _ => 0) (fun _ => 0) (fun _ => 0) (fun i => s.blockRegs fun w => AES_TX_CS i w)
    (fun m => s.blockRegs fun w => MADI_TX_CS m w)
  let b := if take then regs else p.txCs
  let s1 := s.modPort k fun p => { p with
    txFrame := (p.txFrame + 1) % 192, commit := p.commit && !take, txCs := b }
  if take then
    if k < 40 then s1.setFld (AES_TX_CTRL (k - 32)) AES_TX_CTRL_cs_commit 0
    else s1.setFld (MADI_CTRL (k - 40)) MADI_CTRL_cs_commit 0
  else s1

/-- The block that a transmitter's subframes carry: with crc_gen its byte 23 is the CRCC (R152). -/
def State.sentBlock (s : State) (k : Nat) : Nat :=
  if 32 ≤ k && k < 40 && s.bit (AES_TX_CTRL (k - 32)) AES_TX_CTRL_crc_gen then withCrcc (s.port k).txCs else (s.port k).txCs

/-- Slot j of a transmitter sends its subframe (R152, R153, R155): the word on its wire, validity v, user bit 0, the bit of the
block for this frame, and parity; on MADI the line code too. -/
def State.sendSub (s : State) (k j : Nat) : State :=
  let p := s.port k
  let at_ := (p.txFrame + 191) % 192
  let v := k < 40 && s.bit (AES_TX_CTRL (k - 32)) AES_TX_CTRL_v
  let body := subframeBits ((tabGet zeroWord p.wire j).toNat / 256) v false (bitOf (s.sentBlock k) at_)
  let head := if k < 40 then aesPreamble j (at_ = 0) else madiMode j (at_ = 0)
  s.modPort k fun p => { p with
    subs := tabSet noSub p.subs j ⟨head, body⟩,
    line := if k < 40 then p.line else madiLine p.line (head + 16 * body) }

/-- The bits of a word that an output sends (R141). -/
def State.sentWord (s : State) (k : Nat) (w : Word) : Word :=
  if k < 16 then keepTop (wordBits (s.fld (SAP_FMT k) SAP_FMT_word_bits)) w else keepTop 24 w

/-- The output converters of a port put out the words of the frame that starts (R141, R160). -/
def State.convertOut (s : State) (k : Nat) : State :=
  let one (t : State) (j : Nat) : State :=
    if (t.outEnt k j).dest = 0 then t.modPort k fun p => { p with wire := tabSet zeroWord p.wire j 0 }
    else
      let (w, t1) := t.asrcWord k true j
      t1.modPort k fun p => { p with wire := tabSet zeroWord p.wire j (t1.sentWord k w) }
  ((List.range (s.portSlots k)).foldl one s).fadeOn k true

/-- A transmitter's frame starts: its block, its converters' words, and the subframes whose words it has by now. -/
def State.txStart (s : State) (k : Nat) : State :=
  let s1 := s.txBlock k
  if s1.portMode k = 1 then
    let s2 := s1.convertOut k
    (List.range (min (s2.portSlots k) (s2.port k).sent)).foldl (fun t j => t.sendSub k j) s2
  else s1.sendSub k 0

/-- A frame starts (R145, R146, R157, R158): `meas` is the measured 1 s rate offset in 0.01 ppm. Without turnaround the output
frame coincides, and FSO repeats FSI (R139). DEDUCED, log entry 60. DEDUCED, log entry 67. -/
def State.frameStart (s : State) (k frac : Nat) (meas : Word) : State :=
  let ((name, ph, drop, rep), s0) := s.nameFrame k frac
  let p0 := s0.port k
  let s1 := if rep then s0.queueDma p0.imap k ((p0.cur + 1) % 2 ^ 48) p0.words else s0
  let s2 := s1.modPort k fun p => { p with
    named := true, prev := p.cur, cur := name, seq := p.seq + 1, dropped := drop, repeated := rep,
    imap := if k < 16 then s.mapRegs false k else p.imap,
    omapNext := if k < 16 then some (s.mapRegs true k) else none,
    outName := if s.turnOf k then p.outName else some name,
    substZero := if s.turnOf k then p.substZero else s.bit (portCtrl k) pSubst,
    tagOffs := if s.turnOf k then p.tagOffs else s.fld (portCtrl k) pTagOffset }
  let s3 := if drop || rep then s2.countSlip k rep else s2
  let s4 := if k < 40 then
    (s3.setFld (portStat k) stRunning 1).setFld (portStat k) stPhase (wrapInt 8 (clampInt 8 (ph / 256))) else s3
  if 32 ≤ k then s4.txStart k
  else
    let s5 := s4.setReg (portMeas k) meas
    let s6 := s5.setFldIf (decide (10000 < meas.toInt.natAbs)) (portStat k) stMismatch 1
    if k < 16 && s6.portMode k = 1 then s6.convertOut k else s6

/-- FRAME_START (R157): a frame of a port starts, at an elapsed fraction of the Ts in 1/65536. A stop that was requested
takes place instead (R147); a receiver has frames only while locked. -/
def execFrameStart (p : PortId) (frac : BitVec 16) (meas : Word) (s : State) : Host.Outcome State Fault Refusal :=
  s.runLit fun s =>
    let k := portKey p
    if !s.portEn k then (if k < 16 && s.bit (portStat k) stRunning then s.portStop k else s)
    else if s.bit (portStat k) stWaiting then s
    else if 16 ≤ k && k < 32 && !s.bit (portStat k) stLock then s
    else
      let s1 := (s.modPort k fun p => { p with sent := 64 }).frameStart k frac.toNat meas
      if 24 ≤ k && k < 32 then
        (s1.setFld (portStat k) MADI_STAT_channels (s.port k).chans).modPort k fun p => { p with chans := 0 }
      else s1

/-- SAP_STOP (R147): the frame start at which a requested stop takes place. -/
def execSapStop (p : Fin 16) (s : State) : Host.Outcome State Fault Refusal :=
  s.run fun s => if !s.portEn p.val && s.bit (SAP_STAT p.val) stRunning then s.portStop p.val else s

/-- SAP_START of a time trigger (R130, R147): a waiting port leaves its wait; false where it was not waiting. -/
def State.sapTrigger (s : State) (p : Nat) : Bool × State :=
  if p < 16 && s.bit (SAP_STAT p) stWaiting then (true, s.setFld (SAP_STAT p) stWaiting 0) else (false, s)

/-! ### Output slots (R26 to R30, R145, R151, R160, R219, R220) -/

/-- The number of the frame that slot j of an output loads next, counted like `seq`. DEDUCED, log entry 57. -/
def State.nextSeq (s : State) (k j : Nat) : Nat :=
  let p := s.port k
  let low := if s.turnOf k then p.seq - 1 else if j = 0 then p.seq + 1 else p.seq
  max (tabGet zeroName p.loaded j + 1) low

/-- The name of the first frame of a port that takes its frames from the media clock: the next Rally instant's, or the
present count's for a transmitter whose phase has not passed in this Ts (R147, R151, R156). -/
def State.firstName (s : State) (k : Nat) : Nat :=
  if 32 ≤ k && decide (s.tsu.frac * 256 < s.txPhase k * tsUnits) then s.rallyCount else (s.rallyCount + 1) % 2 ^ 48

/-- The present internal sample has been loaded by slot j of a CONVERTED output, whose `loaded` keeps one more than its name. -/
def State.convLoaded (s : State) (k j : Nat) : Bool := tabGet zeroName (s.port k).loaded j = s.rallyCount + 1

/-- The name of that frame: the one after the present frame is named ahead. In CONVERTED mode the next load point is that
of the present internal sample until the slot has loaded it, and then that of the next (R27, R160). -/
def State.nextName (s : State) (k j : Nat) : Nat :=
  let p := s.port k
  if s.portMode k = 1 then (if s.convLoaded k j then (s.rallyCount + 1) % 2 ^ 48 else s.rallyCount)
  else if !p.named then s.firstName k
  else if s.nextSeq k j ≤ p.seq - 1 then p.prev
  else if s.nextSeq k j = p.seq then p.cur
  else (p.cur + 1) % 2 ^ 48

/-- The tag that slot j expects at its next load point (R27). -/
def State.expectTag (s : State) (k j : Nat) : Nat := (s.nextName k j + 256 - (s.port k).tagOffs) % 256

/-- Load points take place: the port runs, or is a master about to send its first frame, or a stopped port still ends the
slot's frame (R147). -/
def State.outputLive (s : State) (k j : Nat) : Bool :=
  if s.portRuns k then true
  else if s.portEn k then s.mediaPaced k && s.portMode k = 0 && !s.bit (portStat k) stWaiting
  else (s.port k).ending && s.portMode k != 1 && decide (s.nextSeq k j ≤ (s.port k).seq)

/-- An AUDIO token for slot j of an output (R27, R220). -/
def State.judgeSlot (s : State) (k : Nat) (t : Token) (j : Nat) : State :=
  match tagJudge t.stag (s.expectTag k j) with
  | .stale => s.stationCount (portStation k) .stale
  | .early => s.stationCount (portStation k) .early
  | .onTime =>
    if (tabGet noWord (s.port k).hold j).isSome then s.stationCount (portStation k) .dup
    else s.modPort k fun p => { p with hold := tabSet noWord p.hold j (some t.payload) }

/-- A token reaches an output station of a port: every slot that takes its tag judges it (R219); with none it is unmapped
(R218). -/
def State.portToken (s : State) (k : Nat) (t : Token) : State :=
  let slots := (List.range (s.portSlots k)).filter fun j =>
    s.outputLive k j && (s.outEnt k j).dest = 1 && (s.outEnt k j).tag = t.ctag
  if t.kind != .audio || slots = [] then s.stationCount (portStation k) .unmapped
  else slots.foldl (fun s j => s.judgeSlot k t j) s

/-- The output map changes whole (R145): a held word goes unless the new map takes its slot from the Flue with the same
tag. -/
def State.takeOmap (s : State) (k : Nat) : State :=
  match (s.port k).omapNext with
  | none => s
  | some m =>
    let gone := (List.range 32).filter fun j =>
      let a := mapEnt (tabGet zeroWord (s.port k).omap j)
      let b := mapEnt (tabGet zeroWord m j)
      (tabGet noWord (s.port k).hold j).isSome && !(a.tag = b.tag && b.dest = 1)
    let s1 := s.modPort k fun p => { p with
      omap := m, omapNext := none, hold := gone.foldl (fun h j => tabSet noWord h j none) p.hold }
    gone.foldl (fun t _ => t.stationCount (portStation k) .unmapped) s1

/-- The word that a slot takes at its load point, and the late slot (R28, R30). A DMA frame that has not been read gives
no stated word: it is free. DESIGN CHOICE, log entry 62. -/
def State.slotWord (s : State) (k j : Nat) : Word × State :=
  let e := s.outEnt k j
  let p := s.port k
  match e.dest with
  | 1 =>
    match tabGet noWord p.hold j with
    | some w => (w, s.modPort k fun p => { p with hold := tabSet noWord p.hold j none })
    | none =>
      (if p.substZero then 0 else tabGet zeroWord p.last j, s.lateSlot (portStation k) j (s.expectTag k j) e.owner)
  | 2 =>
    match p.dmaOut.find? fun f => f.1 = s.nextName k j with
    | some f => (f.2.getD e.dch 0, s)
    | none => (s.fresh.1.truncate 32, s.fresh.2)
  | _ => (0, s)

/-- The slot has no load point now: it is not a slot of the frame, a CONVERTED output has loaded the present sample, or a MADI
channel did not fit in its frame (R154, R160). -/
def State.noLoad (s : State) (k j : Nat) : Bool :=
  !s.outputLive k j || decide (s.portSlots k ≤ j) ||
    (if s.portMode k = 1 then s.convLoaded k j else decide (40 ≤ k) && decide (0 < j) && decide ((s.port k).sent ≤ j))

/-- The load point of slot j of an output (R26, R28). In CONVERTED mode the word goes into the slot's converter. -/
def State.loadPoint (s : State) (k j : Nat) : State :=
  if s.noLoad k j then s
  else
    let conv := s.portMode k = 1
    let s1 := if k < 16 && j = 0 then s.takeOmap k else s
    let n := if conv then s1.rallyCount + 1 else s1.nextSeq k j
    let name := s1.nextName k j
    let (w, s2) := s1.slotWord k j
    let sent := if conv then w else s2.sentWord k w
    let s3 := s2.modPort k fun p => { p with
      last := tabSet zeroWord p.last j sent, loaded := tabSet zeroName p.loaded j n,
      wire := if conv then p.wire else tabSet zeroWord p.wire j sent,
      outName := if s.turnOf k && j = 0 then some name else p.outName }
    let s4 := if s.turnOf k && j = 0 then
      s3.modPort k fun p => { p with substZero := s.bit (portCtrl k) pSubst, tagOffs := s.fld (portCtrl k) pTagOffset }
      else s3
    if 32 ≤ k && 0 < j && !conv then s4.sendSub k j else s4

/-! ### Pins of a serial audio port (R139, R147, R540) -/

/-- The pins of a SAP. -/
inductive SapPin where
  | bclk | fsi | sdi | fso | sdo
deriving DecidableEq, Repr

/-- What the engine does with a pin: it receives it, leaves it high-impedance, drives it with the port's bits and frames, or
holds it at a level. -/
inductive PinDrive where
  | received
  | highZ
  | driven
  | held (level : Bool)
deriving DecidableEq, Repr

/-- The port drives its clocks and data: it runs, or the slots of a frame before its stop are still under way (R147). -/
def State.sapBusy (s : State) (p : Nat) : Bool :=
  s.bit (SAP_STAT p) stRunning || ((s.port p).ending && (List.range (s.portSlots p)).any fun j => s.outputLive p j)

/-- The frame sync level of slot 0 (Table: SAP format parameters; Table: SAP_FMT(p)). -/
def State.fsActive (s : State) (p : Nat) : Bool :=
  match s.fld (SAP_FMT p) SAP_FMT_fmt with
  | 0 => false
  | 1 => true
  | _ => s.fld (SAP_FMT p) SAP_FMT_fs_pol = 0

/-- What the engine does with a pin of a SAP (R139, R147): a master drives BCLK and FSI, and every port FSO and SDO. Idle pins
stay at their inactive levels. In a bank whose supply and bank18 disagree the outputs are high-impedance (R540). -/
def State.sapPin (s : State) (p : Nat) (pin : SapPin) : PinDrive :=
  let clock := pin = .bclk || pin = .fsi
  if pin = .sdi || (clock && !s.bit (SAP_CTRL p) SAP_CTRL_master) then .received
  else if bitOf s.pins.bankOff (p / 4) then .highZ
  else if s.sapBusy p then .driven
  else match pin with
    | .bclk => .held (s.bit (SAP_FMT p) SAP_FMT_bclk_pol)
    | .sdo => .held false
    | _ => .held (!s.fsActive p)

/-- A SAP bank uses the input thresholds of 1.8 V (R540; Table: DC levels). -/
def State.sapLowThreshold (s : State) (p : Nat) : Bool :=
  bitOf s.pins.bankOff (p / 4) || bitOf (s.reg SAP_GLOBAL).toNat (p / 4)

/-- The supply of bank b in mV; a bank with no other entry is at 3.3 V. -/
def supplyDefault (_ : Nat) : Nat := 3300

/-- Supply and bank18 of bank b disagree (R540). DESIGN CHOICE, log entry 173. -/
def State.bankWrong (s : State) (b : Nat) : Bool :=
  let mv := tabGet supplyDefault s.pins.viosap b
  if bitOf (s.reg SAP_GLOBAL).toNat b then decide (2200 < mv) else decide (mv < 2200)

/-- The banks of `l` that disagree, as bits. -/
def State.wrongBanks (s : State) (l : List Nat) : Nat := (l.filter s.bankWrong).foldl (fun n b => n + 2 ^ b) 0

/-- The comparison at the end of a system reset (R540). -/
def State.compareBanks (s : State) : State :=
  { s with pins := { s.pins with bankOff := s.wrongBanks (List.range 4) } }

/-- A write to SAP_GLOBAL: a bank that now agrees leaves its condition (R540). -/
def State.writeSapGlobal (s : State) (v : Word) : State :=
  let s1 := s.plainWrite SAP_GLOBAL v
  { s1 with pins := { s1.pins with bankOff := s1.wrongBanks ((List.range 4).filter fun b => bitOf s1.pins.bankOff b) } }

/-! ### Port DMA (R164 to R166) -/

abbrev midPortDma : Nat := 0x314

/-- Bytes from frame to frame. -/
def dmaStride (n : Nat) : Nat := (4 * n + 7) / 8 * 8

/-- The address of frame k. -/
def State.frameAddr (s : State) (k name : Nat) (out : Bool) : Nat :=
  let b := portDma k out
  (s.reg b).toNat + name % 2 ^ s.fld (b + 4) dmaFrames * dmaStride (s.fld (b + 4) dmaChans)

/-- 64-bit words of a frame, with a pad word of 0. -/
def packWords : List Word → List Nat
  | [] => []
  | [a] => [a.toNat]
  | a :: b :: rest => (a.toNat + b.toNat * 2 ^ 32) :: packWords rest

/-- SRC_PORT_DMA every 2^irq_log2 frames; 15 is never. -/
def dmaRaise (irq frames : Nat) : Bool := irq != 15 && frames % 2 ^ irq = 0

/-- DMA_FRAME_WRITE (R164, R165): the oldest whole frame of an input goes to the Mantel, then DIN_POS. -/
def execDmaFrameWrite (p : PortId) (s : State) : Host.Outcome State Fault Refusal :=
  s.runLit fun s =>
    let k := portKey p
    let cfg := portDma k false + 4
    match (s.port k).dmaIn with
    | [] => s
    | (name, f) :: rest =>
      if s.ramOpen && s.bit cfg dmaEn && decide (k < 32) && s.portLive k then
        let s1 := s.dmaWriteWords midPortDma (s.frameAddr k name false) (packWords f)
        let s2 := (s1.modPort k fun p => { p with dmaIn := rest, inFrames := p.inFrames + 1 }).setReg (cfg + 4)
          (BitVec.ofNat 32 name)
        s2.raiseIf (dmaRaise (s.fld cfg dmaIrq) (s2.port k).inFrames) 426
      else s

/-- Reads a frame as 64-bit words; a word that returns ECC reads as two zeros (R317). -/
def State.readFrame (s : State) (a : Nat) : Nat → List Word × State
  | 0 => ([], s)
  | n + 1 =>
    let (r, s1) := s.dmaRead midPortDma a .b64
    let v := r.getD 0
    let (l, s2) := s1.readFrame (a + 8) n
    (BitVec.ofNat 32 v :: BitVec.ofNat 32 (v / 2 ^ 32) :: l, s2)

/-- DMA_FRAME_READ (R166): an output reads the frame whose Rally instant lies lead Ts ahead. -/
def execDmaFrameRead (p : PortId) (s : State) : Host.Outcome State Fault Refusal :=
  s.runLit fun s =>
    let k := portKey p
    let cfg := portDma k true + 4
    if s.ramOpen && s.portEn k && s.bit cfg dmaEn && (decide (k < 16) || decide (32 ≤ k)) then
      let name := (s.rallyCount + s.fld cfg dmaLead) % 2 ^ 48
      let (f, s1) := s.readFrame (s.frameAddr k name true) (dmaStride (s.fld cfg dmaChans) / 8)
      let s2 := s1.modPort k fun p => { p with
        dmaOut := ((name, f) :: p.dmaOut).take 17, outFrames := p.outFrames + 1 }
      s2.raiseIf (dmaRaise (s.fld cfg dmaIrq) (s2.port k).outFrames) 426
    else s

/-! ### Receivers (R148 to R150, R155) -/

/-- A receiver loses lock: its tokens and DMA frames stop, its converters put out 0, and the block that was not complete goes
(R150, R163, R165). -/
def State.loseLock (s : State) (k : Nat) : State :=
  ((s.setFld (portStat k) stLock 0).portQuiet k).modPort k fun p => { p with
    badPre := 0, viol := 0, block := none, csA := 0, csB := 0, uA := 0, uB := 0 }

def State.gainLock (s : State) (k : Nat) : State :=
  (s.loseLock k).setFld (portStat k) stLock 1

/-- AES_RX_LOCK (R148): three frames in a row had valid preambles and a Z preamble in its place. -/
def execAesRxLock (i : Fin 8) (s : State) : Host.Outcome State Fault Refusal :=
  s.runLit fun s => if s.portEn (16 + i.val) && !s.bit (AES_RX_STAT i.val) stLock then s.gainLock (16 + i.val) else s

/-- MADI_RX_LOCK (R155). -/
def execMadiRxLock (m : Fin 2) (lock : Bool) (s : State) : Host.Outcome State Fault Refusal :=
  s.runLit fun s =>
    if !lock then s.loseLock (24 + m.val)
    else if s.portEn (24 + m.val) && !s.bit (MADI_STAT m.val) stLock then s.gainLock (24 + m.val) else s

/-- The audio field of a subframe as a Q31 word (R149): validity may mute it, a parity error repeats the channel's word. -/
def State.subframeWord (s : State) (k j : Nat) (audio : Nat) (v bad word20 mute : Bool) : Word :=
  if bad then tabGet zeroWord (s.port k).words j
  else if mute && v then 0
  else BitVec.ofNat 32 ((if word20 then audio / 16 * 16 else audio) * 256)

/-- A whole channel-status block is copied to its registers and checked in professional format (R150). -/
def State.copyBlock (s : State) (k : Nat) : State :=
  let p := s.port k
  let s1 := byPort k (fun _ => s)
    (fun i => (((s.setBlock (fun w => AES_RX_CS_A i w) p.csA).setBlock (fun w => AES_RX_CS_B i w) p.csB).setBlock
      (fun w => AES_RX_U_A i w) p.uA).setBlock (fun w => AES_RX_U_B i w) p.uB)
    (fun m => s.setBlock (fun w => MADI_RX_CS m w) p.csA) (fun _ => s) (fun _ => s)
  let wrong (b : Nat) : Bool := bitOf b 0 && crcc b != b / 2 ^ 184
  let bad := wrong p.csA || (decide (k < 24) && wrong p.csB)
  (s1.setFld (portStat k) stCsNew 1).setFldIf bad (portStat k) stCrcErr 1

/-- A Z preamble, or the block start of a MADI channel: the block before is copied if it was whole, and a new one starts. -/
def State.blockStart (s : State) (k : Nat) : State :=
  let s1 := if (s.port k).block = some 192 then s.copyBlock k else s
  s1.modPort k fun p => { p with block := some 0, viol := 0, csA := 0, csB := 0, uA := 0, uB := 0 }

/-- A channel-status and a user bit of one channel enter the block. -/
def State.blockBits (s : State) (k j : Nat) (c u first : Bool) : State :=
  match (s.port k).block with
  | none => s
  | some n =>
    if 192 < n + b2n first then s
    else
      let i := if first then n else n - 1
      s.modPort k fun p =>
        if j = 0 then { p with block := some (n + b2n first), csA := p.csA ||| b2n c * 2 ^ i, uA := p.uA ||| b2n u * 2 ^ i }
        else { p with block := some (n + b2n first), csB := p.csB ||| b2n c * 2 ^ i, uB := p.uB ||| b2n u * 2 ^ i }

/-- AES_SUBFRAME_RECEIVE (R148 to R150): subframe B or A with its preamble (in order, and Z), biphase violations, audio,
validity, user and channel-status bits, and parity. -/
def execAesSubframeReceive (i : Fin 8) (b preOk z : Bool) (viol : Nat) (audio : BitVec 24) (v u c parityOk : Bool)
    (s : State) : Host.Outcome State Fault Refusal :=
  s.runLit fun s =>
    let k := 16 + i.val
    if s.portRuns k && s.bit (AES_RX_STAT i.val) stLock then
      let s1 := s.bumpBy (AES_RX_ERRS i.val) errLine viol
      let s2 := if z && !b && preOk then s1.blockStart k else s1
      let s3 := s2.modPort k fun p => { p with badPre := if preOk then 0 else p.badPre + 1, viol := p.viol + viol }
      if 2 ≤ (s3.port k).badPre ∨ 8 ≤ (s3.port k).viol then s3.loseLock k
      else
        let w := s3.subframeWord k (b2n b) audio.toNat v (!parityOk) (s.bit (AES_RX_CTRL i.val) AES_RX_CTRL_word20)
          (s.bit (AES_RX_CTRL i.val) AES_RX_CTRL_v_mute)
        let s4 := s3.bumpBy (AES_RX_ERRS i.val) errParity (b2n (!parityOk))
        (s4.blockBits k (b2n b) c u (!b)).takeWord k (b2n b) w
    else s

/-- MADI_CHANNEL_RECEIVE (R155): channel c with its block-start bit and the fields of R149. A channel beyond the port's mode
is only seen (R153). -/
def execMadiChannelReceive (m : Fin 2) (c : Fin 64) (start : Bool) (audio : BitVec 24) (v u cs parityOk : Bool)
    (s : State) : Host.Outcome State Fault Refusal :=
  s.runLit fun s =>
    let k := 24 + m.val
    if !(s.portRuns k && s.bit (MADI_STAT m.val) stLock) then s
    else if s.portSlots k ≤ c.val then s.modPort k fun p => { p with chans := max p.chans (c.val + 1) }
    else
      let sel := decide (c.val = s.fld (MADI_OWN m.val) MADI_OWN_cs_sel)
      let s1 := if start && sel then s.blockStart k else s
      let w := s1.subframeWord k c.val audio.toNat v (!parityOk) false false
      let s2 := (s1.bumpBy (MADI_ERRS m.val) errParity (b2n (!parityOk))).modPort k fun p => { p with
        chans := max p.chans (c.val + 1) }
      let s3 := if sel then s2.blockBits k 0 cs u true else s2
      s3.takeWord k c.val w

/-- The channels of a MADI frame that do not fit lose the words held for them, and their load points are past (R154). -/
def State.dropChannels (s : State) (k : Nat) : State :=
  s.modPort k fun p =>
    let gone := (List.range 64).filter fun c => 0 < c && p.sent ≤ c
    { p with
      hold := gone.foldl (fun h c => tabSet noWord h c none) p.hold,
      loaded := gone.foldl (fun l c => tabSet zeroName l c p.seq) p.loaded }

/-- MADI_TX_FRAME (R154, R156): frame k of a MADI transmitter starts, and `sent` channels fit before the next. -/
def execMadiTxFrame (m : Fin 2) (sent : Fin 65) (s : State) : Host.Outcome State Fault Refusal :=
  s.runLit fun s =>
    let k := 40 + m.val
    if s.portEn k then
      let s1 := (s.modPort k fun p => { p with sent := sent.val }).frameStart k 0 0
      let n := s.madiChans m.val
      if sent.val < n then
        let s2 := if s.portMode k = 1 then s1 else s1.dropChannels k
        (s2.setFld (MADI_STAT m.val) MADI_STAT_overfill 1).bumpBy (MADI_ERRS m.val) errLine (n - sent.val)
      else s1
    else s

/-! ### Control registers (R142, R147, R160, R164, R167) -/

/-- port_rate in Hz. -/
def portHz : Nat → Nat
  | 0 => 44100
  | 1 => 48000
  | 2 => 88200
  | 3 => 96000
  | 4 => 176400
  | _ => 192000

/-- The fields of a control word lie in their ranges, whatever en is (Table: SAP_CTRL; Table: Rate modes per port). -/
def ctrlRangeOk (k : Nat) (v : Word) : Bool :=
  let mode := pMode.get v
  let master := decide (k < 16) && SAP_CTRL_master.get v = 1
  let depth := pDepth.get v
  mode != 3 && decide (pRate.get v ≤ 5) && !(mode = 2 && (master || 32 ≤ k)) &&
    (32 ≤ k || decide (2 ≤ depth)) && !(24 ≤ k && k < 32 && decide (2 ≤ MADI_CTRL_tx_rate_mode.get v))

/-- A SAP may start with this control word (R142). -/
def State.sapStartOk (s : State) (p : Nat) (v : Word) : Bool :=
  let bits := 2 ^ s.fld (SAP_FMT p) SAP_FMT_frame_bits
  let slot := 16 + 8 * s.fld (SAP_FMT p) SAP_FMT_slot_bits
  let clk := bits * (if pMode.get v = 1 then portHz (pRate.get v) else s.internalRate)
  let turn := SAP_CTRL_turn_en.get v = 1
  let skew := s.fld (SAP_TURN p) SAP_TURN_skew
  decide (clk ≤ 49152000) && decide (s.portSlots p * slot ≤ bits) &&
    decide (wordBits (s.fld (SAP_FMT p) SAP_FMT_word_bits) ≤ slot) &&
    !(turn && decide (skew < (clk + 999999) / 1000000)) && !(turn && decide (bits ≤ slot + skew))

/-- The control-word bits that may change while en is 1: en, subst, tag_offset, and an action bit. -/
def ctrlFree (k : Nat) : Word :=
  if 32 ≤ k then 0xFF000061 else if k < 24 then 0xFF000041 else 0xFF0000C1

/-- A write to a SAP_CTRL (R142, R147, R167, R540). -/
def writeSapCtrl (p : Nat) (v : Word) : WriteEff := fun s =>
  let old := s.reg (SAP_CTRL p)
  let on := s.portEn p
  let en := pEn.get v = 1
  let s1 := s.plainWrite (SAP_CTRL p) v
  if on && ((old ^^^ s1.reg (SAP_CTRL p)) &&& ~~~ctrlFree p) != 0 then (.slverr, s)
  else if en && bitOf s.pins.bankOff (p / 4) then (.slverr, s)
  else if !ctrlRangeOk p v then (.slverr, s)
  else if en && !on then
    if !s.sapStartOk p v || (pMode.get v = 1 && !(s1.asrcReady p false && s1.asrcReady p true)) then (.slverr, s)
    else
      let s2 := s1.portBegin p
      (.ok, s2.setFld (SAP_STAT p) stWaiting (SAP_CTRL_master.get v * SAP_CTRL_start_mode.get v))
  else if !en then (.ok, s1.setFld (SAP_STAT p) stWaiting 0)
  else (.ok, s1)

/-- SAP_ENABLE (R142): a write of 1 to en, with the other fields as v gives them. -/
def execSapEnable (m : Mid) (p : Fin 16) (v : Word) (s : State) : Host.Outcome State Fault Refusal :=
  s.run fun s => s.writeReg m.val (SAP_CTRL p.val) (v ||| 1) (writeSapCtrl p.val (v ||| 1))

/-- SAP_DISABLE (R147): a write of 0 to en. -/
def execSapDisable (m : Mid) (p : Fin 16) (v : Word) (s : State) : Host.Outcome State Fault Refusal :=
  s.run fun s => s.writeReg m.val (SAP_CTRL p.val) (v &&& ~~~1) (writeSapCtrl p.val (v &&& ~~~1))

/-- An AES3 or MADI direction starts or stops as its en says. DEDUCED, log entry 63. -/
def State.aesSwitch (s : State) (k : Nat) (was now : Bool) : State :=
  if now && !was then
    let s1 := s.portBegin k
    if k < 40 then s1.setFld (portStat k) stRunning 1 else s1
  else if was && !now then
    let s1 := (s.portQuiet k).modPort k fun p => { p with hold := [] }
    let s2 := if k < 40 then s1.setFld (portStat k) stRunning 0 else s1
    if k < 32 then s2.loseLock k else s2
  else s

/-- A write to AES_RX_CTRL or AES_TX_CTRL (R151, R152, R160, R167). -/
def writeAesCtrl (k : Nat) (v : Word) : WriteEff := fun s =>
  let a := portCtrl k
  let on := s.portEn k
  let en := pEn.get v = 1
  let s1 := s.plainWrite a v
  if on && ((s.reg a ^^^ s1.reg a) &&& ~~~ctrlFree k) != 0 then (.slverr, s)
  else if !ctrlRangeOk k v then (.slverr, s)
  else if en && !on && pMode.get v = 1 && !s1.asrcReady k (32 ≤ k) then (.slverr, s)
  else
    let s2 := if 32 ≤ k && bitOf v.toNat 5 then s1.modPort k fun p => { p with commit := true } else s1
    (.ok, s2.aesSwitch k on en)

/-- A write to MADI_CTRL(m): both directions (R153 to R156, R160, R167). -/
def writeMadiCtrl (m : Nat) (v : Word) : WriteEff := fun s =>
  let a := MADI_CTRL m
  let on := s.bit a pEn
  let en := pEn.get v = 1
  let s1 := s.plainWrite a v
  if on && ((s.reg a ^^^ s1.reg a) &&& ~~~ctrlFree 24) != 0 then (.slverr, s)
  else if !ctrlRangeOk (24 + m) v then (.slverr, s)
  else if en && !on && ((pMode.get v = 1 && !s1.asrcReady (24 + m) false) ||
      (MADI_CTRL_tx_en.get v = 1 && MADI_CTRL_tx_rate_mode.get v = 1 && !s1.asrcReady (40 + m) true)) then (.slverr, s)
  else
    let s2 := if bitOf v.toNat 7 then s1.modPort (40 + m) fun p => { p with commit := true } else s1
    (.ok, (s2.aesSwitch (24 + m) on en).aesSwitch (40 + m) (s.portEn (40 + m)) (s1.portEn (40 + m)))

/-- The control register of an AES3 direction or MADI port, and what a write to it does. -/
def aesmAddr : AesmReg → Nat
  | .aesRx i => AES_RX_CTRL i.val
  | .aesTx i => AES_TX_CTRL i.val
  | .madi m => MADI_CTRL m.val

def writeAesm (r : AesmReg) (v : Word) : WriteEff :=
  match r with
  | .aesRx i => writeAesCtrl (16 + i.val) v
  | .aesTx i => writeAesCtrl (32 + i.val) v
  | .madi m => writeMadiCtrl m.val v

/-- AESM_PORT_ENABLE (R160): a write to the control register. -/
def execAesmPortEnable (m : Mid) (r : AesmReg) (v : Word) (s : State) : Host.Outcome State Fault Refusal :=
  s.run fun s => s.writeReg m.val (aesmAddr r) v (writeAesm r v)

/-- CS_COMMIT (R152): a write of 1 to cs_commit. A receiver's control word has no such bit. -/
def execCsCommit (m : Mid) (r : AesmReg) (v : Word) (s : State) : Host.Outcome State Fault Refusal :=
  let w := match r with
    | .aesRx _ => v
    | .aesTx _ => v ||| 0x20
    | .madi _ => v ||| 0x80
  s.run fun s => s.writeReg m.val (aesmAddr r) w (writeAesm r w)

/-- MAP_WRITE (R145): a write to SAP_IMAP(p, j) or SAP_OMAP(p, j); it takes effect at a frame start or load point. -/
def writeMap (out : Bool) (p j : Nat) (v : Word) : WriteEff :=
  acceptIf (!(out && SAP_OMAP_src.get v = 3)) fun s => s.plainWrite (if out then SAP_OMAP p j else SAP_IMAP p j) v

def execMapWrite (m : Mid) (p : Fin 16) (out : Bool) (j : Fin 32) (v : Word) (s : State) :
    Host.Outcome State Fault Refusal :=
  s.run fun s => s.writeReg m.val (if out then SAP_OMAP p.val j.val else SAP_IMAP p.val j.val) v (writeMap out p.val j.val v)

/-- A write to a port's DIN or DOUT _CFG (R164, R167). DEDUCED, log entry 65. -/
def writeDmaCfg (k : Nat) (out : Bool) (v : Word) : WriteEff := fun s =>
  let a := portDma k out + 4
  let f := dmaFrames.get v
  let n := dmaChans.get v
  let size := 2 ^ f * dmaStride n
  if s.bit (portCtrl k) pEn && ((s.reg a ^^^ v) &&& 0xFFFFE) != 0 then (.slverr, s)
  else if out && dmaLead.get v = 0 then (.slverr, s)
  else if dmaEn.get v = 1 && (f = 0 || decide (12 < f) || n = 0 || decide (64 < n) ||
      decide (0x800000 < (s.reg (portDma k out)).toNat + size)) then (.slverr, s)
  else
    let s1 := s.plainWrite a v
    if dmaEn.get v = 1 && !s.bit a dmaEn then
      (.ok, s1.modPort k fun p => if out then { p with outFrames := 0, dmaOut := [] } else { p with inFrames := 0, dmaIn := [] })
    else (.ok, s1)

/-- PORT_DMA_ENABLE (R164): a write of 1 to a _CFG.en, with the other fields as v gives them. -/
def execPortDmaEnable (m : Mid) (p : PortId) (out : Bool) (v : Word) (s : State) : Host.Outcome State Fault Refusal :=
  s.run fun s => s.writeReg m.val (portDma (portKey p) (portOut p out) + 4) (v ||| 1)
    (writeDmaCfg (portKey p) (portOut p out) (v ||| 1))

/-! ### Other registers of the ports -/

/-- A write that changes no field of a port register, or that comes while en is 0 (R167). -/
def quietWrite (k a : Nat) (v : Word) : WriteEff := fun s =>
  if s.bit (portCtrl k) pEn && (s.plainWrite a v).reg a != s.reg a then (.slverr, s) else (.ok, s.plainWrite a v)

/-- A write to a SAP_FMT word in range (Table: SAP_FMT(p) and SAP_TURN(p)). -/
def fmtOk (v : Word) : Bool :=
  decide (SAP_FMT_fmt.get v < 3) && decide (SAP_FMT_slot_bits.get v < 3) && decide (SAP_FMT_fs_width.get v < 3) &&
    decide (5 ≤ SAP_FMT_frame_bits.get v) && decide (SAP_FMT_frame_bits.get v ≤ 10)

/-- A write to a register of one SAP at offset o of its 0x400 bytes. -/
def sapPortWrite (p o : Nat) (v : Word) : WriteEff := fun s =>
  if o = 0 then writeSapCtrl p v s
  else if o = 4 then (if fmtOk v then quietWrite p (SAP_FMT p) v s else (.slverr, s))
  else if o = 8 then quietWrite p (SAP_TURN p) v s
  else if o = 0x20 then quietWrite p (SAP_DIN_BASE p) v s
  else if o = 0x24 then writeDmaCfg p false v s
  else if o = 0x30 then quietWrite p (SAP_DOUT_BASE p) v s
  else if o = 0x34 then writeDmaCfg p true v s
  else if 0x100 ≤ o ∧ o < 0x180 then writeMap false p ((o - 0x100) / 4) v s
  else if 0x200 ≤ o ∧ o < 0x280 then writeMap true p ((o - 0x200) / 4) v s
  else (.ok, s.plainWrite (SAP_CTRL p + o) v)

def sapWrite (a : Nat) (v : Word) : WriteEff :=
  if SAP_CTRL 0 ≤ a ∧ a < SAP_CTRL 16 then sapPortWrite ((a - SAP_CTRL 0) / 0x400) ((a - SAP_CTRL 0) % 0x400) v
  else if a = SAP_GLOBAL then accept fun s => s.writeSapGlobal v
  else accept fun s => s.plainWrite a v

/-- A write to a register of one AES3 direction or MADI port with key k, at offset o: a receiver has the DMA registers at 0x20, a
transmitter those at 0x30, a MADI port both. -/
def aesPortWrite (k o : Nat) (v : Word) : WriteEff := fun s =>
  let a := portCtrl k + o
  let madi := decide (24 ≤ k) && decide (k < 32)
  if o = 0 then (if madi then writeMadiCtrl (k - 24) v s else writeAesCtrl k v s)
  else if o = 4 then
    (if 24 ≤ k && bitOf v.toNat 31 && bitOf v.toNat 30 then (.slverr, s) else quietWrite k a v s)
  else if (o = 0x20 && decide (k < 32)) || (o = 0x30 && decide (24 ≤ k)) then quietWrite k a v s
  else if o = 0x24 && decide (k < 32) then writeDmaCfg k false v s
  else if o = 0x34 && decide (24 ≤ k) then writeDmaCfg (if madi then k + 16 else k) true v s
  else if (32 ≤ k && o = 0xC) || (madi && (o = 0x1C || o = 0x38)) then quietWrite k a v s
  else (.ok, s.plainWrite a v)

def aesmWrite (a : Nat) (v : Word) : WriteEff :=
  if AES_RX_CTRL 0 ≤ a ∧ a < AES_RX_CTRL 8 then
    aesPortWrite (16 + (a - AES_RX_CTRL 0) / 0x100) ((a - AES_RX_CTRL 0) % 0x100) v
  else if AES_TX_CTRL 0 ≤ a ∧ a < AES_TX_CTRL 8 then
    aesPortWrite (32 + (a - AES_TX_CTRL 0) / 0x100) ((a - AES_TX_CTRL 0) % 0x100) v
  else if MADI_CTRL 0 ≤ a ∧ a < MADI_CTRL 2 then
    aesPortWrite (24 + (a - MADI_CTRL 0) / 0x400) ((a - MADI_CTRL 0) % 0x400) v
  else accept fun s => s.plainWrite a v

def asrcWrite (a : Nat) (v : Word) : WriteEff :=
  if ASRC_ALLOC 0 ≤ a ∧ a < ASRC_ALLOC 128 then writeAsrcAlloc ((a - ASRC_ALLOC 0) / 4) v
  else accept fun s => s.plainWrite a v

end Sys2Proof.Machine
end

