-- ==== Sys2Proof/Machine/Net.lean ====
section
/-! DEFINITION. Network audio streams, the MACs and the host frame rings (06). -/

namespace Sys2Proof.Machine

abbrev midNet : Nat := 0x315
abbrev netStation : Nat := 26

/-! ### Access to the NET state -/

def rxDefault (_ : Nat) : RxStream := ⟨0, [], none, none, none, none, 0⟩
def txDefault (_ : Nat) : TxStream := ⟨[], [], none, none⟩
def noFrames (_ : Nat) : List (List Byte) := []

def State.rxs (s : State) (i : Nat) : RxStream := tabGet rxDefault s.net.rx i

def State.modRxs (s : State) (i : Nat) (f : RxStream → RxStream) : State :=
  { s with net := { s.net with rx := tabSet rxDefault s.net.rx i (f (s.rxs i)) } }

def State.txs (s : State) (i : Nat) : TxStream := tabGet txDefault s.net.tx i

def State.modTxs (s : State) (i : Nat) (f : TxStream → TxStream) : State :=
  { s with net := { s.net with tx := tabSet txDefault s.net.tx i (f (s.txs i)) } }

/-- A frame with its FCS (R191). -/
def withFcs (l : List Byte) : List Byte := l ++ leBytes 4 (crc32 l)

/-- A MAC sends a frame and appends the FCS. -/
def State.ethSend (s : State) (p : Nat) (l : List Byte) : State :=
  let out := tabSet noFrames s.net.out p (tabGet noFrames s.net.out p ++ [withFcs l])
  ({ s with net := { s.net with out := out } }).bump (NET_MAC_TX_FRAMES p) whole

/-- The MAC can send: it is enabled and its link is up. -/
def State.macUp (s : State) (p : Nat) : Bool := s.bit (NET_MAC_CTRL p) NET_MAC_CTRL_en && s.bit (NET_MAC_STAT p) NET_MAC_STAT_link

/-! ### Stream parameters -/

/-- RSG_CTRL.mult as a factor. -/
def State.rateMult (s : State) : Nat := 2 ^ s.fld RSG_CTRL RSG_CTRL_mult

def State.rxChans (s : State) (i : Nat) : Nat := s.fld (NET_RXS_CTRL i) NET_RXS_CTRL_chans + 1

def State.txChans (s : State) (i : Nat) : Nat := s.fld (NET_TXS_CTRL i) NET_TXS_CTRL_chans + 1

/-- Samples per packet by code and factor (R172). -/
def sppOf (code mult : Nat) : Nat := (if code = 0 then 6 else if code = 1 then 12 else if code = 2 then 16 else 48) * mult

def State.txSpp (s : State) (i : Nat) : Nat := sppOf (s.fld (NET_TXS_CTRL i) NET_TXS_CTRL_spp) s.rateMult

/-- Bytes of a sample: L16 or L24. -/
def sampleBytes (fmt : Bool) : Nat := if fmt then 3 else 2

def State.rxOn (s : State) (i : Nat) : Bool := s.bit (NET_RXS_CTRL i) NET_RXS_CTRL_en

def State.txOn (s : State) (i : Nat) : Bool := s.bit (NET_TXS_CTRL i) NET_TXS_CTRL_en

def State.rxFrames (s : State) (i : Nat) : Nat := 2 ^ s.fld (NET_RXS_BUF_CFG i) NET_RXS_BUF_CFG_frames_log2

/-- A sticky bit of a receive stream is set; each raises SRC_NET_RXS. -/
def State.rxFlag (s : State) (i : Nat) (f : Fld) : State := (s.setFld (NET_RXS_STAT i) f 1).raise 429

def State.txFlag (s : State) (i : Nat) (f : Fld) : State := (s.setFld (NET_TXS_STAT i) f 1).raise 430

/-- The address of frame k in a receive stream's buffer (R164, R177). -/
def State.rxAddr (s : State) (i k : Nat) : Nat :=
  (s.reg (NET_RXS_BUF_BASE i)).toNat + k % s.rxFrames i * dmaStride (s.rxChans i)

/-- A frame of Mantel words; a word that returns ECC reads as two zeros (R317). -/
def State.netFrame (s : State) (a : Nat) : Nat → List Word × State
  | 0 => ([], s)
  | n + 1 =>
    let (r, s1) := s.dmaRead midNet a .b64
    let v := r.getD 0
    let (l, s2) := s1.netFrame (a + 8) n
    (BitVec.ofNat 32 v :: BitVec.ofNat 32 (v / 2 ^ 32) :: l, s2)

/-! ### Receive streams (R176 to R184) -/

/-- The signed distance from count b to count a. -/
def countDiff (a b : Nat) : Int := signed 48 (a + 2 ^ 48 - b % 2 ^ 48)

/-- The count n of the sample with RTP timestamp t (R176). -/
def State.rtpCount (s : State) (t o : Nat) : Nat × State :=
  let (d, s1) := s.nearLow s.rallyCount (t + 2 ^ 32 - o)
  ((((s.rallyCount : Int) + d) % (2 ^ 48 : Nat)).toNat, s1)

/-- The words of one sample: channel c from its big-endian bytes, left-justified in Q31 (R175). -/
def sampleWords (bytes : List Byte) (chans width : Nat) : List Word :=
  (List.range chans).map fun c => BitVec.ofNat 32 (beAt bytes (c * width) width * 2 ^ (32 - 8 * width))

/-- The frame of sample n: n + d, or by the mapping of STEERING mode, which the first accepted packet sets (R177, R182). -/
def State.frameOf (s : State) (i n : Nat) : Nat :=
  let off : Int := if s.fld (NET_RXS_CTRL i) NET_RXS_CTRL_rate_mode = 2 then (s.rxs i).map.getD 0
    else s.fld (NET_RXS_TIMING i) NET_RXS_TIMING_d
  (((n : Int) + off) % (2 ^ 48 : Nat)).toNat

/-- FILL (R182): how far the newest written frame lies beyond the read-out. -/
def State.rxFill (s : State) (i : Nat) : State :=
  let x := s.rxs i
  let f := match x.newest with
    | none => 0
    | some n => (countDiff n x.last).toNat
  if s.fld (NET_RXS_CTRL i) NET_RXS_CTRL_rate_mode = 2 then
    s.setReg (NET_RXS_FILL i) (BitVec.ofNat 32 (min 65535 (256 * f)))
  else s

/-- A sample is written to its frame and marked (R179). -/
def State.rxWrite (s : State) (i k : Nat) (words : List Word) : State :=
  let s1 := s.dmaWriteWords midNet (s.rxAddr i k) (packWords words)
  let newer (x : RxStream) : Bool := match x.newest with
    | none => true
    | some n => 0 < countDiff k n
  (s1.modRxs i fun x => { x with marks := k :: x.marks, newest := if newer x then some k else x.newest }).rxFill i

/-- One sample of an accepted packet (R179, R182); true when it was a duplicate. -/
def State.rxSample (s : State) (i n : Nat) (words : List Word) : Bool × State :=
  let k := s.frameOf i n
  let d := countDiff k (s.rxs i).last
  if d ≤ 0 then (false, (s.bump (NET_RXS_LATE i) whole).rxFlag i NET_RXS_STAT_late)
  else if (s.rxFrames i : Int) ≤ d then
    let s1 := (s.modRxs i fun x => { x with map := x.map.map fun m => m - 1 }).bump (NET_RXS_SLIPS i) NET_RXS_SLIPS_drops
    (false, s1.rxFlag i NET_RXS_STAT_slip)
  else if k ∈ (s.rxs i).marks then (true, s)
  else (false, s.rxWrite i k words)

/-- The samples of a packet, from sample n on. -/
def State.rxSamples (s : State) (i chans width : Nat) : Nat → Nat → List Byte → Bool × State
  | 0, _, _ => (false, s)
  | k + 1, n, bytes =>
    let (d1, s1) := s.rxSample i n (sampleWords bytes chans width)
    let (d2, s2) := s1.rxSamples i chans width k ((n + 1) % 2 ^ 48) (bytes.drop (chans * width))
    (d1 || d2, s2)

/-- The RTP header's length with CSRCs and extension, and the payload after padding; none where it does not fit. -/
def rtpPayload (l : List Byte) : Option (List Byte) :=
  let b0 := beAt l 0 1
  let h := 12 + 4 * (b0 % 16)
  let h2 := if bitOf b0 4 then h + 4 + 4 * beAt l (h + 2) 2 else h
  let pad := if bitOf b0 5 then (l.getLast?.map (·.toNat)).getD 0 else 0
  if l.length < 12 ∨ l.length < h2 + pad ∨ (bitOf b0 5 ∧ pad = 0) then none else some ((l.take (l.length - pad)).drop h2)

/-- The packet counts of a leg (R184): gaps of 2 to 32,767 add to LOST. DEDUCED, log entry 73. -/
def State.legSeq (s : State) (i : Nat) (leg : Bool) (seq : Nat) : State :=
  let prev := if leg then (s.rxs i).seq1 else (s.rxs i).seq0
  let gap := match prev with
    | none => 1
    | some p => (seq + 65536 - p) % 65536
  let s1 := s.bump (if leg then NET_RXS_PKTS1 i else NET_RXS_PKTS0 i) whole
  let s2 := s1.modRxs i fun x => if leg then { x with seq1 := some seq } else { x with seq0 := some seq }
  if 2 ≤ gap ∧ gap ≤ 32767 then s2.bumpBy (if leg then NET_RXS_LOST1 i else NET_RXS_LOST0 i) whole (gap - 1) else s2

/-- A UDP payload for a leg of a receive stream (R179, R180, R182). -/
def State.rxPacket (s : State) (i : Nat) (leg sumOk : Bool) (udp : List Byte) : State :=
  let c := NET_RXS_CTRL i
  let chans := s.rxChans i
  let width := sampleBytes (s.bit c NET_RXS_CTRL_fmt)
  let bad := (s.bump (NET_RXS_BAD i) whole).rxFlag i NET_RXS_STAT_bad
  match rtpPayload udp with
  | none => bad
  | some data =>
    let n := data.length / (chans * width)
    if beAt udp 0 1 / 64 ≠ 2 ∨ beAt udp 1 1 % 128 ≠ s.fld (NET_RXS_TIMING i) NET_RXS_TIMING_pt ∨
        (s.bit c NET_RXS_CTRL_ssrc_check = true ∧ beAt udp 8 4 ≠ (s.reg (NET_RXS_SSRC i)).toNat) ∨
        n = 0 ∨ data.length ≠ n * chans * width ∨ 1440 < data.length ∨ sumOk = false then bad
    else
      let (first, s1) := (s.legSeq i leg (beAt udp 2 2)).rtpCount (beAt udp 4 4) (s.reg (NET_RXS_RTP_OFFSET i)).toNat
      let steer := s.fld c NET_RXS_CTRL_rate_mode = 2
      let s2 := if steer ∧ (s1.rxs i).map.isNone then
          s1.modRxs i fun x => { x with map := some (countDiff (x.last + s.rxFrames i / 2) first) }
        else s1
      let far := (s.rxFrames i : Int) ≤ countDiff (s2.frameOf i (first + n - 1)) (s2.rxs i).last
      if ¬ steer ∧ far then (s2.bump (NET_RXS_EARLY i) whole).rxFlag i NET_RXS_STAT_early
      else
        let (dup, s3) := s2.rxSamples i chans width n first data
        if dup then s3.bump (NET_RXS_DUPS i) whole else s3

/-- The read-out of the present frame (R178, R182): settle, tokens, POS. DEDUCED, log entry 71. DEDUCED, log entry 72.
DEDUCED, log entry 74. DEDUCED, log entry 79. -/
def State.readOut (s : State) (i : Nat) : State :=
  let k := s.rallyCount
  let c := NET_RXS_CTRL i
  let n := dmaStride (s.rxChans i) / 8
  let x := s.rxs i
  let here := decide (k ∈ x.marks)
  let later := x.marks.any fun m => decide (0 < countDiff m k)
  let slip := !here && !later && s.fld c NET_RXS_CTRL_rate_mode = 2
  let s1 :=
    if here then s
    else
      let (old, sa) := s.netFrame (s.rxAddr i ((k + 2 ^ 48 - 1) % 2 ^ 48)) n
      let zero := s.bit c NET_RXS_CTRL_subst && !slip
      let sb := sa.dmaWriteWords midNet (s.rxAddr i k) (packWords (if zero then old.map fun _ => 0 else old))
      if slip then
        ((sb.modRxs i fun x => { x with map := x.map.map fun m => m + 1 }).bump (NET_RXS_SLIPS i)
          NET_RXS_SLIPS_repeats).rxFlag i NET_RXS_STAT_slip
      else sb.bump (NET_RXS_SUBST i) whole
  let (f, s2) := s1.netFrame (s.rxAddr i k) n
  let s3 :=
    if s.fld c NET_RXS_CTRL_dest % 2 = 1 then
      (List.range (s.rxChans i)).foldl (fun t ch => t.stationSend netStation
        ⟨.audio, k % 256, (s.fld c NET_RXS_CTRL_tag_base + ch) % 4096, f.getD ch 0⟩) s2
    else s2
  let s4 := s3.modRxs i fun x => { x with
    last := k, marks := x.marks.filter fun m => decide (0 < countDiff m k), frames := x.frames + 1 }
  ((s4.setReg (NET_RXS_POS i) (BitVec.ofNat 32 k)).rxFill i).raiseIf
    (dmaRaise (s.fld (NET_RXS_BUF_CFG i) NET_RXS_BUF_CFG_irq_log2) (x.frames + 1)) 429

/-- STREAM_READOUT (R178): 100 ns after the Rally instant of sample k. -/
def execStreamReadout (i : Fin 64) (s : State) : Host.Outcome State Fault Refusal :=
  s.runLit fun s => if s.rxOn i.val && s.ramOpen then s.readOut i.val else s

/-! ### Transmit streams (R185 to R189) -/

/-- The sample whose load point comes next. -/
def State.txNext (s : State) (i : Nat) : Nat :=
  if (s.txs i).loaded = some s.rallyCount then (s.rallyCount + 1) % 2 ^ 48 else s.rallyCount

/-- The tag that a stream's channels expect (R27, R186). -/
def State.txTag (s : State) (i : Nat) : Nat :=
  (s.txNext i + 256 - s.fld (NET_TXS_HDR i) NET_TXS_HDR_tag_offset) % 256

/-- A token reaches the NET station: every running stream channel with its tag judges it (R186, R218, R219). -/
def State.netToken (s : State) (t : Token) : State :=
  let hits := (List.range 64).flatMap fun i =>
    if s.txOn i && !s.bit (NET_TXS_CTRL i) NET_TXS_CTRL_src then
      ((List.range (s.txChans i)).filter fun c => (s.fld (NET_TXS_CTRL i) NET_TXS_CTRL_tag_base + c) % 4096 = t.ctag).map
        fun c => (i, c)
    else []
  let judge (s : State) (e : Nat × Nat) : State :=
    match tagJudge t.stag (s.txTag e.1) with
    | .stale => s.stationCount netStation .stale
    | .early => s.stationCount netStation .early
    | .onTime =>
      if (tabGet noWord (s.txs e.1).hold e.2).isSome then s.stationCount netStation .dup
      else s.modTxs e.1 fun x => { x with hold := tabSet noWord x.hold e.2 (some t.payload) }
  if t.kind != .audio || hits = [] then s.stationCount netStation .unmapped else hits.foldl judge s

/-- The load point of channel c (R28, R186). -/
def State.txLoad (i : Nat) (acc : State × List Word) (c : Nat) : State × List Word :=
  let s := acc.1
  match tabGet noWord (s.txs i).hold c with
  | some w => (s.modTxs i fun x => { x with hold := tabSet noWord x.hold c none, last := tabSet zeroWord x.last c w },
      acc.2 ++ [w])
  | none =>
    let w := if s.bit (NET_TXS_CTRL i) NET_TXS_CTRL_subst then 0 else tabGet zeroWord (s.txs i).last c
    let s1 := s.lateSlot netStation c (s.txTag i) (s.fld (NET_TXS_OWN i) NET_TXS_OWN_owner)
    let s2 := (s1.bump (NET_TXS_LATE i) whole).txFlag i NET_TXS_STAT_late
    (s2.modTxs i fun x => { x with last := tabSet zeroWord x.last c w }, acc.2 ++ [w])

/-- The load point of the present sample of a stream: its words join the packet under way, which starts at a multiple of
spp (R185, R186). -/
def State.netLoad (s : State) (i : Nat) : State :=
  if s.txOn i && !s.bit (NET_TXS_CTRL i) NET_TXS_CTRL_src && (s.txs i).loaded != some s.rallyCount then
    let (s1, words) := (List.range (s.txChans i)).foldl (State.txLoad i) (s, [])
    let start := s.rallyCount % s.txSpp i = 0
    s1.modTxs i fun x => { x with
      loaded := some s.rallyCount,
      pkt := if start then some (s.rallyCount, [words]) else x.pkt.map fun p => (p.1, words :: p.2) }
  else s

/-- LOAD_POINT (R28): the load point of a slot of a port, or of the present sample of a transmit stream. -/
def execLoadPoint (o : OutSlot) (s : State) : Host.Outcome State Fault Refusal :=
  s.runXo fun s =>
    match o with
    | .port p j => if 16 ≤ portKey p ∧ portKey p < 32 then s else s.loadPoint (portKey p) j.val
    | .net i => s.netLoad i.val

/-- A sample's bytes on the wire (R175). -/
def wireSample (width : Nat) (words : List Word) : List Byte :=
  words.flatMap fun w => beBytes width (w.toNat / 2 ^ (32 - 8 * width))

/-- The registers of a transmit leg. -/
def legIp (i : Nat) (leg : Bool) : Nat := if leg then NET_TXS_LEG1_IP i else NET_TXS_LEG0_IP i

/-- The address of MAC p. -/
def State.macAddr (s : State) (p : Nat) : List Byte :=
  leBytes 4 (s.reg (NET_MAC_ADDR_LO p)).toNat ++ leBytes 2 (s.fld (NET_MAC_ADDR_HI p) NET_MAC_ADDR_HI_addr)

/-- An IPv4 UDP datagram with its checksums: the fields of the IP header, the addresses, the ports and the data. -/
def udpFrame (tos ident flags ttl own ip sport dport : Nat) (data : List Byte) : List Byte :=
  let len := data.length + 8
  let head (sum : Nat) : List Byte :=
    beBytes 2 (0x4500 + tos) ++ beBytes 2 (20 + len) ++ beBytes 2 ident ++ beBytes 2 flags ++
      beBytes 1 ttl ++ beBytes 1 17 ++ beBytes 2 sum ++ beBytes 4 own ++ beBytes 4 ip
  let udp (sum : Nat) : List Byte := beBytes 2 sport ++ beBytes 2 dport ++ beBytes 2 len ++ beBytes 2 sum ++ data
  let us := inetSum (beBytes 4 own ++ beBytes 4 ip ++ beBytes 2 17 ++ beBytes 2 len ++ udp 0)
  head (inetSum (head 0)) ++ udp (if us = 0 then 65535 else us)

/-- An IEEE 802.1Q tag, or nothing. -/
def vlanTag (tagged : Bool) (pcp vid : Nat) : List Byte :=
  if tagged then beBytes 2 0x8100 ++ beBytes 2 (pcp * 2 ^ 13 + vid) else []

/-- A media frame (R188, R189): Ethernet, tag, IPv4, UDP and RTP headers and the payload. -/
def State.mediaFrame (s : State) (i : Nat) (leg : Bool) (rtp : List Byte) : List Byte :=
  let ipr := legIp i leg
  let ip := (s.reg ipr).toNat
  let cfg := ipr + 4
  let mac := s.fld cfg NET_TXS_LEG0_CFG_mac
  let dst := if ip / 2 ^ 28 = 14 then beBytes 3 0x01005E ++ beBytes 3 (ip % 2 ^ 23)
    else leBytes 4 (s.reg (ipr + 8)).toNat ++ leBytes 2 (s.fld (ipr + 12) NET_TXS_LEG0_DMAC_HI_addr)
  let tag := vlanTag (s.bit cfg NET_TXS_LEG0_CFG_tagged) (s.fld (ipr + 12) NET_TXS_LEG0_DMAC_HI_pcp) (s.fld cfg NET_TXS_LEG0_CFG_vid)
  let port := s.fld cfg NET_TXS_LEG0_CFG_port
  dst ++ s.macAddr mac ++ tag ++ beBytes 2 0x0800 ++ udpFrame (s.fld (NET_TXS_HDR i) NET_TXS_HDR_dscp * 4) 0 0x4000
    (s.fld (NET_TXS_HDR i) NET_TXS_HDR_ttl) (s.reg (NET_MAC_IP mac)).toNat ip port port rtp

/-- The RTP packet of samples from k on. -/
def State.rtpPacket (s : State) (i k : Nat) (samples : List (List Word)) : List Byte :=
  let width := sampleBytes (s.bit (NET_TXS_CTRL i) NET_TXS_CTRL_fmt)
  beBytes 1 0x80 ++ beBytes 1 (s.fld (NET_TXS_HDR i) NET_TXS_HDR_pt) ++ beBytes 2 (s.fld (NET_TXS_SEQ i) NET_TXS_SEQ_seq) ++
    beBytes 4 (k + (s.reg (NET_TXS_RTP_OFFSET i)).toNat) ++ beBytes 4 (s.reg (NET_TXS_SSRC i)).toNat ++
    samples.flatMap (wireSample width)

def State.mediaOf (s : State) (p : Nat) : List (List Byte) := tabGet noFrames s.net.mediaQ p

def State.setMedia (s : State) (p : Nat) (l : List (List Byte)) : State :=
  { s with net := { s.net with mediaQ := tabSet noFrames s.net.mediaQ p l } }

/-- A packet is queued on a leg's MAC, or dropped there when the queue is full or the link is down (R188). -/
def State.queueLeg (s : State) (i : Nat) (rtp : List Byte) (leg : Bool) : State :=
  let p := s.fld (legIp i leg + 4) NET_TXS_LEG0_CFG_mac
  if s.bit (NET_MAC_STAT p) NET_MAC_STAT_link && decide ((s.mediaOf p).length < 128) then
    s.setMedia p (s.mediaOf p ++ [s.mediaFrame i leg rtp])
  else
    let s1 := (s.bump (NET_TXS_DROPS i) (if leg then NET_TXS_DROPS_leg1 else NET_TXS_DROPS_leg0)).bump (NET_MAC_TX_DROPS p) whole
    (s1.setFld (NET_MAC_STAT p) NET_MAC_STAT_tx_ovf 1).txFlag i NET_TXS_STAT_drop

/-- A packet goes out on its legs, and the sequence number rises (R185, R188). -/
def State.sendPacket (s : State) (i k : Nat) (samples : List (List Word)) : State :=
  let rtp := s.rtpPacket i k samples
  let s1 := s.queueLeg i rtp false
  let s2 := if s.bit (NET_TXS_CTRL i) NET_TXS_CTRL_dual then s1.queueLeg i rtp true else s1
  (s2.setFld (NET_TXS_SEQ i) NET_TXS_SEQ_seq (s.fld (NET_TXS_SEQ i) NET_TXS_SEQ_seq + 1)).bump (NET_TXS_PKTS i) whole

/-- Reads frames k to k + n − 1 of a DMA source (R187). -/
def State.txFrames (s : State) (i k : Nat) : Nat → List (List Word) × State
  | 0 => ([], s)
  | n + 1 =>
    let ch := s.txChans i
    let a := (s.reg (NET_TXS_BUF_BASE i)).toNat +
      k % 2 ^ s.fld (NET_TXS_BUF_CFG i) NET_TXS_BUF_CFG_frames_log2 * dmaStride ch
    let (f, s1) := s.netFrame a (dmaStride ch / 8)
    let (l, s2) := s1.txFrames i ((k + 1) % 2 ^ 48) n
    (f.take ch :: l, s2)

/-- TX_PACKET_QUEUE (R185, R187, R188): at the Rally instant of k + spp, or of count 0 for the packet that the wrap cuts short.
A DMA source sends no packet that was under way as the stream started or at a realign jump (R193). DEDUCED, log entry 75. -/
def execTxPacketQueue (i : Fin 64) (s : State) : Host.Outcome State Fault Refusal :=
  s.runLit fun s =>
    let spp := s.txSpp i.val
    if !s.txOn i.val || s.rallyCount % spp != 0 then s
    else if s.bit (NET_TXS_CTRL i.val) NET_TXS_CTRL_src then
      let n := if s.rallyCount = 0 ∧ 2 ^ 48 % spp ≠ 0 then 2 ^ 48 % spp else spp
      let k := (s.rallyCount + 2 ^ 48 - n) % 2 ^ 48
      let whole := match (s.txs i.val).loaded with
        | some start => decide (0 ≤ countDiff k start)
        | none => true
      if s.ramOpen && whole then
        let (l, s1) := s.txFrames i.val k n
        s1.sendPacket i.val k l
      else s
    else match (s.txs i.val).pkt with
      | none => s
      | some (k, l) => (s.modTxs i.val fun x => { x with pkt := none }).sendPacket i.val k l.reverse

/-- The port identity of MAC p. -/
def State.ownIdentity (s : State) (p : Nat) : Nat :=
  ((s.reg TSU_CLKID_HI).toNat * 2 ^ 32 + (s.reg TSU_CLKID_LO).toNat) * 65536 +
    (if p = 0 then s.fld TSU_PORTNUM TSU_PORTNUM_mac0 else s.fld TSU_PORTNUM TSU_PORTNUM_mac1)

/-- A PTP timestamp of a time in ns. -/
def ptpStamp (t : Int) : List Byte :=
  let n := (t % (todWrap : Int)).toNat
  beBytes 6 (n / 1000000000) ++ beBytes 4 (n % 1000000000)

/-- A PTP message from MAC p: type, domain, correctionField, sequence ID, and what follows the common header. PRESUMED, log
entry 166. PRESUMED, log entry 166. -/
def State.ptpHeader (s : State) (p typ domain : Nat) (corr : Int) (seq : Nat) (body : List Byte) : List Byte :=
  beBytes 1 typ ++ beBytes 1 0x12 ++ beBytes 2 (34 + body.length) ++ beBytes 2 (domain * 256) ++ beBytes 2 0 ++
    beBytes 8 (wrapInt 64 corr) ++ beBytes 4 0 ++ beBytes 10 (s.ownIdentity p) ++ beBytes 2 seq ++
    beBytes 1 (if typ = 1 then 1 else 5) ++ beBytes 1 0x7F ++ body

/-- The message as MAC p sends it at time t (R107 to R110): a request carries t as originTimestamp and takes the path asymmetry off
its correctionField; an answer adds the turnaround time to that of the request. -/
def State.ptpMessageOut (s : State) (p : Nat) (f : PtpFrame) (t : Int) : List Byte :=
  let domain (d : Nat) : Nat := s.fld (TSU_SRV_CFG d) TSU_SRV_CFG_domain
  match f with
  | .delayReq d q => s.ptpHeader p 1 (domain d) (-s.asymOf p) q (ptpStamp t)
  | .pdelayReq d q => s.ptpHeader p 2 (domain d) (-s.asymOf p) q (ptpStamp t ++ beBytes 10 0)
  | .pdelayResp d _ q rx corr who => s.ptpHeader p 3 (domain d) (corr + (t - rx) * 65536) q (beBytes 10 0 ++ beBytes 10 who)

/-- The servo that a PTP message belongs to, whether it goes over UDP, and whether it is of the peer delay mechanism. -/
def State.ptpRoute (s : State) : PtpFrame → Nat × Bool × Bool
  | .delayReq d _ => (d, !s.bit (TSU_SRV_CFG d) TSU_SRV_CFG_transport, false)
  | .pdelayReq d _ => (d, !s.bit (TSU_SRV_CFG d) TSU_SRV_CFG_transport, true)
  | .pdelayResp d udp _ _ _ _ => (d, udp, true)

/-- A PTP message as a frame of MAC p, with the tag of its servo (R106, R107, R110). Service, identification, flags and time to live
of the IP header and the source port are not stated: they are free. -/
def State.ptpFrame (s : State) (p : Nat) (f : PtpFrame) (t : Int) : List Byte × State :=
  let (d, udp, peer) := s.ptpRoute f
  let v := TSU_SRV_VLAN d
  let m := s.ptpMessageOut p f t
  let tag := vlanTag (s.bit v TSU_SRV_VLAN_tagged) (s.fld v TSU_SRV_VLAN_pcp) (s.fld v TSU_SRV_VLAN_vid)
  let ip := if peer then 0xE000006B else 0xE0000181
  let (x, s1) := s.fresh
  let x := x.toNat
  let l := if udp then
      beBytes 3 0x01005E ++ beBytes 3 (ip % 2 ^ 23) ++ s.macAddr p ++ tag ++ beBytes 2 0x0800 ++
        udpFrame (x % 256) (x / 2 ^ 8 % 2 ^ 16) (x / 2 ^ 24 % 2 * 0x4000) (x / 2 ^ 32 % 256) (s.reg (NET_MAC_IP p)).toNat ip
          (x / 2 ^ 40 % 2 ^ 16) 319 m
    else beBytes 6 (if peer then 0x0180C200000E else 0x011B19000000) ++ s.macAddr p ++ tag ++ beBytes 2 0x88F7 ++ m
  (l ++ List.replicate (60 - l.length) 0, s1)

/-- MAC_TRANSMIT (R110, R188): PTP frames first, then media packets; host frames follow by HOST_TX_SEND. -/
def execMacTransmit (p : Fin 2) (s : State) : Host.Outcome State Fault Refusal :=
  s.runLit fun s =>
    if !s.macUp p.val then s
    else match tabGet noPtp s.tsu.ptpTx p.val with
      | f :: rest =>
        let (t, s1) := s.txStamp p.val
        let (l, s2) := s1.ptpFrame p.val f t
        ((s2.modTsu fun x => { x with ptpTx := tabSet noPtp x.ptpTx p.val rest }).ptpSent f t).ethSend p.val l
      | [] =>
        match s.mediaOf p.val with
        | f :: rest => (s.setMedia p.val rest).ethSend p.val f
        | [] => s

/-! ### Host frame rings (R190, R191) -/

def State.ringSlots (s : State) (cfg : Nat) : Nat := 2 ^ s.fld cfg NET_HRX_CFG_slots_log2

/-- The words of a slot header and a frame. -/
def slotWords (w0 ns sec : Nat) (bytes : List Byte) : List Nat :=
  let words := (List.range ((bytes.length + 7) / 8)).map fun k => leNat (slice bytes (8 * k) 8)
  (w0 + ns % 2 ^ 32 * 2 ^ 32) :: sec % 2 ^ 48 :: words

/-- A received frame for the host (R190). -/
def State.hostRx (s : State) (p : Nat) (bytes : List Byte) : State :=
  let n := s.ringSlots NET_HRX_CFG
  let head := s.fld NET_HRX_HEAD NET_HRX_HEAD_index % n
  let next := (head + 1) % n
  if next = s.fld NET_HRX_TAIL NET_HRX_TAIL_index % n then s.setFld (NET_MAC_STAT p) NET_MAC_STAT_rx_ovf 1
  else
    let (t, s1) := s.rxStamp p
    let t := (t % (todWrap : Int)).toNat
    let w0 := bytes.length + p * 2 ^ 16 + 2 ^ 17
    let s2 := s1.dmaWriteWords midNet ((s.reg NET_HRX_BASE).toNat + head * 2048)
      (slotWords w0 (t % 1000000000) (t / 1000000000) bytes)
    (s2.setReg NET_HRX_HEAD (BitVec.ofNat 32 next)).raise 428

/-- Reads n 64-bit words; none when one returns ECC (R317). -/
def State.readWords (s : State) (a : Nat) : Nat → Option (List Nat) × State
  | 0 => (some [], s)
  | n + 1 =>
    let (r, s1) := s.dmaRead midNet a .b64
    let (l, s2) := s1.readWords (a + 8) n
    (match r, l with
      | some v, some l => some (v :: l)
      | _, _ => none, s2)

/-- HTX_TAIL moves past a slot. -/
def State.htxAdvance (s : State) : State :=
  s.setReg NET_HTX_TAIL (BitVec.ofNat 32 ((s.fld NET_HTX_TAIL NET_HTX_TAIL_index + 1) % s.ringSlots NET_HTX_CFG))

/-- HOST_TX_SEND (R188, R191, R317): the slot at HTX_TAIL is sent on its MAC, behind PTP and media frames, or skipped.
DEDUCED, log entry 76. -/
def execHostTxSend (s : State) : Host.Outcome State Fault Refusal :=
  s.runLit fun s =>
    let n := s.ringSlots NET_HTX_CFG
    let tail := s.fld NET_HTX_TAIL NET_HTX_TAIL_index % n
    let a := (s.reg NET_HTX_BASE).toNat + tail * 2048
    if tail = s.fld NET_HTX_HEAD NET_HTX_HEAD_index % n || !s.ramOpen then s
    else
      let (hd, s1) := s.readWords a 2
      match hd with
      | some (h :: _) =>
        let len := h % 65536
        let p := h / 2 ^ 16 % 2
        if len < 60 ∨ 1518 < len then (s1.bump (NET_MAC_TX_DROPS p) whole).htxAdvance
        else
          let (body, s2) := s1.readWords (a + 16) ((len + 7) / 8)
          match body with
          | none => (s2.bump (NET_MAC_TX_DROPS p) whole).htxAdvance
          | some l =>
            if !s.macUp p || tabGet noPtp s.tsu.ptpTx p != [] || s.mediaOf p != [] then s
            else
              let (t, s3) := s2.txStamp p
              let t := (t % (todWrap : Int)).toNat
              let s4 := s3.ethSend p ((l.flatMap (leBytes 8)).take len)
              let s5 := if bitOf h 17 then
                  s4.dmaWriteWords midNet a (slotWords (h % 2 ^ 31 + 2 ^ 31) (t % 1000000000) (t / 1000000000) [])
                else s4
              s5.htxAdvance.raise 428
      | _ => (s1.bump (NET_MAC_TX_DROPS 0) whole).htxAdvance

/-! ### Receive classification (R107, R168, R170, R171) -/

/-- A frame's tags: number of tags (2 for two, or an 0x88A8 tag), the vid, and the place of its Ethertype. -/
def frameTags (l : List Byte) : Nat × Nat × Nat :=
  if beAt l 12 2 = 0x88A8 then (2, 0, 16)
  else if beAt l 12 2 = 0x8100 then
    if beAt l 16 2 = 0x8100 ∨ beAt l 16 2 = 0x88A8 then (2, beAt l 14 2 % 4096, 20) else (1, beAt l 14 2 % 4096, 16)
  else (0, 0, 12)

/-- The UDP datagram of an IPv4 frame that is no fragment and has a good header checksum: whether its header has options, source
and destination address, destination port, whether a non-zero UDP checksum verifies, and the payload. -/
structure Udp where
  options : Bool
  src : Nat
  dst : Nat
  port : Nat
  sumOk : Bool
  data : List Byte
deriving DecidableEq, Repr

def parseUdp (l : List Byte) (ety : Nat) : Option Udp :=
  let h := ety + 2
  let n := 4 * (beAt l h 1 % 16)
  let ip := slice l h n
  if beAt l ety 2 = 0x0800 ∧ 20 ≤ n ∧ ip.length = n ∧ beAt ip 0 1 / 16 = 4 ∧ beAt ip 6 2 % 2 ^ 14 = 0 ∧ beAt ip 9 1 = 17 ∧
      fold16 (sum16 ip) = 65535 then
    let len := beAt l (h + n + 4) 2
    let dg := slice l (h + n) len
    let pseudo := slice ip 12 8 ++ beBytes 2 17 ++ beBytes 2 len
    let ok := len = dg.length && decide (8 ≤ len) && (beAt dg 6 2 = 0 || fold16 (sum16 (pseudo ++ dg)) = 65535)
    some ⟨20 < n, beAt ip 12 4, beAt ip 16 4, beAt dg 2 2, ok, dg.drop 8⟩
  else none

/-- A leg of a receive stream matches a datagram (R170, R171). -/
def State.legMatch (s : State) (i p : Nat) (leg : Bool) (tags vid : Nat) (u : Udp) : Bool :=
  let ipr := if leg then NET_RXS_LEG1_IP i else NET_RXS_LEG0_IP i
  let cfg := ipr + 4
  s.rxOn i && !u.options && (!leg || s.bit (NET_RXS_CTRL i) NET_RXS_CTRL_dual) && s.fld cfg NET_RXS_LEG0_CFG_mac = p &&
    (s.reg ipr).toNat = u.dst && s.fld cfg NET_RXS_LEG0_CFG_port = u.port &&
    (if s.bit cfg NET_RXS_LEG0_CFG_tagged then tags = 1 && vid = s.fld cfg NET_RXS_LEG0_CFG_vid
     else tags = 0 || (tags = 1 && vid = 0)) &&
    (s.reg (ipr + 8) = 0 || (s.reg (ipr + 8)).toNat = u.src)

/-- The message of a PTP frame, if it is one: over UDP/IPv4 (true) or Ethertype 0x88F7. PRESUMED, log entry 70. -/
def ptpMessage (l : List Byte) (ety : Nat) : Option (Bool × List Byte) :=
  if beAt l ety 2 = 0x88F7 then some (false, l.drop (ety + 2))
  else match parseUdp l ety with
    | none => none
    | some u => if u.port = 319 ∨ u.port = 320 then some (true, u.data) else none

/-- A PTP timestamp in ns, and a correctionField. -/
def ptpTime (m : List Byte) (i : Nat) : Int := (beAt m i 6 * 1000000000 + beAt m (i + 6) 4 : Nat)

def ptpCorr (m : List Byte) : Int := signed 64 (beAt m 8 8)

/-- Servo d consumes this message (R107). -/
def State.srvConsumes (s : State) (d p : Nat) (udp : Bool) (tags vid : Nat) (m : List Byte) : Bool :=
  let c := TSU_SRV_CFG d
  let ty := beAt m 0 1 % 16
  let parent := (s.servo d).parent
  let p2p := s.bit c TSU_SRV_CFG_delay
  let mine := beAt m 44 10 = s.ownIdentity p
  s.srvOn d && s.srvPort d = p && s.bit c TSU_SRV_CFG_transport = !udp && s.fld c TSU_SRV_CFG_domain = beAt m 4 1 &&
    beAt m 20 8 = parent % 2 ^ 64 && beAt m 28 2 = parent / 2 ^ 64 &&
    (!s.bit (TSU_SRV_VLAN d) TSU_SRV_VLAN_tagged || (tags = 1 && vid = s.fld (TSU_SRV_VLAN d) TSU_SRV_VLAN_vid)) &&
    (ty = 0 || ty = 8 || (ty = 9 && !p2p && mine) || ((ty = 3 || ty = 10) && p2p && mine))

/-- A consumed message acts on its servo. -/
def State.srvMessage (s : State) (d : Nat) (m : List Byte) : State :=
  let seq := beAt m 30 2
  let two := bitOf (beAt m 6 1) 1
  match beAt m 0 1 % 16 with
  | 0 => s.opSync d two seq (ptpTime m 34) (ptpCorr m)
  | 8 => s.opFollowUp d seq (ptpTime m 34) (ptpCorr m)
  | 9 => s.opDelayResp d seq (ptpTime m 34) (ptpCorr m)
  | 3 => s.opPdelayResp d false two seq (ptpTime m 34) (ptpCorr m)
  | 10 => s.opPdelayResp d true two seq (ptpTime m 34) (ptpCorr m)
  | _ => s

/-- A PTP message: the servos that consume it take it; any other goes to the host ring, a Pdelay_Req beside being answered
(R107, R108). -/
def State.ptpReceive (s : State) (p : Nat) (udp : Bool) (tags vid : Nat) (m l : List Byte) : State :=
  let takers := (List.range 2).filter fun d => s.srvConsumes d p udp tags vid m
  let s1 := if beAt m 0 1 % 16 = 2 then
      s.opPdelayReq p (beAt m 4 1) (beAt m 30 2) ⟨ptpCorr m, BitVec.ofNat 80 (beAt m 20 10), udp⟩
    else s
  if takers = [] then s1.hostRx p l else takers.foldl (fun t d => t.srvMessage d m) s1

/-- The host filter (R170): own address, broadcast, or a multicast whose hash bit is set. -/
def State.hostTakes (s : State) (p : Nat) (l : List Byte) : Bool :=
  let c := NET_MAC_CTRL p
  let da := slice l 0 6
  let own := leBytes 4 (s.reg (NET_MAC_ADDR_LO p)).toNat ++ leBytes 2 (s.fld (NET_MAC_ADDR_HI p) NET_MAC_ADDR_HI_addr)
  let h := crc32 da / 2 ^ 26
  let bcast := beNat da = 2 ^ 48 - 1
  s.bit c NET_MAC_CTRL_host_rx &&
    (da = own || (bcast && s.bit c NET_MAC_CTRL_bcast) ||
      (!bcast && beAt l 0 1 % 2 = 1 &&
        (s.bit c NET_MAC_CTRL_host_mc_all || bitOf (s.reg (NET_MAC_MC_HASH p (h / 32))).toNat (h % 32))))

/-- A good frame by the first rule of R170 that matches. -/
def State.classify (s : State) (p : Nat) (l : List Byte) : State :=
  let (tags, vid, ety) := frameTags l
  match ptpMessage l ety with
  | some (udp, m) => s.ptpReceive p udp tags vid m l
  | none =>
    let legs := match parseUdp l ety with
      | none => []
      | some u => (List.range 64).flatMap fun i =>
        ([false, true].filter fun leg => s.legMatch i p leg tags vid u).map fun leg => (i, leg, u)
    if legs != [] then legs.foldl (fun t e => t.rxPacket e.1 e.2.1 e.2.2.sumOk e.2.2.data) s
    else if s.hostTakes p l then s.hostRx p l
    else s.bump (NET_MAC_RX_UNMATCHED p) whole

/-- A PAUSE frame (R168). -/
def isPause (l : List Byte) : Bool := beAt l 12 2 = 0x8808 && beAt l 14 2 = 1

/-- ETH_FRAME_RECEIVE (R168, R170): a frame's bytes without the FCS. PAUSE frames are discarded. DEDUCED, log entry 77.
DEDUCED, log entry 78. -/
def execEthFrameReceive (p : Fin 2) (bytes : List Byte) (fcsOk : Bool) (s : State) : Host.Outcome State Fault Refusal :=
  s.runLit fun s =>
    if !s.bit (NET_MAC_CTRL p.val) NET_MAC_CTRL_en || !s.ramOpen then s
    else if !fcsOk || decide (bytes.length < 60) || decide (1518 < bytes.length) then s.bump (NET_MAC_RX_BAD p.val) whole
    else
      let s1 := s.bump (NET_MAC_RX_FRAMES p.val) whole
      if isPause bytes then s1 else s1.classify p.val bytes

/-- NET_LINK_CHANGE (R168): what the lane reports. In SGMII the link is up only at 1000 Mb/s and full duplex. -/
def execNetLinkChange (p : Fin 2) (lane : LaneStatus) (s : State) : Host.Outcome State Fault Refusal :=
  s.runLit fun s =>
    let up := lane.link && (s.bit (NET_MAC_CTRL p.val) NET_MAC_CTRL_mode || (lane.gigabit && lane.fullDuplex))
    if s.bit (NET_MAC_STAT p.val) NET_MAC_STAT_link = up then s
    else (s.setFld (NET_MAC_STAT p.val) NET_MAC_STAT_link (b2n up)).setFld (NET_MAC_STAT p.val) NET_MAC_STAT_link_chg 1

/-- A realign jump (R193): arrival marks and mappings go, and packets under way are discarded. -/
def State.netJump (s : State) : State :=
  (List.range 64).foldl (fun t i =>
    let t1 := if t.rxOn i then t.modRxs i fun x => { x with marks := [], map := none, newest := none, last := s.rallyCount } else t
    if t.txOn i then t1.modTxs i fun x => { x with
      pkt := none, loaded := if s.bit (NET_TXS_CTRL i) NET_TXS_CTRL_src then some s.rallyCount else none }
    else t1) s

/-! ### Stream and MAC registers (R169, R173, R174, R177, R181, R192) -/

/-- Channels of the enabled streams of a direction, without stream i. -/
def State.chansOn (s : State) (tx : Bool) (i : Nat) : Nat :=
  (((List.range 64).filter fun n => n != i && if tx then s.txOn n else s.rxOn n).map
    fun n => if tx then s.txChans n else s.rxChans n).sum

/-- A buffer of 2^f frames of n channels at a base lies in the Mantel (R164). -/
def bufferOk (base f n : Nat) : Bool := 1 ≤ f && f ≤ 12 && base + 2 ^ f * dmaStride n ≤ 0x800000

/-- A write to NET_RXS_CTRL(i). -/
def writeRxsCtrl (i : Nat) (v : Word) : WriteEff := fun s =>
  let a := NET_RXS_CTRL i
  let en := NET_RXS_CTRL_en.get v = 1
  let n := NET_RXS_CTRL_chans.get v + 1
  let f := s.fld (NET_RXS_BUF_CFG i) NET_RXS_BUF_CFG_frames_log2
  let d := s.fld (NET_RXS_TIMING i) NET_RXS_TIMING_d
  let mode := NET_RXS_CTRL_rate_mode.get v
  if s.rxOn i && ((s.reg a ^^^ v) &&& 0x0FFF1FFE) != 0 then (.slverr, s)
  else if mode = 1 ∨ mode = 3 then (.slverr, s)
  else if en && !s.rxOn i && (decide (512 < (s.chansOn false i + n) * s.rateMult) || d = 0 || decide (2 ^ f ≤ d) ||
      !bufferOk (s.reg (NET_RXS_BUF_BASE i)).toNat f n) then (.slverr, s)
  else
    let s1 := (s.plainWrite a v).setFld (NET_RXS_STAT i) NET_RXS_STAT_running (b2n en)
    (.ok, if en && !s.rxOn i then s1.modRxs i fun _ => { rxDefault 0 with last := s.rallyCount } else s1)

/-- A write to NET_TXS_CTRL(i). -/
def writeTxsCtrl (i : Nat) (v : Word) : WriteEff := fun s =>
  let a := NET_TXS_CTRL i
  let en := NET_TXS_CTRL_en.get v = 1
  let n := NET_TXS_CTRL_chans.get v + 1
  let spp := sppOf (NET_TXS_CTRL_spp.get v) s.rateMult
  let f := s.fld (NET_TXS_BUF_CFG i) NET_TXS_BUF_CFG_frames_log2
  if s.txOn i && ((s.reg a ^^^ v) &&& 0x0FFF0FF6) != 0 then (.slverr, s)
  else if en && !s.txOn i && (decide (512 < (s.chansOn true i + n) * s.rateMult) ||
      decide (1440 < n * spp * sampleBytes (NET_TXS_CTRL_fmt.get v = 1)) ||
      (NET_TXS_CTRL_src.get v = 1 && !bufferOk (s.reg (NET_TXS_BUF_BASE i)).toNat f n)) then (.slverr, s)
  else
    let s1 := (s.plainWrite a v).setFld (NET_TXS_STAT i) NET_TXS_STAT_running (b2n en)
    let start := if NET_TXS_CTRL_src.get v = 1 then some s.rallyCount else none
    (.ok, if en && !s.txOn i then s1.modTxs i fun x => { txDefault 0 with last := x.last, loaded := start }
      else if en then s1 else s1.modTxs i fun x => { x with pkt := none, hold := [], loaded := none })

/-- NET_STREAM_ENABLE (R173): a write of 1 to a stream's CTRL.en, with the other fields as v gives them. -/
def execNetStreamEnable (m : Mid) (tx : Bool) (i : Fin 64) (v : Word) (s : State) : Host.Outcome State Fault Refusal :=
  s.run fun s =>
    if tx then s.writeReg m.val (NET_TXS_CTRL i.val) (v ||| 1) (writeTxsCtrl i.val (v ||| 1))
    else s.writeReg m.val (NET_RXS_CTRL i.val) (v ||| 1) (writeRxsCtrl i.val (v ||| 1))

/-- A write to a register of NET (R169, R192): while en is 1 every register of a MAC or of a stream refuses it, but for what the
rule names. -/
def netWrite (a : Nat) (v : Word) : WriteEff := fun s =>
  let plain : Resp × State := (.ok, s.plainWrite a v)
  let quiet (on : Bool) : Resp × State := if on then (.slverr, s) else plain
  if a < NET_MAC_CTRL 2 then
    let p := (a - NET_MAC_CTRL 0) / 0x100
    let on := s.bit (NET_MAC_CTRL p) NET_MAC_CTRL_en
    if a = NET_MAC_CTRL p then (if on && ((s.reg a ^^^ v) &&& 2) != 0 then (.slverr, s) else plain)
    else if a = NET_MAC_MC_HASH p 0 ∨ a = NET_MAC_MC_HASH p 1 ∨ (regRow a).isNone then plain
    else quiet on
  else if a = NET_HRX_BASE ∨ a = NET_HRX_CFG then
    if s.fld NET_HRX_HEAD NET_HRX_HEAD_index ≠ s.fld NET_HRX_TAIL NET_HRX_TAIL_index then (.slverr, s)
    else if a = NET_HRX_CFG ∧ ¬ (1 ≤ NET_HRX_CFG_slots_log2.get v ∧ NET_HRX_CFG_slots_log2.get v ≤ 10) then (.slverr, s)
    else plain
  else if a = NET_HTX_BASE ∨ a = NET_HTX_CFG then
    if s.fld NET_HTX_HEAD NET_HTX_HEAD_index ≠ s.fld NET_HTX_TAIL NET_HTX_TAIL_index then (.slverr, s)
    else if a = NET_HTX_CFG ∧ ¬ (1 ≤ NET_HTX_CFG_slots_log2.get v ∧ NET_HTX_CFG_slots_log2.get v ≤ 10) then (.slverr, s)
    else plain
  else if NET_RXS_CTRL 0 ≤ a ∧ a < NET_RXS_CTRL 64 then
    let i := (a - NET_RXS_CTRL 0) / 0x40
    if a = NET_RXS_CTRL i then writeRxsCtrl i v s
    else if a = NET_RXS_TIMING i ∧ NET_RXS_TIMING_d.get v = 0 then (.slverr, s)
    else if a = NET_RXS_BUF_CFG i ∧ ¬ (1 ≤ NET_RXS_BUF_CFG_frames_log2.get v ∧ NET_RXS_BUF_CFG_frames_log2.get v ≤ 12) then
      (.slverr, s)
    else quiet (s.rxOn i && (regRow a).isSome)
  else if NET_RXS_STAT 0 ≤ a ∧ a < NET_RXS_STAT 64 then quiet (s.rxOn ((a - NET_RXS_STAT 0) / 0x40) && (regRow a).isSome)
  else if NET_TXS_CTRL 0 ≤ a ∧ a < NET_TXS_CTRL 64 then
    let i := (a - NET_TXS_CTRL 0) / 0x40
    if a = NET_TXS_CTRL i then writeTxsCtrl i v s
    else if a = NET_TXS_BUF_CFG i ∧ ¬ (1 ≤ NET_TXS_BUF_CFG_frames_log2.get v ∧ NET_TXS_BUF_CFG_frames_log2.get v ≤ 12) then
      (.slverr, s)
    else quiet (s.txOn i && (regRow a).isSome)
  else if NET_TXS_STAT 0 ≤ a ∧ a < NET_TXS_STAT 64 then quiet (s.txOn ((a - NET_TXS_STAT 0) / 0x10) && (regRow a).isSome)
  else plain

end Sys2Proof.Machine
end

