-- ==== Sys2Proof/Machine/ChmLink.lean ====
section
/-! DEFINITION. The Chimney's links: packets and their coding, topology and routes, sending, acknowledgements, Lets and
DOWN (15 R399 to R408, R423, R424). -/

namespace Sys2Proof.Machine

/-! ### Access to the Chimney's state -/

def chmPortReset : ChmPort :=
  ⟨false, 0, [], 0, [], [], 0, false, false, [], 0, none, 0, [], 0, none, 0, [], [], [], [], [], [], [], [], none, [], [], [], 0⟩

def chmPortDefault (_ : Nat) : ChmPort := chmPortReset

def noForward (_ : Nat) : Option ChmFwd := none

def State.modChm (s : State) (f : Chm → Chm) : State := { s with chm := f s.chm }

def State.chmPort (s : State) (p : Nat) : ChmPort := tabGet chmPortDefault s.chm.ports p

def State.modChmPort (s : State) (p : Nat) (f : ChmPort → ChmPort) : State :=
  s.modChm fun c => { c with ports := tabSet chmPortDefault c.ports p (f (s.chmPort p)) }

/-- This engine's ENGINE_ID. -/
def State.chmId (s : State) : Nat := s.fld CHM_ID CHM_ID_id

/-- The Chimney and the port are enabled. -/
def State.chmOn (s : State) (p : Nat) : Bool := s.bit CHM_CTRL CHM_CTRL_en && s.bit (CHM_P_CTRL p) CHM_P_CTRL_en

abbrev chmDown := 0
abbrev chmTraining := 1
abbrev chmUp := 2
abbrev chmIsolated := 3

def State.chmState (s : State) (p : Nat) : Nat := s.fld (CHM_P_STAT p) CHM_P_STAT_state

/-- The Flue station of a port (Table: Edge stations). -/
def chmStation : Nat → Nat
  | 0 => 32
  | 1 => 33
  | 2 => 42
  | _ => 43

/-! ### Line coding (R399 to R401) -/

/-- The headers of data and control blocks. -/
abbrev hdrData : Nat := 2
abbrev hdrCtrl : Nat := 1

/-- One bit of the scrambler 1 + x^28 + x^31 over the last 31 bits sent, newest lowest: s(n) = d(n) xor s(n−28) xor s(n−31). The
receiver takes its bits through the same sum. -/
def scrambleBit (h d : Nat) : Nat := (d + h / 2 ^ 27 + h / 2 ^ 30) % 2

/-- The first n payload bits scrambled, and the bits sent last. -/
def scramble : Nat → Nat → Nat → Nat × Nat
  | 0, h, _ => (0, h)
  | n + 1, h, v =>
    let b := scrambleBit h (v % 2)
    let (out, h2) := scramble n ((2 * h + b) % 2 ^ 31) (v / 2)
    (b + 2 * out, h2)

/-- The first n payload bits descrambled, and the bits received last: d(n) = s(n) xor s(n−28) xor s(n−31). -/
def descramble : Nat → Nat → Nat → Nat × Nat
  | 0, h, _ => (0, h)
  | n + 1, h, v =>
    let (out, h2) := descramble n ((2 * h + v % 2) % 2 ^ 31) (v / 2)
    (scrambleBit h (v % 2) + 2 * out, h2)

/-- Blocks (header, payload) as they go onto the lane: the header's bits first, never scrambled, then the payload's, byte 0 first
and each byte from its lowest bit. -/
def laneOut : Nat → List (Nat × Nat) → List (BitVec 66) × Nat
  | h, [] => ([], h)
  | h, (hdr, payload) :: rest =>
    let (bits, h1) := scramble 64 h payload
    let (l, h2) := laneOut h1 rest
    (BitVec.ofNat 66 (hdr % 4 + 4 * bits) :: l, h2)

/-- The blocks that a receiver finds on its lane. -/
def laneIn : Nat → List (BitVec 66) → List (Nat × Nat)
  | _, [] => []
  | h, b :: rest =>
    let (payload, h1) := descramble 64 h (b.toNat / 4)
    (b.toNat % 4, payload) :: laneIn h1 rest

/-- Headers of blocks: 0b10 is data, 0b01 control, any other invalid. -/
def headerValid (h : BitVec 2) : Bool := h = 2 || h = 1

/-- One header in a receiver's lock state (R401). -/
def ChmPort.header (c : ChmPort) (h : BitVec 2) : ChmPort :=
  let bad := !headerValid h
  let run := if bad then 0 else c.run + 1
  let past := (bad :: c.hdrs).take 1024
  if c.lock then
    if 16 ≤ past.count true then { c with lock := false, run := 0, hdrs := [] } else { c with run := run, hdrs := past }
  else if 64 ≤ run then { c with lock := true, run := run, hdrs := [] }
  else { c with run := run, hdrs := [] }

/-! ### Fields of packets (R402) -/

end Sys2Proof.Machine

namespace Sys2Proof

/-- The bytes that the CRC covers: the header, then the data blocks, in sent order. -/
def ChmPacket.bytes (k : ChmPacket) : List Byte :=
  Machine.leBytes 7 k.hdr.toNat ++ k.data.flatMap fun d => Machine.leBytes 8 d.toNat

def ChmPacket.crc (k : ChmPacket) : Nat := Machine.crc32c k.bytes

def ChmPacket.crcOk (k : ChmPacket) : Bool := k.fin.toNat % 2 ^ 32 = k.crc

def ChmPacket.ackField (k : ChmPacket) : Nat := k.fin.toNat / 2 ^ 32 % 2 ^ 16

def ChmPacket.poison (k : ChmPacket) : Bool := Machine.bitOf k.fin.toNat 48

/-- A field [hi:lo] of the header. -/
def ChmPacket.field (k : ChmPacket) (hi lo : Nat) : Nat := k.hdr.toNat / 2 ^ lo % 2 ^ (hi + 1 - lo)

def ChmPacket.seq (k : ChmPacket) : Nat := k.field 11 0

def ChmPacket.kind (k : ChmPacket) : Nat := k.field 15 12
def ChmPacket.dest (k : ChmPacket) : Nat := k.field 21 16
def ChmPacket.src (k : ChmPacket) : Nat := k.field 27 22
def ChmPacket.tag (k : ChmPacket) : Nat := k.field 35 28
def ChmPacket.word (k : ChmPacket) : Nat := ((k.data.getD 0 0)).toNat

/-- Blocks of a packet with its START and END. -/
def ChmPacket.blocks (k : ChmPacket) : Nat := k.data.length + 2

/-- A packet as blocks: START, data blocks, END. -/
def ChmPacket.lane (k : ChmPacket) : List (Nat × Nat) :=
  (Machine.hdrCtrl, k.typ.toNat + k.hdr.toNat * 2 ^ 8) :: k.data.map (fun d => (Machine.hdrData, d.toNat)) ++
    [(Machine.hdrCtrl, 0xE1 + k.fin.toNat * 2 ^ 8)]

/-- The blocks that were received. -/
def ChmLine.read (l : ChmLine) : List (Nat × Nat) := Machine.laneIn l.before.toNat l.blocks

/-- A packet of a START block and the blocks after it, up to and without the END. -/
def packetOf (start : Nat) (mid : List (Nat × Nat)) (fin : Nat) : ChmPacket :=
  ⟨BitVec.ofNat 8 start, BitVec.ofNat 56 (start / 2 ^ 8), mid.map fun b => BitVec.ofNat 64 b.2, BitVec.ofNat 56 fin⟩

/-- The packet on a line. Where the blocks are no START, data blocks and END, it fails as its CRC would.
DEDUCED, log entry 169. -/
def ChmLine.packet (l : ChmLine) : ChmPacket :=
  match l.read with
  | [] => ⟨0, 0, [], 1⟩
  | (h, start) :: rest =>
    let mid := rest.dropLast
    let last := rest.getLastD (0, 0)
    let k := packetOf start mid (last.2 / 2 ^ 8)
    if h = Machine.hdrCtrl && mid.all (fun b => b.1 = Machine.hdrData) && last.1 = Machine.hdrCtrl && last.2 % 2 ^ 8 = 0xE1 then k
    else { k with fin := BitVec.ofNat 56 (k.crc + 1) }

/-- The part of a packet that has arrived where its END is still to come. -/
def ChmLine.part (l : ChmLine) : Option ChmPacket :=
  match l.read with
  | [] => none
  | (h, start) :: rest =>
    if h = Machine.hdrCtrl && rest.all fun b => b.1 = Machine.hdrData then some (packetOf start rest 0) else none

end Sys2Proof

namespace Sys2Proof.Machine

/-! ### Packets (R402) -/

abbrev typRally : Byte := 0x2D
abbrev typAudio : Byte := 0x33
abbrev typCtrl : Byte := 0x4B
abbrev typTrain : Byte := 0x66

abbrev kindRequest := 0
abbrev kindCompletion := 1
abbrev kindKickoff := 2
abbrev kindReport := 3
abbrev kindEvent := 4
abbrev kindBeacon := 5

/-- A packet of a type: header and data blocks; the END's CRC and acknowledgement are filled in as it is sent. -/
def mkPacket (typ : Byte) (hdr : Nat) (data : List Nat) (poison : Bool) : ChmPacket :=
  ⟨typ, BitVec.ofNat 56 hdr, data.map (BitVec.ofNat 64), BitVec.ofNat 56 (b2n poison * 2 ^ 48)⟩

/-- A CTRL packet without its seq (Table: Packet types). -/
def mkCtrl (kind dest src tag : Nat) (write : Bool) (resp data : Nat) : ChmPacket :=
  mkPacket typCtrl (kind * 2 ^ 12 + dest * 2 ^ 16 + src * 2 ^ 22 + tag * 2 ^ 28 + b2n write * 2 ^ 36 + resp * 2 ^ 37)
    [data] false

/-! ### Topology (R406) -/

/-- A system: topology code, columns (or engines of a ring), rows. -/
structure ChmNet where
  topo : Nat
  x : Nat
  y : Nat

def State.chmNet (s : State) : ChmNet :=
  ⟨s.fld CHM_CTRL CHM_CTRL_topo, s.fld CHM_CTRL CHM_CTRL_xdim + 1,
    if s.fld CHM_CTRL CHM_CTRL_topo = 2 then s.fld CHM_CTRL CHM_CTRL_ydim + 1 else 1⟩

def ChmNet.size (n : ChmNet) : Nat := n.x * n.y

/-- The dimensions fit the topology (R406). -/
def ChmNet.ok (n : ChmNet) : Bool :=
  if n.topo = 2 then n.x ≤ 8 && n.y ≤ 8 && n.size ≤ 64 else n.topo ≤ 1 && n.x ≤ 64

/-- The engine that a port faces. On rings the positions are the ENGINE_IDs. DEDUCED, log entry 108. -/
def ChmNet.beyond (n : ChmNet) (e p : Nat) : Option Nat :=
  if n.topo = 2 then
    let x := e % n.x
    let y := e / n.x
    match p with
    | 0 => some (y * n.x + (x + n.x - 1) % n.x)
    | 1 => some (y * n.x + (x + 1) % n.x)
    | 2 => some ((y + n.y - 1) % n.y * n.x + x)
    | _ => some ((y + 1) % n.y * n.x + x)
  else if p < 2 || n.topo = 1 then
    some (if p % 2 = 1 then (e + 1) % n.x else (e + n.x - 1) % n.x)
  else none

/-- The port at the other end of a link. -/
def facing (p : Nat) : Nat := if p % 2 = 0 then p + 1 else p - 1

/-- The shorter way round k positions to a distance d forward: the forward port on a tie. -/
def shorter (d k fwd back : Nat) : Nat := if 2 * d ≤ k then fwd else back

/-- The first port of the dimension-ordered path from e to t. -/
def ChmNet.dimHop (n : ChmNet) (e t : Nat) : Option Nat :=
  if e = t then none
  else
    let dx := (t % n.x + n.x - e % n.x) % n.x
    let dy := (t / n.x + n.y - e / n.x) % n.y
    if dx != 0 then some (shorter dx n.x 1 0) else if dy != 0 then some (shorter dy n.y 3 2) else none

/-- Every link of the dimension-ordered path from e to t is UP. -/
def ChmNet.dimUp (n : ChmNet) (up : Nat → Nat → Bool) (t : Nat) : Nat → Nat → Bool
  | 0, e => e = t
  | k + 1, e =>
    match n.dimHop e t with
    | none => true
    | some p => up e p && n.dimUp up t k ((n.beyond e p).getD e)

/-- Engines by their distance from t over UP links: those of the front are d links away. -/
def ChmNet.spread (n : ChmNet) (up : Nat → Nat → Bool) : Nat → Nat → List Nat → List (Nat × Nat) → List (Nat × Nat)
  | 0, _, _, seen => seen
  | k + 1, d, front, seen =>
    let next := front.flatMap fun e => (List.range 4).filterMap fun p =>
      match n.beyond e p with
      | some v => if up e p && !(seen.any fun x => x.1 = v) then some v else none
      | none => none
    let fresh := next.eraseDups
    n.spread up k (d + 1) fresh (seen ++ fresh.map fun e => (e, d + 1))

/-- The first port of a path from e to t: the dimension-ordered path while its links are UP, else a shortest path over UP
links, with ties going to the lower port number (R406). An ID beyond the system has no path. -/
def ChmNet.hop (n : ChmNet) (up : Nat → Nat → Bool) (e t : Nat) : Option Nat :=
  if n.size ≤ t then none
  else if n.dimUp up t 64 e then n.dimHop e t
  else
    let far := n.spread up 64 0 [t] [(t, 0)]
    match far.find? fun x => x.1 = e with
    | none => none
    | some (_, d) => (List.range 4).find? fun p =>
      match n.beyond e p with
      | some v => up e p && far.any fun x => x.1 = v && x.2 + 1 = d
      | none => false

/-- The engines and ports of the path from e to t. -/
def ChmNet.path (n : ChmNet) (up : Nat → Nat → Bool) (t : Nat) : Nat → Nat → List (Nat × Nat)
  | 0, _ => []
  | k + 1, e =>
    match n.hop up e t with
    | none => []
    | some p => (e, p) :: n.path up t k ((n.beyond e p).getD t)

/-- The ports by which engine e forwards a broadcast from engine src (R407). -/
def ChmNet.treePorts (n : ChmNet) (up : Nat → Nat → Bool) (src e : Nat) : List Nat :=
  let links := (List.range n.size).flatMap fun t => n.path up t 64 src
  (List.range 4).filter fun p => links.any fun l => l = (e, p)

/-- A link is UP as this engine knows it: its own ports' states, and for links elsewhere what it has been told.
DESIGN CHOICE, log entry 109. -/
def State.linkUp (s : State) (e p : Nat) : Bool :=
  let me := s.chmId
  let n := s.chmNet
  let own (q : Nat) : Bool := s.chmState q = chmUp
  if e = me then own p
  else if n.beyond e p = some me then own (facing p)
  else (n.beyond e p).isSome && !(s.chm.downLinks.any fun l => l = (e, p) || some l = (n.beyond e p).map fun v => (v, facing p))

/-- The port towards another engine; none when it is unreachable. -/
def State.chmHop (s : State) (t : Nat) : Option Nat := s.chmNet.hop s.linkUp s.chmId t

/-- A path to another engine exists. -/
def State.chmReach (s : State) (t : Nat) : Bool := t != s.chmId && (s.chmHop t).isSome

/-- The ports of a broadcast from engine src at this engine. -/
def State.chmTree (s : State) (src : Nat) : List Nat := s.chmNet.treePorts s.linkUp src s.chmId

/-! ### Sending and the send buffer (R423) -/

/-- The acknowledgement field of a port: the last good seq, once a packet has arrived. -/
def ChmPort.ackNow (c : ChmPort) : Nat := if c.rxAny then (c.rxSeq + 4095) % 4096 + 2 ^ 12 else 0

/-- A packet with its END as it goes out. -/
def ChmPort.finish (c : ChmPort) (k : ChmPacket) : ChmPacket :=
  { k with fin := BitVec.ofNat 56 (k.crc + c.ackNow * 2 ^ 32 + b2n k.poison * 2 ^ 48) }

/-- Blocks go onto the lane. IDLE blocks between packets are not kept. DESIGN CHOICE, log entry 170. -/
def ChmPort.onLane (c : ChmPort) (w : ChmWire) (l : List (Nat × Nat)) : ChmPort :=
  let (bits, h) := laneOut c.scr.toNat l
  { c with sent := c.sent ++ [w], lane := c.lane ++ bits, scr := BitVec.ofNat 31 h }

/-- A packet with its END goes onto the lane. -/
def ChmPort.sending (c : ChmPort) (k : ChmPacket) : ChmPort := c.onLane (.packet k) k.lane

/-- A packet goes onto the link. -/
def State.chmOut (s : State) (p : Nat) (k : ChmPacket) : State := s.modChmPort p fun c => c.sending (c.finish k)

/-- An ACK block goes onto the link: seq, and whether it is a NAK. -/
def State.chmAckOut (s : State) (p seq : Nat) (nak : Bool) : State :=
  let f := seq + 2 ^ 12 + b2n nak * 2 ^ 13
  s.modChmPort p fun c => c.onLane (.ack (BitVec.ofNat 16 f)) [(hdrCtrl, 0xAA + f % 2 ^ 16 * 2 ^ 40)]

/-- Blocks in the send buffer. -/
def ChmPort.bufBlocks (c : ChmPort) : Nat := (c.buf.map fun x => x.pkt.blocks).foldl (· + ·) 0

/-- A packet takes the next seq, enters the send buffer and goes out. -/
def State.chmPost (s : State) (p : Nat) (k : ChmPacket) : State :=
  let c := s.chmPort p
  let k1 := { k with hdr := BitVec.ofNat 56 (k.hdr.toNat / 4096 * 4096 + c.txSeq) }
  (s.modChmPort p fun c => { c with txSeq := (c.txSeq + 1) % 4096, buf := c.buf ++ [⟨k1, 0⟩] }).chmOut p k1

/-- Waiting packets go out in order while the buffer of 256 blocks has room; one whose END waits for a CRC holds those behind it
(R419, R423). -/
def State.chmPump (s : State) (p : Nat) : Nat → State
  | 0 => s
  | n + 1 =>
    match (s.chmPort p).wait with
    | [] => s
    | w :: rest =>
      if w.needs = [] ∧ (s.chmPort p).bufBlocks + w.pkt.blocks ≤ 256 then
        ((s.modChmPort p fun c => { c with wait := rest }).chmPost p w.pkt).chmPump p n
      else s

def State.chmPumpAll (s : State) (p : Nat) : State := s.chmPump p (s.chmPort p).wait.length

/-- A packet whose END waits for the CRC of some groups is given to a port; a port that is not UP carries none. -/
def State.chmSendAfter (s : State) (p : Nat) (k : ChmPacket) (needs : List (Nat × Nat)) : State :=
  if s.chmState p = chmUp then (s.modChmPort p fun c => { c with wait := c.wait ++ [⟨k, needs⟩] }).chmPumpAll p else s

/-- A packet is given to a port: it goes out at once or waits for room, in order. -/
def State.chmSend (s : State) (p : Nat) (k : ChmPacket) : State := s.chmSendAfter p k []

/-- A packet with poison set. -/
def poisoned (k : ChmPacket) : ChmPacket := { k with fin := BitVec.ofNat 56 (k.fin.toNat ||| 2 ^ 48) }

/-- The CRC of group g at port p is known (R419): forwarded words of it take the verdict, and ENDs that waited for it go on, with
poison where it failed. -/
def State.chmJudged (s : State) (p g : Nat) (bad : Bool) : State :=
  let word (_ : Nat) (f : Option ChmFwd) : Option ChmFwd :=
    f.map fun x => if x.group = (p, g) && x.bad.isNone then { x with bad := some bad } else x
  let wait (w : ChmWait) : ChmWait :=
    if w.needs.contains (p, g) then ⟨if bad then poisoned w.pkt else w.pkt, w.needs.filter fun n => n != (p, g)⟩ else w
  (List.range 4).foldl (fun t q =>
    (t.modChmPort q fun c => { c with fwd := tabMap noForward word c.fwd, wait := c.wait.map wait }).chmPumpAll q) s

/-- A CTRL packet goes to its destination; false when that is unreachable. -/
def State.chmUnicast (s : State) (k : ChmPacket) : Bool × State :=
  match s.chmHop k.dest with
  | some p => (true, s.chmSend p k)
  | none => (false, s)

/-- A packet goes out by every port of a broadcast from engine src. -/
def State.chmBroadcast (s : State) (src : Nat) (k : ChmPacket) : State :=
  (s.chmTree src).foldl (fun t p => t.chmSend p k) s

/-! ### Link states (R404, R424) -/

/-- The timestamps of TRAIN packets: ticks of 2.5 ns, 32 bits. -/
def State.chmTime (s : State) : Nat := s.now % 2 ^ 32

/-- The ID of this engine is in force: software's, or the one that the election locked (R410). -/
def State.idSure (s : State) : Bool := !s.bit CHM_CTRL CHM_CTRL_id_mode || s.bit CHM_ID CHM_ID_locked

/-- A TRAIN packet of port p: header [5:0] ENGINE_ID, [13:6] LEAD_PRIORITY, [15:14] port, [17:16] topology, [23:18] xdim,
[26:24] ydim, 27 set while a TRAIN has arrived since training began, 28 set for an ID in force, [39:32] the packet's number and
[47:40] the number of the TRAIN that arrived last; data: serial number, then the two timestamps: when that one arrived here, and
now. The layout of these fields is not stated. DESIGN CHOICE, log entry 112. -/
def State.chmTrainOut (s : State) (p : Nat) : State :=
  let ctl := s.reg CHM_CTRL
  let c := s.chmPort p
  let no := (c.trainNo + 1) % 256
  let h := s.chmId + CHM_CTRL_lead_prio.get ctl * 2 ^ 6 + p * 2 ^ 14 + CHM_CTRL_topo.get ctl * 2 ^ 16 +
    CHM_CTRL_xdim.get ctl * 2 ^ 18 + CHM_CTRL_ydim.get ctl * 2 ^ 24 + b2n c.gotAt.isSome * 2 ^ 27 + b2n s.idSure * 2 ^ 28 +
    no * 2 ^ 32 + c.gotNo % 256 * 2 ^ 40
  let ser := (tabGet zeroWord s.otp 0).toNat + (tabGet zeroWord s.otp 1).toNat * 2 ^ 32
  let k := mkPacket typTrain h [ser, (c.gotAt.getD 0) % 2 ^ 32 + s.chmTime * 2 ^ 32] false
  (s.chmOut p k).modChmPort p fun c => { c with trainNo := no, sentAt := (s.now :: c.sentAt).take 8 }

/-- Ticks of 2.5 ns in 1 µs. -/
abbrev trainTicks : Nat := 400

/-- A port in training, or one that carries TRAIN packets only, sends one each 1 µs, and so does a port that wakes its neighbour
(R404, R405, R430). -/
def State.trainTick (s : State) : State :=
  (List.range 4).foldl (fun t p =>
    let st := t.chmState p
    let sends := st = chmTraining || st = chmIsolated || bitOf (t.reg CHM_WAKE).toNat p
    let old := match (t.chmPort p).sentAt with
      | [] => true
      | a :: _ => decide (a + trainTicks ≤ t.now)
    if sends && old then t.chmTrainOut p else t) s

/-- A port begins training: both directions start at seq 0, and its first TRAIN goes out. -/
def State.chmTrain (s : State) (p : Nat) : State :=
  ((s.setFld (CHM_P_STAT p) CHM_P_STAT_state chmTraining).modChmPort p fun c => { c with
    txSeq := 0, rxSeq := 0, rxAny := false, naked := false, buf := [], wait := [], meas := [], gotAt := none,
    sentAt := [] }).chmTrainOut p

/-- From DOWN an enabled port with block lock trains. -/
def State.chmStart (s : State) (p : Nat) : State :=
  if s.chmOn p && (s.chmPort p).lock && s.chmState p = chmDown then s.chmTrain p else s

/-- A broadcast Kickoff. -/
def isKickoff (k : ChmPacket) : Bool := k.typ = typCtrl && k.kind = kindKickoff

/-- A job made for a remote request that arrived by port p and has not been issued. -/
def Job.heldFrom (p : Nat) (j : Job) : Bool :=
  match j.fin with
  | .remote q _ _ => q = p && !j.out
  | _ => false

/-- A port goes DOWN (R424): every packet that is not acknowledged is discarded, and so are what waited behind them and what
arrived by the port and has not been applied (R63); the group that is arriving has failed. DEDUCED, log entry 114. -/
def State.chmGoDown (s : State) (p : Nat) : State :=
  let c := s.chmPort p
  let here := (s.chm.ctrlIn.filter fun x => x.1 = p).map fun x => x.2
  let lost := (c.buf.map fun x => x.pkt).countP (isKickoff) + (c.wait.map fun x => x.pkt).countP (isKickoff) + here.countP (isKickoff)
  let s1 := ((s.setFld (CHM_P_STAT p) CHM_P_STAT_state chmDown).setFld (CHM_P_STAT p) CHM_P_STAT_down 1).bump
    (CHM_P_DOWNS p) whole
  let s2 := (s1.setFld CHM_STAT CHM_STAT_link_chg 1).modChmPort p fun c => { c with buf := [], wait := [], cand := none, part := none }
  let s3 := match c.part with
    | some (g, _) => s2.chmJudged p g true
    | none => s2
  let s4 := { s3.modChm fun c => { c with ctrlIn := c.ctrlIn.filter fun x => x.1 != p } with
    jobs := s3.jobs.filter fun j => !j.heldFrom p }
  if lost = 0 then s4 else (s4.bumpBy CHM_KICK_LOST whole lost).setFld CHM_STAT CHM_STAT_kick_lost 1

/-- LET_MAX. PRESUMED, log entry 5. -/
def State.letMax (s : State) : Nat := max 1 (s.fld CHM_LET_CFG CHM_LET_CFG_let_max)

/-- A Let (R423): everything from the oldest unacknowledged packet is resent; a packet that has been resent LET_MAX times
takes the port DOWN instead, and it retrains. -/
def State.chmLet (s : State) (p : Nat) : State :=
  match (s.chmPort p).buf with
  | [] => s
  | x :: _ =>
    if s.letMax ≤ x.resent then (s.chmGoDown p).chmStart p
    else
      let all := (s.chmPort p).buf
      let s1 := (s.bump (CHM_P_LETS p) whole).modChmPort p fun c => { c with
        buf := c.buf.map fun y => { y with resent := y.resent + 1 } }
      all.foldl (fun t y => t.chmOut p y.pkt) s1

/-- seq a lies at or before seq b, in the 12-bit order. -/
def seqAtOrBefore (a b : Nat) : Bool := (b + 4096 - a % 4096) % 4096 < 2048

/-- An acknowledgement frees packets up to its seq (R423). -/
def State.chmFree (s : State) (p seq : Nat) : State :=
  (s.modChmPort p fun c => { c with buf := c.buf.filter fun x => !seqAtOrBefore x.pkt.seq seq }).chmPumpAll p

/-- An acknowledgement field arrives: nothing, an acknowledgement, or a NAK that names the seq expected next, so that all
before it have arrived. DEDUCED, log entry 115. -/
def State.chmAckIn (s : State) (p f : Nat) : State :=
  if !bitOf f 12 || s.chmState p != chmUp then s
  else if bitOf f 13 then (s.chmFree p ((f + 4095) % 4096)).chmLet p
  else s.chmFree p (f % 4096)

/-! ### Receiving (R403, R423) -/

/-- A NAK goes out once for each error. -/
def State.chmNak (s : State) (p : Nat) : State :=
  if (s.chmPort p).naked then s
  else (s.chmAckOut p (s.chmPort p).rxSeq true).modChmPort p fun c => { c with naked := true }

/-- What a receiver makes of a sequenced packet. -/
inductive ChmVerdict where
  | accept
  | badCrc
  | other
deriving DecidableEq, Repr

/-- An AUDIO or CTRL packet arrives at a port that is UP: its acknowledgement acts; it is accepted if its CRC is good and its
seq is the one expected next, and acknowledged; else it is discarded with a NAK. A packet of another type code is discarded and
counted; it has no seq (R402). -/
def State.chmReceive (s : State) (p : Nat) (k : ChmPacket) : ChmVerdict × State :=
  if s.chmState p != chmUp then (.other, s)
  else if !k.crcOk then (.badCrc, (s.bump (CHM_P_CRC_ERRS p) whole).chmNak p)
  else if k.typ != typAudio && k.typ != typCtrl then (.other, s.bump (CHM_P_CRC_ERRS p) whole)
  else
    let s1 := s.chmAckIn p k.ackField
    if s1.chmState p != chmUp then (.other, s1)
    else if k.seq != (s1.chmPort p).rxSeq then (.other, s1.chmNak p)
    else
      (.accept, (s1.modChmPort p fun c => { c with
        rxSeq := (c.rxSeq + 1) % 4096, rxAny := true, naked := false }).chmAckOut p k.seq false)

end Sys2Proof.Machine
end

