-- ==== Sys2Proof/Machine/Damper.lean ====
section
/-! DEFINITION. The Damper: staging sets, direct writes, Kickoffs, rank resolution, delivery and reports (12). -/

namespace Sys2Proof.Machine

abbrev midDamper : Nat := 0x311
abbrev midCue : Nat := 0x312
abbrev dmpStation : Nat := 27

def State.modDmp (s : State) (f : Dmp → Dmp) : State := { s with dmp := f s.dmp }

/-- Items in the commit queue, those of closed groups and of the delivery included (R337). -/
def Dmp.fill (d : Dmp) : Nat :=
  d.items.length + (d.closed.map fun g => g.2.length).foldl (· + ·) 0 +
    (match d.delivery with
    | none => 0
    | some v => v.items.length)

/-- DMP_STAT shows the queue. -/
def State.dmpShow (s : State) : State :=
  (s.setFld DMP_STAT DMP_STAT_qfill s.dmp.fill).setFld DMP_STAT DMP_STAT_busy (b2n s.dmp.delivery.isSome)

/-- The rank of a MID (R340). -/
def State.rankOf (s : State) (mid : Nat) : Nat :=
  if mid < 864 then (s.reg (DMP_RANK (mid / 8))).toNat / 16 ^ (mid % 8) % 8 else 0

/-- A dropped parameter or a refused write (R330, R335): 1 MAP, 2 ECC, 3 QFULL. -/
def State.dmpErr (s : State) (param mid cause : Nat) : State :=
  let s1 := (s.bump DMP_ERR_COUNT whole).setFld DMP_STAT DMP_STAT_err 1
  let s2 := s1.setFldIf (cause = 3) DMP_STAT DMP_STAT_qfull 1
  if s2.bit DMP_ERR_INFO DMP_ERR_INFO_valid then s2
  else s2.setReg DMP_ERR_INFO (BitVec.ofNat 32 (param % 2 ^ 16 + mid % 2 ^ 10 * 2 ^ 16 + cause * 2 ^ 26 + 2 ^ 31))

def State.dmpLead (s : State) : Nat := s.fld DMP_CTRL DMP_CTRL_lead

/-! ### The commit queue (R334, R337, R338) -/

/-- The next count from n on that names no closed group. -/
def openCount (closed : List (Nat × List DmpItem)) : Nat → Nat → Nat
  | 0, n => n
  | k + 1, n => if closed.any fun g => g.1 = n then openCount closed k ((n + 1) % 2 ^ 48) else n

/-- The count that an arriving item takes: one at or below a group whose delivery has begun takes that N + 1, and none joins
a closed group (R337, R338). DEDUCED, log entry 33. -/
def Dmp.place (d : Dmp) (n : Nat) : Nat :=
  let n1 := match d.begun with
    | some b => if countDiff n b ≤ 0 then (b + 1) % 2 ^ 48 else n
    | none => n
  openCount d.closed (d.closed.length + 1) n1

/-- The group for N closes once the Rally instant of N − lead has come (R338). -/
def State.dmpDue (s : State) (n : Nat) : Bool := decide (countDiff n s.rallyCount ≤ s.dmpLead)

/-- Value j beats value i for one parameter: rank, then lower MID, then later arrival (R340). -/
def dmpBeats (j i : Nat × Nat × DmpVal) : Bool :=
  let a := j.2.2
  let b := i.2.2
  a.param = b.param &&
    (b.rank < a.rank || (a.rank = b.rank && (a.mid < b.mid || (a.mid = b.mid && i.1 < j.1))))

/-- The values of a group in arrival order, each with its place and the place of its item. -/
def dmpFlat (items : List DmpItem) : List (Nat × Nat × DmpVal) :=
  let l := (items.zipIdx.map fun x => x.1.vals.map fun v => (x.2, v)).flatten
  l.zipIdx.map fun x => (x.2, x.1)

/-- A losing value is counted and captured (R340). -/
def State.dmpLoser (s : State) (v : DmpVal) : State :=
  let s1 := (s.bump DMP_SUPERSEDED whole).setFld DMP_STAT DMP_STAT_sup 1
  if s1.bit DMP_SUP_INFO DMP_SUP_INFO_valid then s1
  else s1.setReg DMP_SUP_INFO (BitVec.ofNat 32 (v.param + v.mid * 2 ^ 16 + 2 ^ 31))

/-- A direct write completes as its group closes (R335). -/
def State.dmpFinishWrite (s : State) (i : DmpItem) (won : Bool) : State :=
  let r : Reply := ⟨if won then .ok else .superseded, 0⟩
  match i.kick, i.vals with
  | none, v :: _ => (s.complete v.mid DMP_WR_VALUE .b32 true r).answer i.who r
  | _, _ => s

/-- The group for N closes: ranks are resolved and direct writes complete (R335, R338, R340). -/
def State.dmpClose (s : State) (n : Nat) : State :=
  let items := s.dmp.items.filter fun i => i.n = n
  let flat := dmpFlat items
  let wins := flat.filter fun i => !(flat.any fun j => dmpBeats j i)
  let s1 := flat.foldl (fun t i => if wins.any fun j => j.1 = i.1 then t else t.dmpLoser i.2.2) s
  let kept := items.zipIdx.map fun x => { x.1 with vals := (wins.filter fun j => j.2.1 = x.2).map fun j => j.2.2 }
  let s2 := (items.zip kept).foldl (fun t x => t.dmpFinishWrite x.1 (x.2.vals != [])) s1
  (s2.modDmp fun d => { d with items := d.items.filter fun i => i.n != n, closed := d.closed ++ [(n, kept)] }).dmpShow

/-- An item enters the queue; a group whose close has come closes as its item arrives. -/
def State.dmpEnqueue (s : State) (i : DmpItem) : State :=
  let n := s.dmp.place i.asked
  let s1 := (s.modDmp fun d => { d with items := d.items ++ [{ i with n := n }] }).dmpShow
  if s1.dmpDue n then s1.dmpClose n else s1

/-- The open group with the smallest count among those whose close has come. -/
def State.dmpNextDue (s : State) : Option Nat :=
  ((s.dmp.items.map fun i => i.n).filter fun n => s.dmpDue n).foldl (fun best n => match best with
    | none => some n
    | some b => if countDiff n b < 0 then some n else some b) none

/-! ### Staging sets (R331 to R333) -/

def State.dmpPending (s : State) (i : Nat) : Bool := s.bit (DMP_SET_COUNT i) DMP_SET_COUNT_pending

/-- Entry k of set i (R331). -/
def State.stageAddr (s : State) (i k : Nat) : Nat := (s.reg DMP_STG_BASE).toNat + 0x10000 * i + 8 * k

/-- DMP_SET_PARAM (R332, R333). -/
def writeSetParam (i : Nat) (v : Word) : WriteEff := fun s =>
  if s.dmpPending i then (.slverr, s) else (.ok, s.plainWrite (DMP_SET_PARAM i) v)

def execDmpSetParam (m : Mid) (i : Fin 16) (v : Word) (s : State) : Host.Outcome State Fault Refusal :=
  s.run fun s => s.writeReg m.val (DMP_SET_PARAM i.val) v (writeSetParam i.val v)

/-- DMP_SET_COUNT (R333). -/
def writeSetCount (i : Nat) (v : Word) : WriteEff := fun s =>
  if s.dmpPending i ∨ 8192 < DMP_SET_COUNT_count.get v then (.slverr, s) else (.ok, s.plainWrite (DMP_SET_COUNT i) v)

def execDmpSetCount (m : Mid) (i : Fin 16) (v : Word) (s : State) : Host.Outcome State Fault Refusal :=
  s.run fun s => s.writeReg m.val (DMP_SET_COUNT i.val) v (writeSetCount i.val v)

/-- DMP_SET_VALUE (R332): an entry with the writer's MID and its rank now (R340). -/
def writeSetValue (i mid : Nat) (v : Word) : WriteEff := fun s =>
  let n := s.fld (DMP_SET_COUNT i) DMP_SET_COUNT_count
  if s.dmpPending i ∨ 8192 ≤ n then (.slverr, s)
  else
    let e := v.toNat + s.fld (DMP_SET_PARAM i) DMP_SET_PARAM_param * 2 ^ 32 + s.rankOf mid * 2 ^ 48 + mid * 2 ^ 51
    (.ok, (s.dmaWrite midDamper (s.stageAddr i n) .b64 e).2.setFld (DMP_SET_COUNT i) DMP_SET_COUNT_count (n + 1))

def execDmpSetValue (m : Mid) (i : Fin 16) (v : Word) (s : State) : Host.Outcome State Fault Refusal :=
  s.run fun s => s.writeReg m.val (DMP_SET_VALUE i.val) v (writeSetValue i.val m.val v)

/-- The entries of a set from index k on, as values in order; false when one returned ECC and is dropped. What the capture
shows of an entry that cannot be read is free. DEDUCED, log entry 30. DESIGN CHOICE, log entry 32. -/
def State.readSet (s : State) (i : Nat) : Nat → Nat → (List DmpVal × Bool) × State
  | 0, _ => (([], true), s)
  | n + 1, k =>
    match s.dmaRead midDamper (s.stageAddr i k) .b64 with
    | (some e, s1) =>
      let ((l, good), s2) := s1.readSet i n (k + 1)
      ((⟨e / 2 ^ 32 % 2 ^ 16, BitVec.ofNat 32 e, e / 2 ^ 48 % 8, e / 2 ^ 51 % 2 ^ 10⟩ :: l, good), s2)
    | (none, s1) =>
      let v := s1.fresh.1.toNat
      let ((l, _), s2) := (s1.fresh.2.dmpErr v (v / 2 ^ 16) 2).readSet i n (k + 1)
      ((l, false), s2)

/-! ### Direct writes (R334, R335) -/

/-- The count of a direct write: (count, late) by R334. -/
def State.directCount (s : State) (atEn : Bool) (low : Nat) : Nat × Bool :=
  let least := (s.rallyCount + s.dmpLead) % 2 ^ 48
  if atEn then
    let n := (((s.rallyCount : Int) + (s.nearLow s.rallyCount low).1) % (2 ^ 48 : Nat)).toNat
    if countDiff n least < 0 then (least, true) else (n, false)
  else (least, false)

/-- A direct write that names a count enters the queue; false when the Damper refuses it. -/
def State.dmpPut (s : State) (v : DmpVal) (n : Nat) (who : Waiter) : Bool × State :=
  if !s.bit DMP_CTRL DMP_CTRL_en then (false, s)
  else if 1024 ≤ s.dmp.fill then (false, s.dmpErr v.param v.mid 3)
  else (true, s.dmpEnqueue ⟨n, n, none, none, [v], false, who⟩)

/-- A write to DMP_WR_VALUE completes. -/
def State.wrDone (s : State) (m : Nat) (who : Waiter) (r : Resp) : State :=
  (s.complete m DMP_WR_VALUE .b32 true ⟨r, 0⟩).answer who ⟨r, 0⟩

/-- A write to DMP_WR_VALUE by a master that may: refused at once, or completed as its group closes (R335). -/
def State.dmpDirect (s : State) (m : Nat) (v : Word) (who : Waiter) : State :=
  match s.accessCheck m DMP_WR_VALUE .b32 true with
  | .ok =>
    let p := tabGet zeroWord s.dmp.wrParam m
    let atEn := DMP_WR_PARAM_at_en.get p = 1
    let low := (tabGet zeroWord s.dmp.wrAt m).toNat
    let (n, late) := s.directCount atEn low
    let (done, s1) := s.dmpPut ⟨DMP_WR_PARAM_param.get p, v, s.rankOf m, m⟩ n who
    if s.inLight then s.wrDone m who .slverr
    else if done then
      let s2 := if atEn then { s1 with freeCtr := (s.nearLow s.rallyCount low).2.freeCtr } else s1
      s2.setFldIf late DMP_STAT DMP_STAT_wr_late 1
    else s1.wrDone m who .slverr
  | r => s.wrDone m who r

/-! ### Reports (R345) -/

/-- The issuer records the report of engine e: seq, status (1 on time, 2 late, 3 error), lateness. -/
def State.reportIn (s : State) (e seq status late : Nat) : State :=
  if seq != s.fld DMP_KREP_SUM DMP_KREP_SUM_seq then s
  else
    let s1 := s.setReg (DMP_KREP e) (BitVec.ofNat 32 (seq + late * 2 ^ 8 + status * 2 ^ 16 + 2 ^ 31))
    let s2 := s1.bump DMP_KREP_SUM DMP_KREP_SUM_received
    let s3 := if status = 2 then s2.bump DMP_KREP_SUM DMP_KREP_SUM_late
      else if status = 3 then s2.bump DMP_KREP_SUM DMP_KREP_SUM_error else s2
    s3.raiseIf (status != 1 || s3.fld DMP_KREP_SUM DMP_KREP_SUM_received = max 1 (s.fld DMP_CTRL DMP_CTRL_expect)) 439

/-- A report goes to its issuer: here, or by a CTRL packet of kind 3 laid out as DMP_KREP. DEDUCED, log entry 36. -/
def State.sendReport (s : State) (dst seq status late : Nat) : State :=
  let l := if status = 1 then 0 else min 255 late
  if dst = s.chmId then s.reportIn s.chmId seq status l
  else (s.chmUnicast (mkCtrl kindReport dst s.chmId 0 false 0 (seq + l * 2 ^ 8 + status * 2 ^ 16))).2

/-- Takes the oldest CTRL packet of a kind that was delivered to this engine, with its port. -/
def State.takeCtrl (s : State) (kind : Nat) : Option ((Nat × ChmPacket) × State) :=
  match s.chm.ctrlIn.find? fun x => x.2.kind = kind with
  | none => none
  | some x => some (x, s.modChm fun c => { c with ctrlIn := c.ctrlIn.erase x })

/-- KICK_REPORT_RECEIVE (R345): the oldest report that has arrived. -/
def execKickReportReceive (s : State) : Host.Outcome State Fault Refusal :=
  s.run fun s => match s.takeCtrl kindReport with
    | none => s
    | some ((_, k), s1) => s1.reportIn k.src (k.word % 256) (k.word / 2 ^ 16 % 4) (k.word / 2 ^ 8 % 256)

/-! ### Kickoffs (R336, R429) -/

/-- A Kickoff reaches this engine's Damper; false when it is refused: the set is pending or the Damper disabled. A full
queue refuses it too. DEDUCED, log entry 34. -/
def State.dmpKick (s : State) (set n : Nat) (report : Option (Nat × Nat)) (mid : Nat) : Bool × State :=
  if !s.bit DMP_CTRL DMP_CTRL_en || s.dmpPending set then (false, s)
  else if 1024 ≤ s.dmp.fill then (false, s.dmpErr 0 mid 3)
  else
    let s1 := s.setFld (DMP_SET_COUNT set) DMP_SET_COUNT_pending 1
    let ((vals, good), s2) := s1.readSet set (s.fld (DMP_SET_COUNT set) DMP_SET_COUNT_count) 0
    (true, s2.dmpEnqueue ⟨n, n, some set, report, vals, !good, .nobody⟩)

/-- Issuing with report = 1 takes the next sequence number and clears every DMP_KREP entry (R345). -/
def State.kickSeq (s : State) : Nat × State :=
  let seq := (s.fld DMP_KREP_SUM DMP_KREP_SUM_seq + 1) % 256
  (seq, (List.range 64).foldl (fun t e => t.setReg (DMP_KREP e) 0) (s.setReg DMP_KREP_SUM (BitVec.ofNat 32 (seq * 2 ^ 24))))

/-- The data of a broadcast Kickoff: N in [47:0], set in [51:48], report in 52, sequence number in [60:53].
DESIGN CHOICE, log entry 44. -/
def kickData (n set : Nat) (report : Bool) (seq : Nat) : Nat :=
  n + set * 2 ^ 48 + b2n report * 2 ^ 52 + seq * 2 ^ 53

/-- A Kickoff is issued for count n: set, bcast, report (R336, R429). False when it is refused and nothing is issued. -/
def State.issueKick (s : State) (mid n set : Nat) (bcast report : Bool) : Bool × State :=
  if !s.bit DMP_CTRL DMP_CTRL_en || s.dmpPending set then (false, s)
  else if 1024 ≤ s.dmp.fill then (false, s.dmpErr 0 mid 3)
  else
    let (seq, s1) := if report then s.kickSeq else (0, s)
    let s2 := (s1.dmpKick set n (if report then some (s.chmId, seq) else none) mid).2
    (true, if bcast then
      s2.chmBroadcast s.chmId (mkCtrl kindKickoff s.chmId s.chmId 0 false 0 (kickData n set report seq))
    else s2)

/-- A write to DMP_KICK_AT_HI. -/
def writeKick (mid : Nat) (v : Word) : WriteEff := fun s =>
  let n := (tabGet zeroWord s.dmp.kickLo mid).toNat + DMP_KICK_AT_HI_n.get v * 2 ^ 32
  match s.issueKick mid n (DMP_KICK_AT_HI_set.get v) (DMP_KICK_AT_HI_bcast.get v = 1) (DMP_KICK_AT_HI_report.get v = 1) with
  | (true, s1) => (.ok, s1)
  | (false, s1) => (.slverr, s1)

/-! ### Delivery (R330, R341 to R344) -/

/-- The Damper sends a PARAM token: 0 VALUE, 1 VALUE_ZC, 2 ARM, 3 CANCEL (R252). -/
def State.dmpToken (s : State) (h sub tag : Nat) (v : Word) : State :=
  s.stationSend dmpStation ⟨.param, tag, h + sub * 2 ^ 8, v⟩

/-- The map entry of a parameter (R329). -/
def State.mapAddr (s : State) (p : Nat) : Nat := (s.reg DMP_MAP_BASE).toNat + 8 * p

/-- Word 0 of an entry is valid (R330). -/
def mapValid (low : Nat) : Bool := bitOf low 31 && low % 256 ≤ 191 && low / 2 ^ 17 % 2 ^ 14 = 0

/-- A value whose map entry has been read: Hearth, slot, ZCSTEP and word 0 of the entry, the place of its item, and the value. -/
structure DmpSend where
  hearth : Nat
  slot : Nat
  zc : Bool
  low : Nat
  item : Nat
  val : DmpVal
deriving DecidableEq, Repr

/-- The entries of the values of a group that are still to be sent, in arrival order, with the places of items that lost a
parameter. DEDUCED, log entry 31. -/
def State.mapLookups (s : State) : List (Nat × DmpVal) → (List DmpSend × List Nat) × State
  | [] => (([], []), s)
  | (i, v) :: rest =>
    match s.dmaRead midDamper (s.mapAddr v.param) .b64 with
    | (none, s1) =>
      let ((l, bad), s2) := (s1.dmpErr v.param v.mid 2).mapLookups rest
      ((l, i :: bad), s2)
    | (some e, s1) =>
      let low := e % 2 ^ 32
      if mapValid low then
        let ((l, bad), s2) := s1.mapLookups rest
        ((⟨low % 256, low / 2 ^ 8 % 256, bitOf low 16, low, i, v⟩ :: l, bad), s2)
      else
        let ((l, bad), s2) := (s1.dmpErr v.param v.mid 1).mapLookups rest
        ((l, i :: bad), s2)

/-- The closed group that is delivered next: ascending N (R337). -/
def State.dmpNextClosed (s : State) : Option (Nat × List DmpItem) :=
  s.dmp.closed.foldl (fun best g => match best with
    | none => some g
    | some b => if countDiff g.1 b.1 < 0 then some g else some b) none

/-- The delivery of a group begins. -/
def State.dmpBegin (s : State) (g : Nat × List DmpItem) : State :=
  let top := match s.dmp.begun with
    | some b => if countDiff b g.1 < 0 then g.1 else b
    | none => g.1
  (s.modDmp fun d => { d with
    closed := d.closed.erase g, begun := some top,
    delivery := some ⟨g.1, g.2, (dmpFlat g.2).map fun x => (x.2.1, x.2.2), []⟩ }).dmpShow

def noArm (_ : Nat) : Option Nat := none

def State.lastArmOf (s : State) (h : Nat) : Option Nat := tabGet noArm s.dmp.lastArm h

/-- The Hearth's previous ARM named N1 and the Rally instant of N1 + 1 has not passed (R341). -/
def State.armWaits (s : State) (h : Nat) : Bool :=
  match s.lastArmOf h with
  | none => false
  | some n1 => decide (0 < countDiff ((n1 + 1) % 2 ^ 48) s.rallyCount)

/-- A CANCEL goes before the values of a Hearth that is still armed (R341). -/
def State.dmpMerge (s : State) (h : Nat) : State :=
  match s.lastArmOf h with
  | none => s
  | some n1 =>
    if (countDiff n1 s.rallyCount).natAbs ≤ 127 && (s.hearth h).armed.isSome then
      ((s.dmpToken h 3 0 0).bump DMP_MERGED whole).setFld DMP_STAT DMP_STAT_merged 1
    else s

/-- A value goes out and its map entry is written back (R330, R341). -/
def State.dmpValue (s : State) (v : DmpSend) : State :=
  ((s.dmpToken v.hearth (b2n v.zc) v.slot v.val.value).dmaWrite midDamper (s.mapAddr v.val.param) .b64
    (v.low + v.val.value.toNat * 2 ^ 32)).2

/-- The lowest Hearth that still waits for its values. -/
def nextHearth (l : List DmpSend) : Option Nat := l.foldl (fun b v => match b with
  | none => some v.hearth
  | some h => some (min h v.hearth)) none

/-- Hearths get their values in ascending order, until one has to wait: the values left and the Hearths served. -/
def State.dmpServe (s : State) (left : List DmpSend) (served : List Nat) : Nat → (List DmpSend × List Nat) × State
  | 0 => ((left, served), s)
  | k + 1 =>
    match nextHearth left with
    | none => ((left, served), s)
    | some h =>
      if s.armWaits h then ((left, served), s)
      else ((left.filter fun v => v.hearth = h).foldl State.dmpValue (s.dmpMerge h)).dmpServe
        (left.filter fun v => v.hearth != h) (if served.contains h then served else served ++ [h]) k

/-- The report of a Kickoff of a group whose ARMs named n (R345). -/
def State.dmpReport (s : State) (n : Nat) (i : DmpItem) : State :=
  let late := (countDiff n i.asked).toNat
  let s1 := match i.kick with
    | none => s
    | some set => s.setFld (DMP_SET_COUNT set) DMP_SET_COUNT_pending 0
  match i.report with
  | none => s1
  | some (e, seq) => s1.sendReport e seq (if i.bad then 3 else if late = 0 then 1 else 2) late

/-- The ARMs of a group go out, and its record is written (R341, R343, R344). DEDUCED, log entry 35. -/
def State.dmpArm (s : State) (d : DmpDelivery) : State :=
  let n := if 0 < countDiff ((d.n + 2 ^ 48 - 1) % 2 ^ 48) s.rallyCount then d.n else (s.rallyCount + 2) % 2 ^ 48
  let w := s.fld DMP_CTRL DMP_CTRL_zc_window
  let s1 := d.served.foldl (fun t h => t.dmpToken h 2 0 (BitVec.ofNat 32 (n % 256 + w * 2 ^ 8))) s
  let s2 := s1.modDmp fun x => { x with
    delivery := none, lastArm := d.served.foldl (fun t h => tabSet noArm t h (some n)) x.lastArm }
  let late := (d.items.map fun i => (countDiff n i.asked).toNat).foldl max (countDiff n d.n).toNat
  let set := d.items.findSome? fun i => i.kick
  let s3 := (s2.setReg DMP_LAST_LO (BitVec.ofNat 32 n)).setReg DMP_LAST_INFO
    (BitVec.ofNat 32 (set.getD 0 + b2n set.isNone * 2 ^ 4 + min 255 late * 2 ^ 8 + 2 ^ 31))
  (d.items.foldl (fun t i => t.dmpReport n i) (s3.setFldIf (late != 0) DMP_STAT DMP_STAT_kick_late 1)).dmpShow

/-- A delivery goes on as far as it can: each value's map entry is read as the value is delivered (R330), and the ARMs follow the
last value. -/
def State.dmpDeliver (s : State) (d : DmpDelivery) : State :=
  let ((sends, bad), s1) := s.mapLookups d.vals
  let ((left, served), s2) := s1.dmpServe sends d.served 192
  let d1 : DmpDelivery := ⟨d.n, d.items.zipIdx.map fun x => { x.1 with bad := x.1.bad || bad.contains x.2 },
    left.map fun x => (x.item, x.val), served⟩
  if left = [] then s2.dmpArm d1 else s2.modDmp fun x => { x with delivery := some d1 }

/-- GROUP_DELIVERY (R341): the next closed group in ascending N is delivered as far as it can be; one that waits for a
Hearth goes on with the next GROUP_DELIVERY. The Mantel must be open. DESIGN CHOICE, log entry 37. -/
def execGroupDelivery (s : State) : Host.Outcome State Fault Refusal :=
  s.runXo fun s =>
    if !s.ramOpen then s
    else
      let s1 := match s.dmp.delivery, s.dmpNextClosed with
        | none, some g => s.dmpBegin g
        | _, _ => s
      match s1.dmp.delivery with
      | none => s1
      | some d => s1.dmpDeliver d

/-! ### Registers -/

/-- A write to DMP_CTRL: fields in their ranges. -/
def writeDmpCtrl (v : Word) : WriteEff := fun s =>
  let lead := DMP_CTRL_lead.get v
  if lead < 8 ∨ 120 < lead ∨ 64 < DMP_CTRL_expect.get v then (.slverr, s) else (.ok, s.plainWrite DMP_CTRL v)

/-- DMP_ENABLE_WRITE (R339). -/
def execDmpEnableWrite (m : Mid) (v : Word) (s : State) : Host.Outcome State Fault Refusal :=
  s.run fun s => s.writeReg m.val DMP_CTRL v (writeDmpCtrl v)

/-- A write to a register of the Damper other than DMP_WR_VALUE and DMP_KICK_AT_HI. -/
def dmpWrite (mid a : Nat) (v : Word) : WriteEff :=
  if a = DMP_CTRL then writeDmpCtrl v
  else if a = DMP_WR_PARAM then accept fun s => s.modDmp fun d => { d with wrParam := tabSet zeroWord d.wrParam mid (v &&& 0x1FFFF) }
  else if a = DMP_WR_AT then accept fun s => s.modDmp fun d => { d with wrAt := tabSet zeroWord d.wrAt mid v }
  else if a = DMP_KICK_AT_LO then accept fun s => s.modDmp fun d => { d with kickLo := tabSet zeroWord d.kickLo mid v }
  else if DMP_SET_COUNT 0 ≤ a ∧ a < DMP_SET_COUNT 16 then writeSetCount ((a - DMP_SET_COUNT 0) / 4) v
  else if DMP_SET_PARAM 0 ≤ a ∧ a < DMP_SET_PARAM 16 then
    if a % 8 = 0 then writeSetParam ((a - DMP_SET_PARAM 0) / 8) v else writeSetValue ((a - DMP_SET_PARAM 0) / 8) mid v
  else accept fun s => s.plainWrite a v

/-- A read of a register that the Damper keeps for each MID. -/
def State.dmpRead (s : State) (mid a : Nat) : Option Word :=
  if a = DMP_WR_PARAM then some (tabGet zeroWord s.dmp.wrParam mid)
  else if a = DMP_WR_AT then some (tabGet zeroWord s.dmp.wrAt mid)
  else if a = DMP_KICK_AT_LO then some (tabGet zeroWord s.dmp.kickLo mid)
  else none

end Sys2Proof.Machine
end

