-- ==== Sys2Proof/Machine/Mif.lean ====
section
/-! DEFINITION. The medium interface: tach counting, speed, direction, STALL, spool, record gates and LTC (13). -/

namespace Sys2Proof.Machine

/-! ### Access to a transport -/

def filtReset : Filt := ⟨false, 0⟩

/-- An input's filter after one more slot in which the pin has a level, and the accepted level: a new one after n + 1 slots in
a row (R354). DEDUCED, log entry 168. -/
def Filt.sample (f : Filt) (n : Nat) (accepted pin : Bool) : Filt × Bool :=
  let slots := if pin = accepted then 0 else if f.pin = pin then f.slots + 1 else 1
  if n < slots then (⟨pin, 0⟩, pin) else (⟨pin, slots⟩, accepted)

def transReset : Trans :=
  ⟨0, 0, false, false, false, false, filtReset, filtReset, filtReset, filtReset, 0, [], 0, 0, false, true, false, false,
    false, [], false, none, 0, 0⟩

def transDefault (_ : Nat) : Trans := transReset

def State.trans (s : State) (m : Nat) : Trans := tabGet transDefault s.mif.trans m

def State.modTrans (s : State) (m : Nat) (f : Trans → Trans) : State :=
  { s with mif := { s.mif with trans := tabSet transDefault s.mif.trans m (f (s.trans m)) } }

def State.mifOn (s : State) (m : Nat) : Bool := s.bit (MIF_CFG m) MIF_CFG_en

/-! ### Record gates (R366 to R370) -/

def State.gateOpen (s : State) (g : Nat) : Bool := bitOf (s.reg MIF_GATE_STAT).toNat g

def State.gateOn (s : State) (g : Nat) : Bool := s.bit (MIF_GATE_CFG g) MIF_GATE_CFG_en

def State.gateTrans (s : State) (g : Nat) : Nat := s.fld (MIF_GATE_CFG g) MIF_GATE_CFG_transport

/-- A gate closes: 1 cue, 2 STALL, 3 reverse, 4 load, 5 MIF_GATE_CLR, 6 en cleared (R369). -/
def State.gateClose (s : State) (g cause : Nat) : State :=
  if s.gateOpen g then
    let s1 := s.setReg MIF_GATE_STAT (s.reg MIF_GATE_STAT &&& ~~~BitVec.ofNat 32 (2 ^ g))
    if s1.bit MIF_GATE_LAST MIF_GATE_LAST_valid then s1
    else s1.setReg MIF_GATE_LAST (BitVec.ofNat 32 (g + cause * 2 ^ 4 + 2 ^ 31))
  else s

/-- Every open gate of a transport closes (R369). -/
def State.gatesClose (s : State) (m cause : Nat) : State :=
  (List.range 16).foldl (fun t g => if t.gateOn g && t.gateTrans g = m then t.gateClose g cause else t) s

/-- MIF_STAT.state. -/
def State.mifState (s : State) (m : Nat) : Nat := s.fld (MIF_STAT m) MIF_STAT_state

/-- A refused request (R368). -/
def State.gateRefuse (s : State) : State := (s.bump MIF_GATE_REFUSED whole).raise 446

/-- A request to open a gate under the refusal rules, from a transport's cue or from a register (R368, R370).
DEDUCED, log entry 85. -/
def State.gateTryOpen (s : State) (g : Nat) (transport : Option Nat) : State :=
  if !s.gateOn g || (transport.isSome && transport != some (s.gateTrans g)) then s.gateRefuse
  else if s.gateOpen g then s
  else if s.mifState (s.gateTrans g) != 1 then s.gateRefuse
  else s.setReg MIF_GATE_STAT (s.reg MIF_GATE_STAT ||| BitVec.ofNat 32 (2 ^ g))

/-- GATE_REQUEST (R368): the oldest request of the cue engine is applied or refused. -/
def execGateRequest (s : State) : Host.Outcome State Fault Refusal :=
  s.run fun s => match s.mif.gateReqs with
    | [] => s
    | r :: rest =>
      let s1 := { s with mif := { s.mif with gateReqs := rest } }
      if r.openIt then s1.gateTryOpen r.gate (some r.transport)
      else if !s1.gateOn r.gate || r.transport != s1.gateTrans r.gate then s1.gateRefuse
      else s1.gateClose r.gate 1

def writeGateSet (v : Word) : WriteEff :=
  accept fun s => (List.range 16).foldl (fun t g => if bitOf v.toNat g then t.gateTryOpen g none else t) s

/-- MIF_GATE_SET (R370). -/
def execMifGateSet (m : Mid) (v : Word) (s : State) : Host.Outcome State Fault Refusal :=
  s.run fun s => s.writeReg m.val MIF_GATE_SET v (writeGateSet v)

def writeGateClr (v : Word) : WriteEff :=
  accept fun s => (List.range 16).foldl (fun t g => if bitOf v.toNat g then t.gateClose g 5 else t) s

/-- MIF_GATE_CLR (R370). -/
def execMifGateClr (m : Mid) (v : Word) (s : State) : Host.Outcome State Fault Refusal :=
  s.run fun s => s.writeReg m.val MIF_GATE_CLR v (writeGateClr v)

/-- A write to MIF_GATE(g)_CFG (R366): while en is 1 only one that clears en. -/
def writeGateCfg (g : Nat) (v : Word) : WriteEff := fun s =>
  if s.gateOn g then
    if MIF_GATE_CFG_en.get v = 1 then (.slverr, s) else (.ok, (s.gateClose g 6).plainWrite (MIF_GATE_CFG g) v)
  else (.ok, s.plainWrite (MIF_GATE_CFG g) v)

/-- Pin MEDIUM_GATEg is high: pol 0 is high while the gate is open (R366). DEDUCED, log entry 90. -/
def State.gatePin (s : State) (g : Nat) : Bool := s.gateOpen g != s.bit (MIF_GATE_CFG g) MIF_GATE_CFG_pol

/-- The lead position of gate g (R367). -/
def State.leadNow (s : State) (g : Nat) : Int :=
  let m := s.gateTrans g
  (s.trans m).pos + signed 32 (s.reg (MIF_GATE_ADV g)).toNat +
    (signed 32 (s.reg (MIF_SPEED m)).toNat * s.fld (MIF_GATE_CFG g) MIF_GATE_CFG_adv_time).tdiv 16000000

def zeroInt (_ : Nat) : Int := 0

/-- The lead position of gate g as latched at the Rally instant (R365). -/
def State.leadPos (s : State) (g : Nat) : Int := tabGet zeroInt s.mif.leads g

/-! ### State of a transport (R361 to R364) -/

/-- MIF_STAT.state follows STALL, spool and direction; each change is reported (R364). -/
def State.mifShow (s : State) (m : Nat) : State :=
  let st := if s.bit (MIF_STAT m) MIF_STAT_stall then 0
    else if s.bit (MIF_STAT m) MIF_STAT_spool then 3
    else if s.bit (MIF_STAT m) MIF_STAT_dir then 2 else 1
  if st = s.mifState m then s
  else ((s.setFld (MIF_STAT m) MIF_STAT_state st).setFld (MIF_STAT m) MIF_STAT_state_chg 1).raiseIf
    (s.bit (MIF_CFG m) MIF_CFG_irq_state) 442

/-- The direction becomes `rev`, and the tracked extreme starts from the position; a change to reverse closes the gates (R361,
R369). -/
def State.mifDir (s : State) (m : Nat) (rev : Bool) : State :=
  if s.bit (MIF_STAT m) MIF_STAT_dir = rev then s
  else
    let s1 := ((s.setFld (MIF_STAT m) MIF_STAT_dir (b2n rev)).modTrans m fun t => { t with extreme := t.pos }).mifShow m
    if rev then s1.gatesClose m 3 else s1

/-- The direction that dir_src gives without a motion: the DIR pin's or a fixed one. -/
def State.fixedDir (s : State) (m : Nat) : Option Bool :=
  match s.fld (MIF_CFG m) MIF_CFG_dir_src with
  | 1 => some ((s.trans m).dirPin = s.bit (MIF_CFG m) MIF_CFG_dir_pol)
  | 2 => some false
  | 3 => some true
  | _ => none

/-- The direction under dir_src 1 to 3. -/
def State.mifFixDir (s : State) (m : Nat) : State :=
  match s.fixedDir m with
  | some r => s.mifDir m r
  | none => s

/-- The direction after a count (R361): MIF tracks the extreme, and under dir_src 0 the direction follows the net motion with
hysteresis. -/
def State.mifFollow (s : State) (m : Nat) : State :=
  let t := s.trans m
  let h : Int := s.fld (MIF_CFG m) MIF_CFG_rev_hyst
  let free := s.fld (MIF_CFG m) MIF_CFG_dir_src = 0
  if s.bit (MIF_STAT m) MIF_STAT_dir then
    if free ∧ t.extreme + h ≤ t.pos then s.mifDir m false
    else s.modTrans m fun t => { t with extreme := min t.extreme t.pos }
  else if free ∧ t.pos ≤ t.extreme - h then s.mifDir m true
  else s.modTrans m fun t => { t with extreme := max t.extreme t.pos }

/-! ### Position (R355 to R358) -/

/-- The position is loaded (R357): the tracked extreme restarts, the gates close, and the cues re-initialise (R348). -/
def State.posLoad (s : State) (m v : Nat) : State :=
  let p := signed 48 v
  (s.modTrans m fun t => { t with pos := p, extreme := p, loaded := true }).gatesClose m 4

/-- A pending load of the position is taken (R55). -/
def State.posTake (s : State) (m : Fin 4) : State :=
  match s.takeLoad (wideKey (.mifPos m)) with
  | none => s
  | some (v, s1) => (s1.setFld (MIF_POS_STAT m.val) MIF_POS_STAT_load_pending 0).posLoad m.val v

/-- A count of +1 or −1, with the wrap of the position (R357). -/
def State.posCount (s : State) (m : Nat) (d : Int) : State :=
  let t := s.trans m
  let p := t.pos + d
  let q := signed 48 (wrapInt 48 p)
  let s1 := (s.modTrans m fun t => { t with pos := q, extreme := t.extreme + (q - p), acc := t.acc + d }).setFldIf (p != q)
    (MIF_POS_STAT m) MIF_POS_STAT_wrapped 1
  s1.mifFollow m

/-- The sign of a pulse count (R355): forward or reverse as dir_src says. -/
def State.pulseSign (s : State) (m : Nat) : Int :=
  match s.fixedDir m with
  | some true => -1
  | _ => 1

/-- The count that a change of the levels gives, before invert; none for a quadrature error (R355, R356). A leads B on the
cycle 00, 10, 11, 01 of A and B. DEDUCED, log entry 80. -/
def State.tachCount (s : State) (m : Nat) (a b : Bool) : Option Int :=
  let t := s.trans m
  let ea := t.a != a
  let eb := t.b != b
  match s.fld (MIF_CFG m) MIF_CFG_decode with
  | 3 => some (if ea && a then s.pulseSign m else 0)
  | d =>
    if ea && eb then none
    else
      let lead : Int := if ea then (if a != b then 1 else -1) else if a = b then 1 else -1
      let counts := (ea && (a || d != 0)) || (eb && d = 2)
      some (if counts then lead else 0)

/-- MIF_CFG(m).filt. -/
def State.mifFilt (s : State) (m : Nat) : Nat := s.fld (MIF_CFG m) MIF_CFG_filt

/-- A slot in which pins A and B have these levels (R354 to R356): accepted changes count, after a load of that slot. -/
def State.tachSlot (s : State) (m : Fin 4) (a b : Bool) : State :=
  let s0 := s.posTake m
  let t := s0.trans m.val
  let (fa, a1) := t.filtA.sample (s0.mifFilt m.val) t.a a
  let (fb, b1) := t.filtB.sample (s0.mifFilt m.val) t.b b
  let s1 := s0.modTrans m.val fun t => { t with a := a1, b := b1, filtA := fa, filtB := fb }
  if !s0.mifOn m.val then s1
  else match s0.tachCount m.val a1 b1 with
    | none => (s1.bump (MIF_ERRS m.val) MIF_ERRS_quad).setFld (MIF_STAT m.val) MIF_STAT_qerr 1
    | some 0 => s1
    | some d => s1.posCount m.val (if s.bit (MIF_CFG m.val) MIF_CFG_invert then -d else d)

/-- TACH_EDGE (R355, R356): the levels of MEDm_TA and MEDm_TB in a 10 ns slot. -/
def execTachEdge (m : Fin 4) (a b : Bool) (s : State) : Host.Outcome State Fault Refusal :=
  s.runXo fun s => s.tachSlot m a b

/-- A slot in which pin DIR has this level (R354, R361). -/
def State.dirSlot (s : State) (m : Nat) (level : Bool) : State :=
  let t := s.trans m
  let (fd, d1) := t.filtD.sample (s.mifFilt m) t.dirPin level
  (s.modTrans m fun t => { t with dirPin := d1, filtD := fd }).mifFixDir m

/-- MED_DIR_EDGE (R361): the level of MEDm_DIR in a 10 ns slot. -/
def execMedDirEdge (m : Fin 4) (level : Bool) (s : State) : Host.Outcome State Fault Refusal :=
  s.runXo fun s => s.dirSlot m.val level

/-- A 48-bit pair of registers. -/
def State.pair48 (s : State) (lo hi : Nat) : Nat := (s.reg lo).toNat + (s.reg hi).toNat % 2 ^ 16 * 2 ^ 32

/-- An accepted edge of MEDm_IDX (R358). A disabled transport holds its position. -/
def State.indexTake (s : State) (m : Fin 4) (rising : Bool) : State :=
  let c := MIF_CFG m.val
  if s.bit c MIF_CFG_idx_pol = rising then s
  else
    let mode := s.fld c MIF_CFG_idx_mode
    let p := wrapInt 48 (s.trans m.val).pos
    let s1 := if mode = 0 then s
      else (s.setReg (MIF_IDX_CAP_LO m.val) (BitVec.ofNat 32 p)).setReg (MIF_IDX_CAP_HI m.val) (BitVec.ofNat 32 (p / 2 ^ 32))
    let s2 := if (s.wideOf (wideKey (.mifPos m))).load.isSome then s1.posTake m
      else if mode = 2 && s.mifOn m.val then s1.posLoad m.val (s.pair48 (MIF_IDX_LOAD_LO m.val) (MIF_IDX_LOAD_HI m.val))
      else s1
    (s2.setFld (MIF_STAT m.val) MIF_STAT_idx 1).raiseIf (s.bit c MIF_CFG_irq_idx) 443

/-- A slot in which pin IDX has this level (R354, R358). -/
def State.indexSlot (s : State) (m : Fin 4) (level : Bool) : State :=
  let t := s.trans m.val
  let (fi, i1) := t.filtI.sample (s.mifFilt m.val) t.idx level
  let s1 := s.modTrans m.val fun t => { t with idx := i1, filtI := fi }
  if i1 = t.idx then s1 else s1.indexTake m level

/-- INDEX_EDGE (R358): an edge of MEDm_IDX, whose new level the slot has. With filt at 0 it is accepted at once.
DEDUCED, log entry 84. -/
def execIndexEdge (m : Fin 4) (rising : Bool) (s : State) : Host.Outcome State Fault Refusal :=
  s.runXo fun s =>
    (if s.mifFilt m.val = 0 then s.modTrans m.val fun t => { t with idx := !rising } else s).indexSlot m rising

/-- A 10 ns slot passes: inputs whose new level is not accepted yet are sampled again (R354). -/
def State.mifSlot (s : State) : State :=
  ([0, 1, 2, 3] : List (Fin 4)).foldl (fun s m =>
    let t := s.trans m.val
    let s1 := if t.filtA.slots = 0 && t.filtB.slots = 0 then s else s.tachSlot m t.filtA.pin t.filtB.pin
    let s2 := if t.filtI.slots = 0 then s1 else s1.indexSlot m t.filtI.pin
    if t.filtD.slots = 0 then s2 else s2.dirSlot m.val t.filtD.pin) s

/-! ### Speed, STALL and spool (R359 to R363) -/

/-- MIF_RATIO of a speed (R360); a ratio outside the format is not stated: it is free. DESIGN CHOICE, log entry 81. -/
def State.mifRatio (s : State) (m : Nat) (speed : Int) : Int × State :=
  let rate := (s.reg (RSG_MED_NOM m)).toNat
  if rate = 0 then (0, s)
  else
    let (q, s1) := s.roundFree (speed * 4096000) rate
    if clampInt 32 q = q then (q, s1) else (s1.fresh.1.toInt, s1.fresh.2)

/-- STALL after a speed update (R362). -/
def State.stallJudge (s : State) (m : Nat) (speed : Int) : State :=
  let c := MIF_STALL_CFG m
  if speed.natAbs < 16 * s.fld c MIF_STALL_CFG_thr then
    let n := (s.trans m).lowFor + 1
    let s1 := s.modTrans m fun t => { t with lowFor := min n 255 }
    if s.fld c MIF_STALL_CFG_time ≤ n && !s.bit (MIF_STAT m) MIF_STAT_stall then s1.setFld (MIF_STAT m) MIF_STAT_stall 1
    else s1
  else (s.modTrans m fun t => { t with lowFor := 0 }).setFld (MIF_STAT m) MIF_STAT_stall 0

/-- Spool after STALL has been judged (R363); with a nominal rate of 0 it is never reported (R360). DEDUCED, log entry 83. -/
def State.spoolJudge (s : State) (m : Nat) (ratio : Int) : State :=
  let c := MIF_SPOOL_CFG m
  let off := ((ratio.natAbs : Int) - 65536).natAbs * 10000
  let lim := s.fld c MIF_SPOOL_CFG_lim
  let never := s.bit (MIF_STAT m) MIF_STAT_stall || (s.reg (RSG_MED_NOM m)).toNat = 0
  if s.bit (MIF_STAT m) MIF_STAT_spool then
    s.setFldIf (never || decide (off ≤ (lim - s.fld c MIF_SPOOL_CFG_hyst) * 65536)) (MIF_STAT m) MIF_STAT_spool 0
  else s.setFldIf (!never && decide (lim * 65536 < off)) (MIF_STAT m) MIF_STAT_spool 1

/-- SPEED_UPDATE (R359, R360, R362, R363): the update of every 1 ms. -/
def execSpeedUpdate (m : Fin 4) (s : State) : Host.Outcome State Fault Refusal :=
  s.runXo fun s =>
    let past := ((s.trans m.val).acc :: (s.trans m.val).past).take 10
    let speed := past.foldl (· + ·) 0 * 1600
    let s1 := (s.modTrans m.val fun t => { t with acc := 0, past := past }).setReg (MIF_SPEED m.val) (BitVec.ofInt 32 speed)
    let (ratio, s2) := s1.mifRatio m.val speed
    let s3 := s2.setReg (MIF_RATIO m.val) (BitVec.ofInt 32 ratio)
    if s.mifOn m.val then
      let s4 := ((s3.stallJudge m.val speed).spoolJudge m.val ratio).mifShow m.val
      if s4.bit (MIF_STAT m.val) MIF_STAT_stall && !s.bit (MIF_STAT m.val) MIF_STAT_stall then s4.gatesClose m.val 2 else s4
    else s3

/-- The latch of every transport and of the gates' lead positions at a Rally instant (R365). -/
def State.mifLatch (s : State) : State :=
  let leads := (List.range 16).foldl (fun l g => tabSet zeroInt l g (s.leadNow g)) []
  let t := { s with mif := { s.mif with leads := leads } }
  (List.range 4).foldl (fun t m =>
    t.modTrans m fun x => { x with
      latPos := x.pos, latRev := t.bit (MIF_STAT m) MIF_STAT_dir, latStall := t.bit (MIF_STAT m) MIF_STAT_stall,
      latSpool := t.bit (MIF_STAT m) MIF_STAT_spool }) t

/-- A write to RSG_MED_NOM(m): at a rate of 0 the ratio reads 0 and spool is not reported (R360). -/
def State.mifNom (s : State) (m : Nat) : State :=
  if s.reg (RSG_MED_NOM m) = 0 then
    ((s.setReg (MIF_RATIO m) 0).setFld (MIF_STAT m) MIF_STAT_spool 0).mifShow m
  else s

/-! ### Configuration (R355, R358, R374) -/

/-- The fields of a MIF_CFG word lie in their ranges. -/
def mifCfgOk (v : Word) : Bool :=
  !(MIF_CFG_decode.get v = 3 && MIF_CFG_dir_src.get v = 0) && MIF_CFG_idx_mode.get v != 3 && MIF_CFG_rev_hyst.get v != 0

/-- A transport starts counting: it leaves the disabled STALL state. DEDUCED, log entry 82. -/
def State.mifStart (s : State) (m : Nat) : State :=
  ((s.modTrans m fun t => { t with lowFor := 0 }).setFld (MIF_STAT m) MIF_STAT_stall 0).mifShow m

/-- A transport is disabled: it holds its position, reports STALL, and its gates close (R369, R374). -/
def State.mifStop (s : State) (m : Nat) : State :=
  (((s.setFld (MIF_STAT m) MIF_STAT_stall 1).setFld (MIF_STAT m) MIF_STAT_spool 0).mifShow m).gatesClose m 6

/-- A write to MIF_CFG(m): while en is 1 only en, the irq bits and rev_hyst may change. DEDUCED, log entry 86. -/
def writeMifCfg (m : Nat) (v : Word) : WriteEff := fun s =>
  let old := s.reg (MIF_CFG m)
  let fixed : Word := 0x00003FFE
  if !mifCfgOk v ∨ (s.mifOn m ∧ (old &&& fixed) ≠ (v &&& fixed)) then (.slverr, s)
  else
    let s1 := (s.plainWrite (MIF_CFG m) v).mifFixDir m
    let on := MIF_CFG_en.get v = 1
    (.ok, if on && !s.mifOn m then s1.mifStart m else if !on && s.mifOn m then s1.mifStop m else s1)

/-- MIF_ENABLE (R374): a write of 1 to en, with the other fields as v gives them. -/
def execMifEnable (m : Mid) (i : Fin 4) (v : Word) (s : State) : Host.Outcome State Fault Refusal :=
  s.run fun s => s.writeReg m.val (MIF_CFG i.val) (v ||| 1) (writeMifCfg i.val (v ||| 1))

/-- MIF_DISABLE (R374): a write of 0 to en. -/
def execMifDisable (m : Mid) (i : Fin 4) (v : Word) (s : State) : Host.Outcome State Fault Refusal :=
  s.run fun s => s.writeReg m.val (MIF_CFG i.val) (v &&& ~~~1) (writeMifCfg i.val (v &&& ~~~1))

/-! ### LTC (R371 to R373) -/

/-- A time address as numbers: hours, minutes, seconds, frames. -/
structure TimeAddr where
  h : Nat
  m : Nat
  s : Nat
  f : Nat
deriving DecidableEq, Repr

def bcd (n : Nat) : Nat := n / 16 % 16 * 10 + n % 16

def toBcd (n : Nat) : Nat := n / 10 % 10 * 16 + n % 10

def timeOf (w : Word) : TimeAddr :=
  ⟨bcd (w.toNat / 2 ^ 24), bcd (w.toNat / 2 ^ 16 % 256), bcd (w.toNat / 2 ^ 8 % 256), bcd (w.toNat % 256)⟩

def TimeAddr.word (t : TimeAddr) : Word :=
  BitVec.ofNat 32 (toBcd t.f + toBcd t.s * 2 ^ 8 + toBcd t.m * 2 ^ 16 + toBcd t.h * 2 ^ 24)

/-- Frames of a second, by fps code. -/
def fpsOf : Nat → Nat
  | 0 => 24
  | 1 => 25
  | _ => 30

/-- The lowest frame number of a minute's first second: 2 under the drop-frame rule, but for every tenth minute. -/
def firstFrame (fps : Nat) (t : TimeAddr) : Nat := if fps = 2 && t.s = 0 && t.m % 10 != 0 then 2 else 0

/-- The next time address. -/
def TimeAddr.next (fps : Nat) (t : TimeAddr) : TimeAddr :=
  if t.f + 1 < fpsOf fps then { t with f := t.f + 1 }
  else
    let u : TimeAddr :=
      if t.s < 59 then ⟨t.h, t.m, t.s + 1, 0⟩
      else if t.m < 59 then ⟨t.h, t.m + 1, 0, 0⟩
      else ⟨(t.h + 1) % 24, 0, 0, 0⟩
    { u with f := firstFrame fps u }

/-- Bits of a frame as a number, and a bit pair of fields as BCD. -/
def ltcBits (b : BitVec 80) (lo n : Nat) : Nat := b.toNat / 2 ^ lo % 2 ^ n

/-- The sync word of ST 12-1, in the order of bits 64 to 79. -/
abbrev ltcSync : Nat := 0xBFFC

/-- The 80 bits in reverse order. -/
def ltcReverse (b : BitVec 80) : BitVec 80 :=
  BitVec.ofNat 80 ((List.range 80).foldl (fun acc i => acc + b2n (b.getLsbD (79 - i)) * 2 ^ i) 0)

/-- The frame in forward order and whether it was read in reverse; none without a complete sync word (R371).
PRESUMED, log entry 88. -/
def ltcFrame (b : BitVec 80) : Option (BitVec 80 × Bool) :=
  if ltcBits b 64 16 = ltcSync then some (b, false)
  else if ltcBits (ltcReverse b) 64 16 = ltcSync then some (ltcReverse b, true)
  else none

/-- The time address of a frame (ST 12-1). -/
def ltcTime (b : BitVec 80) : Word :=
  BitVec.ofNat 32 (ltcBits b 0 4 + ltcBits b 8 2 * 16 + (ltcBits b 16 4 + ltcBits b 24 3 * 16) * 2 ^ 8 +
    (ltcBits b 32 4 + ltcBits b 40 3 * 16) * 2 ^ 16 + (ltcBits b 48 4 + ltcBits b 56 2 * 16) * 2 ^ 24)

/-- The user bits, group 1 lowest. -/
def ltcUser (b : BitVec 80) : Word :=
  BitVec.ofNat 32 ((List.range 8).foldl (fun acc i => acc + ltcBits b (8 * i + 4) 4 * 16 ^ i) 0)

/-- Where the binary group flags 0, 1 and 2 lie, by fps code; 25 fps has its own places (ST 12-1). -/
def bgfPlaces (fps : Nat) : List Nat := if fps = 1 then [27, 58, 43] else [43, 58, 59]

/-- Where the polarity correction bit lies. -/
def polPlace (fps : Nat) : Nat := if fps = 1 then 59 else 27

def ltcFlags (fps : Nat) (b : BitVec 80) : Nat :=
  (bgfPlaces fps).zipIdx.foldl (fun acc x => acc + ltcBits b x.1 1 * 2 ^ x.2) 0

/-- The reader's words of a frame: TC, UB, INFO, POS, RALLY, PHASE. The sync word of a frame read in reverse came before its
other bits, so position and count are those of that instant (R371, R372). -/
def State.ltcWords (s : State) (m : Nat) (b : BitVec 80) (rev : Bool) (speed : BitVec 16) (at_ : LtcCapture) : List Word :=
  let p := wrapInt 48 ((s.trans m).pos - if rev then at_.counts.toInt else 0)
  let k := (s.rallyCount + 2 ^ 48 - if rev then at_.samples.toNat else 0) % 2 ^ 48
  let info := b2n rev + ltcBits b 10 1 * 2 + ltcBits b 11 1 * 4 + ltcFlags (s.fld (MIF_LTCI_CFG m) MIF_LTCI_CFG_fps) b * 8 +
    speed.toNat * 2 ^ 16
  [ltcTime b, ltcUser b, BitVec.ofNat 32 info, BitVec.ofNat 32 p, BitVec.ofNat 32 (p / 2 ^ 32),
    BitVec.ofNat 32 k, BitVec.ofNat 32 (k / 2 ^ 32), BitVec.ofNat 32 at_.phase.toNat]

/-- A speed in 1/4,096 of nominal at which LTC is decoded: 0.1× to 10× (R371). -/
def ltcSpeedOk (speed : BitVec 16) : Bool := decide (4096 ≤ 10 * speed.toNat) && decide (speed.toNat ≤ 40960)

/-- LTC_FRAME_RECEIVE (R371, R372): 80 bits in the order received, whether their periods were consistent, the measured
speed, and the capture instant. Outside the range of speed nothing is decoded; a frame without either sync word, or with bad
periods, is bad. DEDUCED, log entry 87. -/
def execLtcFrameReceive (m : Fin 4) (b : BitVec 80) (periods : Bool) (speed : BitVec 16) (at_ : LtcCapture) (s : State) :
    Host.Outcome State Fault Refusal :=
  s.run fun s =>
    if !ltcSpeedOk speed then s
    else match (if periods then ltcFrame b else none) with
    | none => (s.bump (MIF_LTCI_ERRS m.val) whole).setFld (MIF_STAT m.val) MIF_STAT_ltc_err 1
    | some (f, rev) =>
      let fps := s.fld (MIF_LTCI_CFG m.val) MIF_LTCI_CFG_fps
      let t := s.trans m.val
      let old := timeOf (t.ltc.getD 0 0)
      let now := timeOf (ltcTime f)
      let follows := if rev then now.next fps = old else old.next fps = now
      let s1 := s.modTrans m.val fun t => { t with ltcSeen := true, ltc := s.ltcWords m.val f rev speed at_ }
      ((s1.setFld (MIF_STAT m.val) MIF_STAT_ltc_valid (b2n (t.ltcSeen && follows))).setFld (MIF_STAT m.val)
        MIF_STAT_ltc_new 1).raiseIf (s.bit (MIF_CFG m.val) MIF_CFG_irq_ltc) 444

/-- LTC_TIMEOUT (R372): no good frame for 500 ms. -/
def execLtcTimeout (m : Fin 4) (s : State) : Host.Outcome State Fault Refusal :=
  s.run fun s => s.setFld (MIF_STAT m.val) MIF_STAT_ltc_valid 0

/-- The 80 bits of a frame without its polarity correction. -/
def ltcPlain (tc ub : Word) (df cf : Bool) : Nat :=
  let t := tc.toNat
  let dig (place n lo : Nat) : Nat := t / 2 ^ place % 2 ^ n * 2 ^ lo
  let time := dig 0 4 0 + dig 4 2 8 + dig 8 4 16 + dig 12 3 24 + dig 16 4 32 + dig 20 3 40 + dig 24 4 48 + dig 28 2 56
  let user := (List.range 8).foldl (fun acc i => acc + ub.toNat / 16 ^ i % 16 * 2 ^ (8 * i + 4)) 0
  time + user + b2n df * 2 ^ 10 + b2n cf * 2 ^ 11 + ltcSync * 2 ^ 64

/-- The 80 bits of a frame: the polarity correction makes the number of zeros even. -/
def ltcEncode (fps : Nat) (tc ub : Word) (cf : Bool) : BitVec 80 :=
  let p := ltcPlain tc ub (fps = 2) cf
  let odd := (List.range 80).countP (fun i => !bitOf p i) % 2 = 1
  BitVec.ofNat 80 (if odd then p + 2 ^ polPlace fps else p)

/-- A write to MIF_LTCO_CTRL(m) (R373): a write to fps while the generator runs is refused; ub_commit takes the user bits of
the next frame. DEDUCED, log entry 89. -/
def writeLtcoCtrl (m : Nat) (v : Word) : WriteEff := fun s =>
  let c := MIF_LTCO_CTRL m
  let run := (s.trans m).genOn
  if run ∧ MIF_LTCO_CTRL_fps.get v ≠ s.fld c MIF_LTCO_CTRL_fps then (.slverr, s)
  else
    let s1 := s.plainWrite c v
    (.ok, if MIF_LTCO_CTRL_ub_commit.get v = 1 then
      s1.modTrans m fun t => { t with genUb := s.reg (MIF_LTCO_UB m) } else s1)

/-- LTC_ARM (R373): a write of 1 to arm. -/
def execLtcArm (m : Mid) (i : Fin 4) (v : Word) (s : State) : Host.Outcome State Fault Refusal :=
  s.run fun s => s.writeReg m.val (MIF_LTCO_CTRL i.val) (v ||| 8) (writeLtcoCtrl i.val (v ||| 8))

/-- LTC_UB_COMMIT (R373): a write of 1 to ub_commit. -/
def execLtcUbCommit (m : Mid) (i : Fin 4) (v : Word) (s : State) : Host.Outcome State Fault Refusal :=
  s.run fun s => s.writeReg m.val (MIF_LTCO_CTRL i.val) (v ||| 16) (writeLtcoCtrl i.val (v ||| 16))

/-- LTC_STOP (R373): a write of 0 to en; the frame in progress is the last. -/
def execLtcStop (m : Mid) (i : Fin 4) (v : Word) (s : State) : Host.Outcome State Fault Refusal :=
  s.run fun s => s.writeReg m.val (MIF_LTCO_CTRL i.val) (v &&& ~~~1) (writeLtcoCtrl i.val (v &&& ~~~1))

/-- At a Rally instant an armed generator's start becomes due: at its key, or late when the key lies in the past. -/
def State.ltcRally (s : State) (m : Nat) : State :=
  let c := MIF_LTCO_CTRL m
  if s.bit c MIF_LTCO_CTRL_en && s.bit c MIF_LTCO_CTRL_arm && (s.trans m).genDue.isNone then
    let key := s.pair48 (MIF_LTCO_START_LO m) (MIF_LTCO_START_HI m)
    if key = s.rallyCount then s.modTrans m fun t => { t with genDue := some false }
    else if s.rallyPast key then s.modTrans m fun t => { t with genDue := some true }
    else s
  else s

/-- A frame goes out with a time address. -/
def State.ltcEmit (s : State) (m : Nat) (tc : Word) : State :=
  let c := MIF_LTCO_CTRL m
  let f := ltcEncode (s.fld c MIF_LTCO_CTRL_fps) tc (s.trans m).genUb (s.bit c MIF_LTCO_CTRL_cf)
  let s1 := (s.modTrans m fun t => { t with genOn := true, genTc := tc }).setFld c MIF_LTCO_CTRL_ub_commit 0
  { s1 with mif := { s1.mif with ltcOut := s1.mif.ltcOut ++ [(m, f)] } }

/-- LTC_FRAME_START (R373): the generator starts its first frame when that is due, or the next one; a stopped generator
ends with the frame before. -/
def execLtcFrameStart (m : Fin 4) (s : State) : Host.Outcome State Fault Refusal :=
  s.runXo fun s =>
    let c := MIF_LTCO_CTRL m.val
    let t := s.trans m.val
    if !s.bit c MIF_LTCO_CTRL_en then s.modTrans m.val fun t => { t with genOn := false, genDue := none }
    else match (if s.pwr.hold then none else t.genDue) with
      | some late =>
        (((s.modTrans m.val fun t => { t with genDue := none }).setFld c MIF_LTCO_CTRL_arm 0).setFldIf late c
          MIF_LTCO_CTRL_late 1).ltcEmit m.val (s.reg (MIF_LTCO_TC m.val))
      | none =>
        if t.genOn then s.ltcEmit m.val ((timeOf t.genTc).next (s.fld c MIF_LTCO_CTRL_fps)).word else s

/-! ### Registers -/

/-- A write to a register of the MIF other than a position's words. -/
def mifWrite (a : Nat) (v : Word) : WriteEff := fun s =>
  if a = MIF_GATE_SET then writeGateSet v s
  else if a = MIF_GATE_CLR then writeGateClr v s
  else if MIF_GATE_CFG 0 ≤ a ∧ a < MIF_GATE_CFG 16 then
    let g := (a - MIF_GATE_CFG 0) / 8
    if a = MIF_GATE_CFG g then writeGateCfg g v s else if s.gateOn g then (.slverr, s) else (.ok, s.plainWrite a v)
  else if MIF_CFG 0 ≤ a ∧ a < MIF_CFG 4 then
    let m := (a - MIF_CFG 0) / 0x100
    let run := (s.trans m).genOn
    if a = MIF_CFG m then writeMifCfg m v s
    else if a = MIF_LTCO_CTRL m then writeLtcoCtrl m v s
    else if run ∧ (a = MIF_LTCO_TC m ∨ a = MIF_LTCO_START_LO m ∨ a = MIF_LTCO_START_HI m) then (.slverr, s)
    else if a = MIF_STALL_CFG m ∧ MIF_STALL_CFG_time.get v = 0 then (.slverr, s)
    else if a = MIF_SPOOL_CFG m ∧ (MIF_SPOOL_CFG_lim.get v = 0 ∨ 5000 < MIF_SPOOL_CFG_lim.get v ∨
        MIF_SPOOL_CFG_lim.get v ≤ MIF_SPOOL_CFG_hyst.get v) then (.slverr, s)
    else (.ok, s.plainWrite a v)
  else (.ok, s.plainWrite a v)

/-- A read of MIF_LTCO_TC while the generator runs (R373). -/
def State.mifRead (s : State) (a : Nat) : Option Word :=
  if MIF_CFG 0 ≤ a ∧ a < MIF_CFG 4 then
    let m := (a - MIF_CFG 0) / 0x100
    let t := s.trans m
    if a = MIF_LTCO_TC m ∧ t.genOn then some t.genTc
    else none
  else none

end Sys2Proof.Machine
end

