-- ==== Sys2Proof/Machine/Cue.lean ====
section
/-! DEFINITION. The cue engine: keys, the pass of a Rally instant, and actions (12 R346 to R353). -/

namespace Sys2Proof.Machine

abbrev cueStation : Nat := 28

def cueDefault (_ : Nat) : CueSt := ⟨0, 0, false, none, false, false⟩

def State.cueOf (s : State) (c : Nat) : CueSt := tabGet cueDefault s.cue.cues c

def State.modCue (s : State) (f : CueEng → CueEng) : State := { s with cue := f s.cue }

def State.setCue (s : State) (c : Nat) (v : CueSt) : State :=
  s.modCue fun e => { e with cues := tabSet cueDefault e.cues c v }

/-! ### Fields of a key (Table: Cue key) -/

def CueSt.hiField (c : CueSt) (hi lo : Nat) : Nat := Fld.get ⟨hi, lo⟩ c.hi
def CueSt.key (c : CueSt) : Nat := c.lo.toNat + c.hiField 15 0 * 2 ^ 32
def CueSt.typ (c : CueSt) : Nat := c.hiField 17 16
def CueSt.transport (c : CueSt) : Nat := c.hiField 19 18
def CueSt.dir (c : CueSt) : Nat := c.hiField 21 20
def CueSt.skip (c : CueSt) : Bool := c.hiField 22 22 = 1
def CueSt.en (c : CueSt) : Bool := c.hiField 23 23 = 1
def CueSt.hyst (c : CueSt) : Nat := c.hiField 31 24

/-! ### Actions (Table: Cue action entry) -/

/-- The address of the action entry of cue c. -/
def State.actAddr (s : State) (c : Nat) : Nat := (s.reg CUE_ACT_BASE).toNat + 16 * c

/-- Word 0 of the action entry as it lies in the Mantel, by which a GATE cue is told from others (R367).
DEDUCED, log entry 40. -/
def State.actWord (s : State) (c : Nat) : Nat := s.mantelWord (s.actAddr c / 8) % 2 ^ 32

/-- The position that a MEDIUM cue is held against: of its transport, or the lead position of its gate (R348, R367). -/
def State.cuePos (s : State) (c : Nat) (q : CueSt) : Int :=
  let w := s.actWord c
  let g := w / 2 ^ 4 % 16
  if w % 8 = 3 && s.gateTrans g = q.transport then s.leadPos g else (s.trans q.transport).latPos

/-! ### Keys (R346, R348, R352) -/

/-- Nanoseconds in 2^18 s. -/
abbrev ptpCycle : Nat := 2 ^ 18 * 1000000000

/-- A PTP key as ns. -/
def CueSt.ptpNs (c : CueSt) : Nat := c.key / 2 ^ 30 * 1000000000 + c.key % 2 ^ 30

/-- The key of a time cue has been reached (R352): modulo 2^18 s for PTP, under R129's test for RALLY. -/
def State.cuePast (s : State) (q : CueSt) : Bool :=
  if q.typ = 1 then
    let d := (q.ptpNs + ptpCycle - s.tsu.ns % ptpCycle) % ptpCycle
    d = 0 || decide (ptpCycle / 2 ≤ d)
  else s.rallyPast q.key

/-- A MEDIUM cue takes its state from the position; nothing fires (R348). -/
def State.cueInit (s : State) (c : Nat) (q : CueSt) : CueSt :=
  { q with above := decide (signed 48 q.key ≤ s.cuePos c q), held := none }

/-- A write to CUE_KEY_HI(c) (R346): the key's words are loaded together and the cue is initialised. -/
def writeCueKey (c : Nat) (v : Word) : WriteEff := fun s =>
  let q : CueSt := ⟨s.reg (CUE_KEY_LO c), v, false, none, false, false⟩
  if q.en && (q.typ = 3 || q.dir = 3) then (.slverr, s)
  else
    let s1 := s.setReg (CUE_KEY_HI c) v
    (.ok, if q.typ = 0 then s1.setCue c (s.cueInit c q) else s1.setCue c { q with late := s.cuePast q })

/-- CUE_KEY_WRITE (R346). -/
def execCueKeyWrite (m : Mid) (c : Fin 4096) (v : Word) (s : State) : Host.Outcome State Fault Refusal :=
  s.run fun s => s.writeReg m.val (CUE_KEY_HI c.val) v (writeCueKey c.val v)

/-- CUE_STATE(c). -/
def State.cueState (s : State) (c : Nat) : Word :=
  let q := s.cueOf c
  BitVec.ofNat 32 (b2n q.above + b2n (q.held.getD false) * 2 + b2n q.fired * 4)

/-! ### Actions of a firing (R349, R353) -/

/-- A firing: the cue, whether the crossing was in reverse, whether the inverse action is taken, whether it is a catch-up,
and whether a time cue is late. -/
structure CueFire where
  cue : Nat
  reverse : Bool
  mirrored : Bool
  catchUp : Bool
  late : Bool

/-- A failed action (R353): 1 refused, 2 ECC. -/
def State.cueErr (s : State) (c cause : Nat) : State :=
  let s1 := (s.bump CUE_ERR_COUNT whole).setFld CUE_STAT CUE_STAT_err 1
  if s1.bit CUE_ERR_INFO CUE_ERR_INFO_valid then s1
  else s1.setReg CUE_ERR_INFO (BitVec.ofNat 32 (c + cause * 2 ^ 12 + 2 ^ 31))

/-- The action of an entry: two 64-bit words, and the cue's transport (R353). DEDUCED, log entry 38.
DEDUCED, log entry 39. -/
def State.cueAct (s : State) (f : CueFire) (lo hi : Nat) : State :=
  let w0 := lo % 2 ^ 32
  let set := w0 / 2 ^ 4 % 16
  let n := (s.rallyCount + s.fld CUE_CTRL CUE_CTRL_lead) % 2 ^ 48
  match w0 % 8 with
  | 1 =>
    let v := if f.mirrored then BitVec.ofNat 32 hi else BitVec.ofNat 32 (lo / 2 ^ 32)
    let least := (s.rallyCount + s.dmpLead) % 2 ^ 48
    let late := countDiff n least < 0
    let (done, s1) := s.dmpPut ⟨w0 / 2 ^ 16, v, s.rankOf midCue, midCue⟩ (if late then least else n) .nobody
    if done then s1.setFldIf late DMP_STAT DMP_STAT_wr_late 1 else s1.cueErr f.cue 1
  | 2 =>
    let (done, s1) := s.issueKick midCue n (if f.mirrored then w0 / 2 ^ 8 % 16 else set) (bitOf w0 3) false
    if done then s1 else s1.cueErr f.cue 1
  | 3 =>
    let r : GateReq := ⟨set, (s.cueOf f.cue).transport, bitOf w0 12 != f.mirrored⟩
    { s with mif := { s.mif with gateReqs := s.mif.gateReqs ++ [r] } }
  | 4 =>
    let w3 := hi / 2 ^ 32
    s.stationSend cueStation
      ⟨.event, s.rallyCount % 256, if f.mirrored then w3 / 2 ^ 16 % 4096 else w3 % 4096, BitVec.ofNat 32 (lo / 2 ^ 32)⟩
  | _ => s

/-- The log entry of a firing at count k. -/
def CueFire.entry (f : CueFire) (k : Nat) : Word :=
  BitVec.ofNat 32 (f.cue + b2n f.reverse * 2 ^ 12 + b2n f.mirrored * 2 ^ 13 + b2n f.catchUp * 2 ^ 14 +
    b2n f.late * 2 ^ 15 + k % 256 * 2 ^ 16 + 2 ^ 31)

/-- A firing is logged and counted (R353). -/
def State.cueCount (s : State) (f : CueFire) : State :=
  let s1 := if 16 ≤ s.cue.log.length then s.setFld CUE_STAT CUE_STAT_log_ovf 1
    else s.modCue fun e => { e with log := e.log ++ [f.entry s.rallyCount] }
  ((s1.bump CUE_FIRED whole).setFld CUE_STAT CUE_STAT_fired 1).setFldIf f.catchUp CUE_STAT CUE_STAT_caught 1

/-- A cue fires. -/
def State.cueFire (s : State) (f : CueFire) : State :=
  let a := s.actAddr f.cue
  let s1 := s.cueCount f
  match s1.dmaRead midCue a .b64 with
  | (none, s2) => s2.cueErr f.cue 2
  | (some lo, s2) =>
    match s2.dmaRead midCue (a + 8) .b64 with
    | (none, s3) => (s3.cueErr f.cue 2).raiseIf (bitOf lo 13) 440
    | (some hi, s3) => (s3.cueAct f lo hi).raiseIf (bitOf lo 13) 440

/-! ### The pass (R347 to R352) -/

/-- A cue's state after a position under its hysteresis. -/
def CueSt.follow (q : CueSt) (p : Int) : Bool :=
  if q.above then !decide (p < signed 48 q.key - q.hyst) else decide (signed 48 q.key ≤ p)

/-- What a crossing fires (Table: Crossings and direction policy). -/
def CueSt.policy (q : CueSt) (c : Nat) (forward catchUp : Bool) : List CueFire :=
  if forward then [⟨c, false, false, catchUp, false⟩]
  else match q.dir with
    | 0 => []
    | 1 => [⟨c, true, false, catchUp, false⟩]
    | _ => [⟨c, true, true, catchUp, false⟩]

/-- What one cue does in a pass: its state, its firings, and whether a catch-up was skipped. DEDUCED, log entry 41. -/
def State.cueStep (s : State) (timed : Bool) (c : Nat) (q : CueSt) : CueSt × List CueFire × Bool :=
  if !q.en then (q, [], false)
  else if q.typ = 0 then
    let t := s.trans q.transport
    let p := s.cuePos c q
    let now := q.follow p
    if t.loaded then (s.cueInit c q, [], false)
    else if t.latStall then ({ q with above := now, held := some (q.held.getD q.above) }, [], false)
    else if t.latSpool then ({ q with above := now, held := none }, [], false)
    else match q.held with
      | some h =>
        let q1 := { q with above := now, held := none }
        if now = h then (q1, [], false)
        else if q.skip then (q1, [], true)
        else (q1, q.policy c now true, false)
      | none => ({ q with above := now }, if now = q.above then [] else q.policy c now false, false)
  else if timed && !q.fired && s.cuePast q then ({ q with fired := true }, [⟨c, false, false, false, q.late⟩], false)
  else (q, [], false)

/-- A jump of RALLY_COUNT passes over the keys of RALLY cues: they fire late (R127). -/
def State.cueJump (s : State) (passed : Nat → Bool) : State :=
  s.modCue fun e => { e with cues := tabMap cueDefault (fun _ q =>
    if q.en && q.typ = 2 && !q.fired && passed q.key then { q with late := true } else q) e.cues }

/-- Puts a firing into a list in the order of the keys. -/
def insertByKey (key : CueFire → Int) (f : CueFire) : List CueFire → List CueFire
  | [] => [f]
  | g :: rest => if key g ≤ key f then g :: insertByKey key f rest else f :: g :: rest

/-- The order of the firings of a pass (R347, R350): in ascending cue number, then the catch-ups, forward ones by ascending
key and reverse ones by descending key. -/
def orderFires (key : CueFire → Int) (l : List CueFire) : List CueFire :=
  let fwd := l.filter fun f => f.catchUp && !f.reverse
  let rev := l.filter fun f => f.catchUp && f.reverse
  (l.filter fun f => !f.catchUp) ++ fwd.foldl (fun acc f => insertByKey key f acc) [] ++
    rev.foldl (fun acc f => insertByKey (fun g => -key g) f acc) []

/-- The pass of a Rally instant (R347): every cue is judged against what was latched, then the firings act. -/
def State.cuePass (s : State) : State :=
  if !s.bit CUE_CTRL CUE_CTRL_en then s
  else
    let timed := s.bit CUE_CTRL CUE_CTRL_auto_eval || s.cue.evalNow
    let steps := s.cue.cues.map fun e => (e.1, s.cueStep timed e.1 e.2)
    let s1 := steps.foldl (fun t x => t.setCue x.1 x.2.1) s
    let skipped := steps.countP fun x => x.2.2.2
    let s2 := if skipped = 0 then s1 else (s1.bumpBy CUE_SKIPPED whole skipped).setFld CUE_STAT CUE_STAT_skipped 1
    let s3 := (List.range 4).foldl (fun t m => t.modTrans m fun x => { x with loaded := false })
      (s2.modCue fun e => { e with evalNow := false })
    (orderFires (fun f => signed 48 (s.cueOf f.cue).key) (steps.flatMap fun x => x.2.2.1)).foldl State.cueFire s3

/-- CUE_EVAL_NOW (R347): a pass of time cues at the next Rally instant. -/
def State.cueRequest (s : State) : State := s.modCue fun e => { e with evalNow := true }

def writeEvalNow (v : Word) : WriteEff := accept fun s => if bitOf v.toNat 0 then s.cueRequest else s

def execCueEvalNow (m : Mid) (v : Word) (s : State) : Host.Outcome State Fault Refusal :=
  s.run fun s => s.writeReg m.val CUE_EVAL_NOW (v ||| 1) (writeEvalNow (v ||| 1))

/-- A read of CUE_LOG pops the oldest entry (R353). -/
def cuePop (s : State) : Resp × Word × State :=
  match s.cue.log with
  | [] => (.ok, 0, s)
  | w :: rest => (.ok, w, s.modCue fun e => { e with log := rest })

/-- CUE_LOG_POP (R353). -/
def execCueLogPop (m : Mid) (s : State) : Host.Outcome State Fault Refusal :=
  s.run fun s => s.readReg m.val CUE_LOG cuePop

/-! ### Registers -/

/-- A write to a register of the cue engine. -/
def cueWrite (a : Nat) (v : Word) : WriteEff :=
  if a = CUE_EVAL_NOW then writeEvalNow v
  else if a = CUE_CTRL then
    acceptIf (8 ≤ CUE_CTRL_lead.get v && CUE_CTRL_lead.get v ≤ 120) fun s => s.plainWrite a v
  else if CUE_KEY_LO 0 ≤ a ∧ a < CUE_KEY_LO 4096 ∧ a % 8 = 4 then writeCueKey ((a - CUE_KEY_LO 0) / 8) v
  else accept fun s => s.plainWrite a v

/-- A read of CUE_STATE. -/
def State.cueRead (s : State) (a : Nat) : Option Word :=
  if CUE_STATE 0 ≤ a ∧ a < CUE_STATE 4096 then some (s.cueState ((a - CUE_STATE 0) / 4)) else none

end Sys2Proof.Machine
end

