-- ==== Sys2Proof/Machine/Chimney.lean ====
section
/-! DEFINITION. The Chimney: training, election, Rally frames, slots, maps, events and remote access (15). -/

namespace Sys2Proof.Machine

/-! ### Leader, follower and Rally lock (R409 to R415) -/

def State.serial (s : State) : Nat := (tabGet zeroWord s.otp 0).toNat + (tabGet zeroWord s.otp 1).toNat * 2 ^ 32

/-- Candidate a outranks b: higher priority, then lower serial number (R409). -/
def outranks (a b : Nat × Nat × Nat) : Bool := b.1 < a.1 || (a.1 = b.1 && a.2.1 < b.2.1)

def better (a b : Option (Nat × Nat × Nat)) : Option (Nat × Nat × Nat) :=
  match a, b with
  | none, y => y
  | x, none => x
  | some x, some y => if outranks y x then some y else some x

/-- This engine as a candidate; one with lead_prio 0 is none. -/
def State.ownCand (s : State) : Option (Nat × Nat × Nat) :=
  let prio := s.fld CHM_CTRL CHM_CTRL_lead_prio
  if prio = 0 then none else some (prio, s.serial, s.chmId)

/-- The candidate that port p's neighbour named; this engine knows its own better. -/
def State.portCand (s : State) (p : Nat) : Option (Nat × Nat × Nat) := (s.chmPort p).cand.filter fun c => c.2.1 != s.serial

/-- The best candidate that this engine knows. -/
def State.bestCand (s : State) : Option (Nat × Nat × Nat) :=
  (List.range 4).foldl (fun b p => better b (s.portCand p)) s.ownCand

/-- The links to the best candidate, by the shortest way that the neighbours name. -/
def State.bestHops (s : State) : Nat :=
  if s.bestCand = s.ownCand then 0
  else (List.range 4).foldl (fun n p => if s.portCand p = s.bestCand then min n (s.chmPort p).candHops else n) 64

/-- This engine leads. -/
def State.chmLeads (s : State) : Bool := s.bit CHM_ID CHM_ID_leader

/-- An engine that counts by a leader's frames (R412, R414): enabled, not the leader, not under PTP. -/
def State.chmAwaits (s : State) : Bool :=
  s.bit CHM_CTRL CHM_CTRL_en && !s.chmLeads && s.rallySrc != 1

/-- A Chimney follower (R412). -/
def State.chmFollows (s : State) : Bool :=
  s.chmAwaits && s.chm.leader.isSome && s.chmReach (s.fld CHM_ID CHM_ID_leader_id)

/-- CHM_STAT.follower follows its conditions. -/
def State.chmRefresh (s : State) : State :=
  let f := s.chmFollows
  (s.setFld CHM_STAT CHM_STAT_follower (b2n f)).setFldIf (!f) CHM_STAT CHM_STAT_rally_lock 0

/-- No engine leads any more. -/
def State.chmLeaderless (s : State) : State :=
  if s.chm.leader.isNone then s
  else (((s.setFld CHM_ID CHM_ID_leader 0).setFld CHM_STAT CHM_STAT_leader_chg 1).modChm fun x => { x with leader := none }).chmRefresh

/-- The election settles (R409, R410): the best candidate leads; the first one after en is set gives the leader ID 0 in
id_mode 1. Without a candidate there is no leader. -/
def State.chmElect (s : State) : State :=
  match s.bestCand with
  | none => s.chmLeaderless
  | some c =>
    let me := c.2.1 = s.serial
    let auto := s.bit CHM_CTRL CHM_CTRL_id_mode
    let s1 := if me && auto && !s.bit CHM_ID CHM_ID_locked then
        (s.setFld CHM_ID CHM_ID_id 0).setFld CHM_ID CHM_ID_locked 1 else s
    let id := if me then s1.chmId else c.2.2
    let s2 := (s1.setFld CHM_ID CHM_ID_leader (b2n me)).setFld CHM_ID CHM_ID_leader_id id
    let s3 := (s2.setReg CHM_LEAD_SER_LO (BitVec.ofNat 32 c.2.1)).setReg CHM_LEAD_SER_HI (BitVec.ofNat 32 (c.2.1 / 2 ^ 32))
    let changed := (s.chm.leader.map fun l => l.2.1) != some c.2.1
    ((s3.setFldIf changed CHM_STAT CHM_STAT_leader_chg 1).modChm fun x => { x with leader := some (c.1, c.2.1, id) }).chmRefresh

/-- A beacon on every UP port names the best candidate (R409): ENGINE_ID in the destination field, priority in the tag
field, serial number as data, the write bit for a sender whose ID is in force, and in [46:40] of the header the links from the
receiver to the candidate. That layout is not stated. -/
def State.chmBeacon (s : State) : State :=
  match s.bestCand with
  | none => s
  | some (prio, serial, id) =>
    let k := mkCtrl kindBeacon id s.chmId prio s.idSure 0 serial
    let hops := min 127 (s.bestHops + 1)
    (List.range 4).foldl (fun t p => t.chmSend p { k with hdr := BitVec.ofNat 56 (k.hdr.toNat + hops * 2 ^ 40) }) s

/-- Another engine claims this engine's ID (R410): its serial number, where it is known. DEDUCED, log entry 111. -/
def State.chmDup (s : State) (serial : Option Nat) : State :=
  (s.setFld CHM_ID CHM_ID_dup 1).modChm fun c => { c with dupWith := serial }

/-- An engine of this serial number claims an ID: this engine's, or after a claim of that another one. -/
def State.chmClaim (s : State) (id serial : Nat) : State :=
  if id = s.chmId && s.idSure && serial != s.serial then s.chmDup (some serial)
  else if s.chm.dupWith = some serial then
    (s.setFld CHM_ID CHM_ID_dup 0).modChm fun c => { c with dupWith := none }
  else s

/-- The neighbour's serial number (R404). -/
def State.nbrSerial (s : State) (p : Nat) : Nat := (s.reg (CHM_P_NBR_SER_LO p)).toNat + (s.reg (CHM_P_NBR_SER_HI p)).toNat * 2 ^ 32

/-- A change that starts the election again: beacons go out and the settling time starts. -/
def State.chmChanged (s : State) : State := ((s.modChm fun c => { c with stable := 0 }).chmRefresh).chmBeacon

/-- BEACON_SEND (R409): every 10 µs; an election that has seen no change for 50 µs settles. DEDUCED, log entry 110. -/
def execBeaconSend (s : State) : Host.Outcome State Fault Refusal :=
  s.runXo fun s =>
    if s.bit CHM_CTRL CHM_CTRL_en then
      let s1 := (s.modChm fun c => { c with stable := min 5 (c.stable + 1) }).chmBeacon
      if s.chm.stable = 4 then s1.chmElect else s1
    else s

/-- BEACON_RECEIVE (R409, R410): the oldest beacon that has arrived, and the links that its sender knows not to be UP. A candidate
as many links away as the system has engines is there no more. In id_mode 1 the first beacon from a neighbour whose ID is in
force gives this engine its position. -/
def execBeaconReceive (down : List ChmEnd) (s : State) : Host.Outcome State Fault Refusal :=
  s.run fun s => match s.takeCtrl kindBeacon with
    | none => s
    | some ((p, k), s1) =>
      let c := (k.tag, k.word, k.dest)
      let hops := k.field 46 40
      let known := (s.bestCand, s.bestHops)
      let s2 := (s1.modChmPort p fun x => { x with cand := if hops < s.chmNet.size then some c else none, candHops := hops }).modChm
        fun x => { x with downLinks := down.map fun e => (e.engine.val, e.port.val) }
      let sure := k.field 36 36 = 1
      let s3 := if sure && s.bit CHM_CTRL CHM_CTRL_id_mode && !s.bit CHM_ID CHM_ID_locked then
          match s.chmNet.beyond k.src (facing p) with
          | some v => (s2.setFld CHM_ID CHM_ID_id v).setFld CHM_ID CHM_ID_locked 1
          | none => s2
        else s2
      let s4 := if sure then (s3.chmClaim k.src (s.nbrSerial p)).chmClaim k.dest k.word else s3
      if (s4.bestCand, s4.bestHops) = known then s4.chmRefresh else s4.chmChanged

/-! ### Link bring-up (R401, R404, R405) -/

/-- BLOCK_LOCK_CHANGE (R401): headers of received blocks; loss of block lock takes the port DOWN, and with lock an enabled
port trains. -/
def State.chmHeader (p : Nat) (s : State) (h : BitVec 2) : State :=
  let s1 := s.modChmPort p fun c => c.header h
  let was := (s.chmPort p).lock
  let now := (s1.chmPort p).lock
  if was && !now then (if s.chmState p = chmDown then s1 else (s1.chmGoDown p).chmChanged)
  else if !was && now then s1.chmStart p
  else s1

def execBlockLockChange (p : Fin 4) (hdrs : List (BitVec 2)) (s : State) : Host.Outcome State Fault Refusal :=
  s.runLit fun s => hdrs.foldl (State.chmHeader p.val) s

/-- The neighbour's TRAIN breaks the wiring rules (R405): topology, dimensions, port pairing, or a static ENGINE_ID. -/
def State.wiringBad (s : State) (p : Nat) (k : ChmPacket) : Bool :=
  let ctl := s.reg CHM_CTRL
  k.field 17 16 != CHM_CTRL_topo.get ctl || k.field 23 18 != CHM_CTRL_xdim.get ctl ||
    k.field 26 24 != CHM_CTRL_ydim.get ctl || k.field 15 14 != facing p ||
    (!s.bit CHM_CTRL CHM_CTRL_id_mode && s.chmNet.beyond s.chmId p != some (k.field 5 0))

/-- The neighbour's registers (R404). -/
def State.chmNeighbour (s : State) (p : Nat) (k : ChmPacket) : State :=
  ((s.setReg (CHM_P_NBR_SER_LO p) (BitVec.ofNat 32 k.word)).setReg (CHM_P_NBR_SER_HI p) (BitVec.ofNat 32 (k.word / 2 ^ 32))).setReg
    (CHM_P_NBR_INFO p) (BitVec.ofNat 32 (k.field 5 0 + k.field 15 14 * 2 ^ 8 + k.field 13 6 * 2 ^ 16))

/-- Four delays in a row in 1/4 ns agree within 2 ns. -/
def delaysAgree (l : List Int) : Bool :=
  l.length = 4 && l.all fun a => l.all fun b => (a - b).natAbs ≤ 8

/-- A port ends its training with four delays that agree: a last TRAIN for the other end, then UP, or ISOLATED (R404, R405). -/
def State.chmTrained (s : State) (p : Nat) (k : ChmPacket) (l : List Int) : State :=
  let sum := l.foldl (· + ·) 0
  let (mean, s1) := (s.chmTrainOut p).roundFree sum 16
  let s2 := s1.setReg (CHM_P_DELAY p) (BitVec.ofInt 32 mean)
  if s.wiringBad p k then
    ((s2.setFld (CHM_P_STAT p) CHM_P_STAT_state chmIsolated).setFld (CHM_P_STAT p) CHM_P_STAT_topo 1).setFld CHM_STAT
      CHM_STAT_topo 1
  else
    let s3 := (s2.setFld (CHM_P_STAT p) CHM_P_STAT_state chmUp).setFld (CHM_P_STAT p) CHM_P_STAT_long (b2n (80 * 16 < sum))
    let s4 := (s3.setFld CHM_STAT CHM_STAT_link_chg 1).setReg CHM_WAKE (s.reg CHM_WAKE &&& ~~~BitVec.ofNat 32 (2 ^ p))
    s4.chmChanged

/-- A Let that takes the port DOWN changes the election's ports. -/
def State.chmAfter (s : State) (p : Nat) (old : State) : State :=
  if old.chmState p = chmUp && s.chmState p != chmUp then s.chmChanged else s

/-- When the TRAIN that a packet answers went out. -/
def ChmPort.answered (c : ChmPort) (k : ChmPacket) : Option Nat := c.sentAt[(c.trainNo + 256 - k.field 47 40) % 256]?

/-- The delay that a TRAIN packet shows, in 1/4 ns (R404): none for one that answers no TRAIN of this training. -/
def State.trainDelay (s : State) (p : Nat) (k : ChmPacket) : Option Int :=
  match (if k.field 27 27 = 1 then (s.chmPort p).answered k else none) with
  | none => none
  | some t1 =>
    let ts := (k.data.getD 1 0).toNat
    let stay : Nat := (ts / 2 ^ 32 + 2 ^ 32 - ts % 2 ^ 32) % 2 ^ 32
    some (5 * (((s.now - t1 : Nat) : Int) - stay))

/-- A TRAIN of the neighbour in TRAINING (R404). -/
def State.trainIn (s : State) (p : Nat) (k : ChmPacket) : State :=
  let s1 := s.chmNeighbour p k
  let s2 := if k.field 28 28 = 1 then s1.chmClaim (k.field 5 0) k.word else s1
  let l := match s.trainDelay p k with
    | some d => (d :: (s.chmPort p).meas).take 4
    | none => []
  let s3 := s2.modChmPort p fun c => { c with gotAt := some s.now, gotNo := k.field 39 32, meas := l }
  if delaysAgree l then s3.chmTrained p k l else s3

/-- TRAIN (R404, R424): a TRAIN packet arrives. In TRAINING it measures the delay. A port past its training finds by a TRAIN that
answers nothing that the other end has begun again: an UP port goes DOWN with it, and both retrain.
DEDUCED, log entry 113. -/
def execTrain (p : Fin 4) (l : ChmLine) (s : State) : Host.Outcome State Fault Refusal :=
  s.runLit fun s =>
    let p := p.val
    let k := l.packet
    if !s.chmOn p || !(s.chmPort p).lock || s.chmState p = chmDown then s
    else if !k.crcOk || k.typ != typTrain then s.bump (CHM_P_CRC_ERRS p) whole
    else if s.chmState p = chmTraining then s.trainIn p k
    else if k.field 27 27 = 1 then (s.chmAckIn p k.ackField).chmAfter p s
    else if s.chmState p = chmUp then (((s.chmGoDown p).chmStart p).chmChanged).trainIn p k
    else (s.chmTrain p).trainIn p k

/-- TRAIN_TIMEOUT (R404): a port that has not gone UP after 10 ms restarts training. -/
def execTrainTimeout (p : Fin 4) (s : State) : Host.Outcome State Fault Refusal :=
  s.runXo fun s => if s.chmState p.val = chmTraining then s.chmTrain p.val else s

/-- ACK_RECEIVE (R423): an acknowledgement field that is valid and no NAK. -/
def execAckReceive (p : Fin 4) (f : BitVec 16) (s : State) : Host.Outcome State Fault Refusal :=
  s.run fun s => if bitOf f.toNat 13 then s else s.chmAckIn p.val f.toNat

/-- NAK_RECEIVE (R423). -/
def execNakReceive (p : Fin 4) (f : BitVec 16) (s : State) : Host.Outcome State Fault Refusal :=
  s.run fun s => if bitOf f.toNat 13 then (s.chmAckIn p.val f.toNat).chmAfter p.val s else s

/-- LET_TIMEOUT (R423): 600 ns without acknowledgement. -/
def execLetTimeout (p : Fin 4) (s : State) : Host.Outcome State Fault Refusal :=
  s.runXo fun s => if s.chmState p.val = chmUp then (s.chmLet p.val).chmAfter p.val s else s

/-! ### Rally frames (R411 to R416) -/

/-- Ts = 10^21 / tsDen ns: the rate, with w of the RSG (R75, R76). -/
def State.tsDen (s : State) : Nat := s.internalRate * (10 ^ 12 + s.rsg.w).toNat

abbrev tsNum : Nat := 10 ^ 21

/-- A RALLY packet (Table: Packet types). Bit 54 of the header, which the table does not lay out, tells whether the leader's src is
PTP (R416). DESIGN CHOICE, log entry 122. -/
def rallyPacket (count leader : Nat) (ptp : Bool) (age hops : Nat) : ChmPacket :=
  mkPacket typRally (count % 2 ^ 48 + leader * 2 ^ 48 + b2n ptp * 2 ^ 54) [age % 2 ^ 32 + min 255 hops * 2 ^ 32] false

/-- At a Rally instant the leader sends its count on every port of its tree (R411). -/
def State.rallyEmit (s : State) : State :=
  if s.bit CHM_CTRL CHM_CTRL_en && s.chmLeads then
    (s.chmTree s.chmId).foldl (fun t p =>
      if t.chmState p = chmUp then t.chmOut p (rallyPacket s.rallyCount s.chmId (s.rallySrc = 1) 0 0) else t) s
  else s

/-- A trim may act: trim_en is 1 and the RSG is in FREE_RUN, HOLDOVER or LOST (R413). -/
def State.trimActs (s : State) : Bool :=
  s.bit CHM_CTRL CHM_CTRL_trim_en && (s.rsgState = 0 || s.rsgState = 3 || s.rsgState = 4)

/-- The units of the trim term in a unit of w: each rate of the engine gives a whole number of them in a Ts. -/
abbrev trimUnits : Nat := 14112

/-- The most that the trim term may change in a Ts: RSG_SLEW.rate × 0.01 units of w each µs (R78, R413). -/
def State.trimLimit (s : State) : Int :=
  (max 1 (s.fld RSG_SLEW RSG_SLEW_rate) * 10000 * trimUnits / s.internalRate : Nat)

/-- The trim term takes a value; CHM_TRIM_NOW shows it in 0.1 ppb, rounded toward zero. -/
def State.trimSet (s : State) (x : Int) : State :=
  (s.modChm fun c => { c with trim := x }).setReg CHM_TRIM_NOW (BitVec.ofInt 32 (x.tdiv (100 * trimUnits)))

/-- Rally lock of a follower (R413): the RSG is LOCKED, or the trim acts and |d| has stayed within 50 ns for 1 s.
DEDUCED, log entry 107. -/
def State.rallyLocked (s : State) : Bool := s.rsgState = 2 || (s.trimActs && decide (s.internalRate ≤ s.chm.lockSpan))

/-- The PI loop's next term: its gains are not stated, so it is free within the limits of R413.
DESIGN CHOICE, log entry 106. -/
def State.trimStep (s : State) : State :=
  let lim : Int := 10000 * trimUnits * s.fld CHM_TRIM CHM_TRIM_max
  s.fresh.2.trimSet (limitInt (-lim) lim (slewTo s.chm.trim s.fresh.1.toInt s.trimLimit))

/-- What d of a Rally frame does to a follower (R413, R415): num / (65536 · tsNum) is d in Ts. DEDUCED, log entry 105. -/
def State.followD (s : State) (num : Int) (near : Bool) : State :=
  let unit : Nat := 65536 * tsNum
  let guard := s.fld TSU_RALLY_CFG TSU_RALLY_CFG_guard * unit
  let acts := s.trimActs
  let s1 := s.modChm fun c => { c with missTs := 0, lockSpan := if near then min (c.lockSpan + 1) 200000 else 0 }
  let s2 := s1.setFld CHM_STAT CHM_STAT_rally_lock (b2n s1.rallyLocked)
  let s3 := if acts then s2.trimStep else s2
  let whole := num.tdiv unit
  if guard < num.natAbs || (!acts && decide (unit ≤ 2 * num.natAbs)) then
    (s3.setFld CHM_STAT CHM_STAT_muted 1).modChm fun c => { c with realign := some whole, lockTs := 0 }
  else s3.modChm fun c => { c with realign := c.realign.map fun _ => whole }

/-- A good Rally frame of the leader at a port that is UP, arriving at an elapsed fraction of the Ts (R411, R412, R415, R416). -/
def State.rallyIn (s : State) (p : Nat) (k : ChmPacket) (frac res : Nat) : State :=
  let leader := k.field 53 48
  let c := k.field 47 0
  let age := k.word % 2 ^ 32
  let hops := k.word / 2 ^ 32 % 256
  let ptp := k.field 54 54 = 1
  let s1 := (s.chmTree leader).foldl (fun t q =>
    if t.chmState q = chmUp then t.chmOut q (rallyPacket c leader ptp (age + res + (s.reg (CHM_P_DELAY p)).toNat) (hops + 1)) else t) s
  let num : Int := (65536 * countDiff s.rallyCount c + frac) * tsNum - 65536 * age * s.tsDen
  let (d, s2) := s1.roundFree num (65536 * max 1 s.tsDen)
  let s3 := s2.setReg CHM_RALLY_ERR (BitVec.ofInt 32 (clampInt 32 d))
  let beyond := s.fld TSU_RALLY_CFG TSU_RALLY_CFG_guard * (65536 * tsNum) < num.natAbs
  if s.rallySrc = 1 then s3.setFldIf (ptp && beyond) CHM_STAT CHM_STAT_disagree 1
  else if s.chmFollows then s3.followD num (decide (d.natAbs ≤ 50))
  else s3

/-- RALLY_FRAME_RECEIVE (R402, R411, R412, R416): a RALLY packet, the elapsed fraction of the Ts at its arrival, and how long it
stays here before it goes on, in ns. Its END acknowledges too. A frame that names this engine's ID for another leader shows that
two engines claim it (R410). DEDUCED, log entry 104. -/
def execRallyFrameReceive (p : Fin 4) (l : ChmLine) (frac : BitVec 16) (res : BitVec 16) (s : State) :
    Host.Outcome State Fault Refusal :=
  s.run fun s =>
    let p := p.val
    let k := l.packet
    if s.chmState p != chmUp then s
    else if !k.crcOk || k.typ != typRally then (s.bump (CHM_P_CRC_ERRS p) whole).bump (CHM_P_RALLY_BAD p) whole
    else
      let s1 := (s.chmAckIn p k.ackField).chmAfter p s
      let leader := k.field 53 48
      if s1.chmState p != chmUp || s1.chmLeads || s1.chm.leader.isNone || leader != s1.fld CHM_ID CHM_ID_leader_id then s1
      else if leader = s1.chmId && s1.idSure then s1.chmDup none
      else s1.rallyIn p k frac.toNat res.toNat

/-- RALLY_MISS (R414): no valid RALLY packet for miss Ts, also where the path to the leader has gone. -/
def execRallyMiss (s : State) : Host.Outcome State Fault Refusal :=
  s.runXo fun s =>
    if s.chmAwaits && s.chm.leader.isSome && decide (s.fld CHM_RALLY_CFG CHM_RALLY_CFG_miss ≤ s.chm.missTs) then
      (s.setFld CHM_STAT CHM_STAT_rally_miss 1).modChm fun c => { c with lockSpan := 0 }
    else s

/-- UNMUTE (R415): after the load of a realign, Rally lock has held for unmute Ts. -/
def execUnmute (s : State) : Host.Outcome State Fault Refusal :=
  s.runXo fun s =>
    if s.chm.realign.isNone && decide (s.fld CHM_RALLY_CFG CHM_RALLY_CFG_unmute ≤ s.chm.lockTs) then s.setFld CHM_STAT CHM_STAT_muted 0 else s

/-- The count at the next Rally instant under a realign that waits: the whole part of d is taken away (R415). -/
def State.realignCount (s : State) (next : Nat) : Nat :=
  match s.chm.realign with
  | none => next
  | some w => (((next : Int) - w) % (2 ^ 48 : Nat)).toNat

/-- A realign that waits has been loaded (R415). -/
def State.realignNote (s : State) : State :=
  match s.chm.realign with
  | none => s
  | some w =>
    ((s.setReg CHM_REALIGN (BitVec.ofInt 32 (clampInt 32 w))).setFld CHM_STAT CHM_STAT_realign 1).modChm fun c => { c with
      realign := none }

/-- The Chimney's own counts at a Rally instant: Ts since the last frame, Ts in Rally lock, and the trim term, which slews
to 0 while no trim acts but an RSG that follows a reference, or this engine's lead, and stays frozen while frames are missing
(R413, R414). -/
def State.chmRally (s : State) : State :=
  let lock := s.chmFollows && s.rallyLocked
  let s0 := s.chmRefresh.setFld CHM_STAT CHM_STAT_rally_lock (b2n lock)
  let s1 := s0.modChm fun c => { c with
    missTs := min (c.missTs + 1) 65535, lockTs := if lock then min (c.lockTs + 1) 65535 else 0 }
  if s1.trimActs && s1.chmAwaits then s1 else s1.trimSet (slewTo s1.chm.trim 0 s1.trimLimit)

/-! ### Slot maps (R421) -/

def mapKey (p : Nat) (tx : Bool) (slot : Nat) : Nat := p * 0x4000 + b2n tx * 0x2000 + slot

/-- A map entry in force. -/
def State.mapWord (s : State) (p : Nat) (tx : Bool) (slot : Nat) : Nat := (tabGet zeroWord s.chm.mapAct (mapKey p tx slot)).toNat

def State.mapArmed (s : State) : Bool := s.bit CHM_MAP_CTRL CHM_MAP_CTRL_arm

/-- A write to CHM_MAP_CTRL: arm starts a load, cancel ends one. DEDUCED, log entry 117. -/
def writeMapCtrl (mid : Nat) (v : Word) : WriteEff := fun s =>
  let c := CHM_MAP_CTRL
  let s1 := s.plainWrite c v
  if CHM_MAP_CTRL_cancel.get v = 1 then
    (.ok, ((s1.setFld c CHM_MAP_CTRL_arm 0).setFld c CHM_MAP_CTRL_loading 0).modChm fun x => { x with
      mapLoaded := false, mapLate := false, mapDue := none })
  else if CHM_MAP_CTRL_arm.get v = 1 && !s.mapArmed then
    (.ok, (s1.setFld c CHM_MAP_CTRL_loading 1).modChm fun x => { x with
      mapMid := mid, mapLoaded := false, mapDue := none, mapLate := s.rallyPast (s.pair48 CHM_MAP_KEY_LO CHM_MAP_KEY_HI) })
  else (.ok, s1)

/-- CHM_MAP_ARM (R421). -/
def execChmMapArm (m : Mid) (v : Word) (s : State) : Host.Outcome State Fault Refusal :=
  s.run fun s => s.writeReg m.val CHM_MAP_CTRL ((v ||| 1) &&& ~~~2) (writeMapCtrl m.val ((v ||| 1) &&& ~~~2))

/-- Entries of one map from slot k on, two to a Mantel word; none when one returns ECC. -/
def State.mapRead (s : State) (p : Nat) (tx : Bool) : Nat → Nat → Tab Word → Option (Tab Word) × State
  | 0, _, t => (some t, s)
  | n + 1, k, t =>
    match s.dmaRead s.chm.mapMid ((s.reg CHM_MAP_BASE).toNat + 0x10000 * p + b2n tx * 0x8000 + 4 * k) .b64 with
    | (none, s1) => (none, s1)
    | (some e, s1) =>
      s1.mapRead p tx n (k + 2)
        (tabSet zeroWord (tabSet zeroWord t (mapKey p tx k) (BitVec.ofNat 32 e)) (mapKey p tx (k + 1)) (BitVec.ofNat 32 (e / 2 ^ 32)))

/-- The slots of a port at most: 96 groups of 64 (R417). -/
abbrev slotsMax : Nat := 6144

/-- The whole shadow tables, port by port. -/
def State.mapLoad (s : State) : List (Nat × Bool) → Tab Word → Option (Tab Word) × State
  | [], t => (some t, s)
  | (p, tx) :: rest, t =>
    match s.mapRead p tx (slotsMax / 2) 0 t with
    | (none, s1) => (none, s1)
    | (some t1, s1) => s1.mapLoad rest t1

/-- CHM_MAP_LOAD_DONE (R421): the load completes, or an entry that returns ECC aborts it. -/
def execChmMapLoadDone (s : State) : Host.Outcome State Fault Refusal :=
  s.run fun s =>
    let c := CHM_MAP_CTRL
    if s.bit c CHM_MAP_CTRL_loading && s.ramOpen then
      match s.mapLoad ((List.range 4).flatMap fun p => [(p, false), (p, true)]) [] with
      | (some t, s1) => (s1.setFld c CHM_MAP_CTRL_loading 0).modChm fun x => { x with mapShadow := t, mapLoaded := true }
      | (none, s1) => ((s1.setFld c CHM_MAP_CTRL_loading 0).setFld c CHM_MAP_CTRL_arm 0).setFld c CHM_MAP_CTRL_err 1
    else s

/-- At a Rally instant an armed map swap becomes due (R421). -/
def State.mapRally (passed : Nat → Bool) (s : State) : State :=
  if !s.mapArmed || s.chm.mapDue.isSome then s
  else
    let key := s.pair48 CHM_MAP_KEY_LO CHM_MAP_KEY_HI
    let at' := decide (key = s.rallyCount)
    let late := s.chm.mapLate || passed key || (at' && !s.chm.mapLoaded)
    s.modChm fun c => { c with
      mapLate := late, mapDue := if c.mapLoaded && (at' || late) then some late else none }

/-- CHM_MAP_SWAP (R421): the active and shadow tables exchange when that is due. -/
def execChmMapSwap (s : State) : Host.Outcome State Fault Refusal :=
  s.runKey fun s => match s.chm.mapDue with
    | none => s
    | some late =>
      let c := CHM_MAP_CTRL
      let s1 := s.modChm fun x => { x with
        mapAct := x.mapShadow, mapShadow := x.mapAct, mapDue := none, mapLoaded := false, mapLate := false }
      let s2 := ((s1.setFld c CHM_MAP_CTRL_arm 0).setFld c CHM_MAP_CTRL_bank (1 - s.fld c CHM_MAP_CTRL_bank)).setFld c
        CHM_MAP_CTRL_done 1
      s2.setFldIf late c CHM_MAP_CTRL_late 1

/-! ### Channel slots (R417 to R420) -/

def State.chmGroups (s : State) (p : Nat) : Nat := s.fld (CHM_P_CTRL p) CHM_P_CTRL_groups

/-- Rally instants between the one that a point belongs to and the point, ofs in 0.01 ns after that instant. -/
def State.tsBack (s : State) (ofs : Nat) : Nat := ofs * s.tsDen / (100 * tsNum)

/-- The count that names group g at its send point (R417), and at its deadline (R420). -/
def State.sendName (s : State) (p g : Nat) : Nat :=
  (s.rallyCount + 2 ^ 48 - s.tsBack (100 * s.fld (CHM_P_TIME p) CHM_P_TIME_tx_ofs + 19536 * g)) % 2 ^ 48

def State.deadlineName (s : State) (p g : Nat) : Nat :=
  (s.rallyCount + 2 ^ 48 - s.tsBack (100 * s.fld (CHM_P_TIME p) CHM_P_TIME_rx_ofs + 19536 * g)) % 2 ^ 48

def noCount (_ : Nat) : Option Nat := none

/-- The tag that a slot expects at its next load point (R27). -/
def State.chmExpect (s : State) (p slot : Nat) : Nat :=
  let n := if tabGet noCount (s.chmPort p).groupAt (slot / 64) = some s.rallyCount then s.rallyCount + 1 else s.rallyCount
  (n + 256 - s.fld (CHM_P_CTRL p) CHM_P_CTRL_tag_offset) % 256

/-- The port's substitute: HOLD or ZERO. -/
def State.chmSubst (s : State) (p : Nat) (last : Word) : Word := if s.bit (CHM_P_CTRL p) CHM_P_CTRL_subst then 0 else last

/-- Outgoing slots that take a channel tag from the Flue. -/
def State.chmSlots (s : State) (p tag : Nat) : List Nat :=
  (s.chm.mapAct.filter fun e => e.1 / 0x4000 = p && e.1 / 0x2000 % 2 = 1 && e.2.toNat % 4 = 1 &&
    e.2.toNat / 4 % 4096 = tag && e.1 % 0x2000 / 64 < s.chmGroups p).map fun e => e.1 % 0x2000

/-- An AUDIO token for one slot of an outbound station (R27, R419). -/
def State.chmJudge (s : State) (p : Nat) (t : Token) (slot : Nat) : State :=
  let st := chmStation p
  match tagJudge t.stag (s.chmExpect p slot) with
  | .stale => s.stationCount st .stale
  | .early => s.stationCount st .early
  | .onTime =>
    if (tabGet noWord (s.chmPort p).hold slot).isSome then s.stationCount st .dup
    else s.modChmPort p fun c => { c with hold := tabSet noWord c.hold slot (some t.payload) }

/-- The entry of CHM_EVT_MAP that takes a channel tag: the lowest one (R422). DEDUCED, log entry 120. -/
def State.evtEntry (s : State) (tag : Nat) : Option Word :=
  ((List.range 64).map fun i => s.reg (CHM_EVT_MAP i)).find? fun w =>
    CHM_EVT_MAP_en.get w = 1 && CHM_EVT_MAP_tag.get w = tag

/-- An EVENT token goes to a remote engine as a CTRL packet of kind 4: payload in [31:0], sample tag in [39:32], remote tag
in [51:40] (R422). -/
def State.evtSend (s : State) (t : Token) (w : Word) : State :=
  (s.chmUnicast (mkCtrl kindEvent (CHM_EVT_MAP_dest.get w) s.chmId 0 false 0
    (t.payload.toNat + t.stag % 256 * 2 ^ 32 + CHM_EVT_MAP_rtag.get w * 2 ^ 40))).2

/-- A token reaches the outbound station of a port; one that does not run takes none (R218). -/
def State.chmToken (s : State) (p : Nat) (t : Token) : State :=
  let st := chmStation p
  if t.kind = .event then
    match (if s.chmOn p then s.evtEntry t.ctag else none) with
    | some w => s.evtSend t w
    | none => s.stationCount st .unmapped
  else
    let slots := if s.chmOn p && t.kind = .audio then s.chmSlots p t.ctag else []
    if slots = [] then s.stationCount st .unmapped else slots.foldl (fun s j => s.chmJudge p t j) s

/-- CHM_EVENT_FORWARD (R422): the token at the front of an outbound station is an EVENT token that an entry takes. -/
def execChmEventForward (p : Fin 4) (s : State) : Host.Outcome State Fault Refusal :=
  s.run fun s => match s.inboxOf (chmStation p.val) with
    | [] => s
    | t :: rest =>
      match (if s.chmOn p.val && t.kind = .event then s.evtEntry t.ctag else none) with
      | some w => (s.setInbox (chmStation p.val) rest).evtSend t w
      | none => s

def noFwdTag (_ : Nat) : Option (Nat × Bool) := none

/-- What an outgoing slot sends (R419): the word, whether it came from a group that failed, and the group whose CRC is still to
come. -/
structure ChmSlot where
  word : Word
  bad : Bool
  need : List (Nat × Nat)

/-- The word of one outgoing slot. -/
def State.chmSlot (s : State) (p slot : Nat) : ChmSlot × State :=
  let c := s.chmPort p
  let e := s.mapWord p true slot
  let last := tabGet zeroWord c.last slot
  match e % 4 with
  | 1 =>
    match tabGet noWord c.hold slot with
    | some w => (⟨w, false, []⟩, s.modChmPort p fun c => { c with hold := tabSet noWord c.hold slot none })
    | none => (⟨s.chmSubst p last, false, []⟩, s.lateSlot (chmStation p) slot (s.chmExpect p slot) (e / 2 ^ 14 % 256))
  | 2 =>
    match tabGet noForward c.fwd slot with
    | some f =>
      (⟨f.word, f.bad.getD false, if f.bad.isNone then [f.group] else []⟩, s.modChmPort p fun c => { c with
        fwd := tabSet noForward c.fwd slot none, fwdTag := tabSet noFwdTag c.fwdTag slot (some (f.tag, false)) })
    | none =>
      (⟨s.chmSubst p last, false, []⟩, ((s.modChmPort p fun c => { c with
        fwdTag := tabSet noFwdTag c.fwdTag slot ((tabGet noFwdTag c.fwdTag slot).map fun t => ((t.1 + 1) % 256, true)) }).bump
        (CHM_P_FWD_LATE p) whole).setFld (CHM_P_STAT p) CHM_P_STAT_fwd_late 1)
  | _ => (⟨0, false, []⟩, s)

/-- The slots of a group in order. -/
def State.chmLoad (s : State) (p slot : Nat) : Nat → List ChmSlot × State
  | 0 => ([], s)
  | n + 1 =>
    let (x, s1) := s.chmSlot p slot
    let s2 := s1.modChmPort p fun c => { c with last := tabSet zeroWord c.last slot x.word }
    let (l, s3) := s2.chmLoad p (slot + 1) n
    (x :: l, s3)

/-- AUDIO_GROUP_SEND (R417, R419): the send point of group g. Its END waits for the CRC of the groups that it forwarded from. -/
def execAudioGroupSend (p : Fin 4) (g : Fin 96) (s : State) : Host.Outcome State Fault Refusal :=
  s.run fun s =>
    let p := p.val
    let g := g.val
    if s.chmOn p && decide (g < s.chmGroups p) then
      let name := s.sendName p g
      let (l, s1) := s.chmLoad p (64 * g) 64
      let s2 := s1.modChmPort p fun c => { c with groupAt := tabSet noCount c.groupAt g (some s.rallyCount) }
      let k := mkPacket typAudio (g * 2 ^ 12 + name % 256 * 2 ^ 19 + b2n (s.bit CHM_STAT CHM_STAT_muted) * 2 ^ 27)
        (packWords (l.map fun x => x.word)) (l.any fun x => x.bad)
      s2.chmSendAfter p k (l.flatMap fun x => x.need).eraseDups
    else s

/-- Groups of tokens that the inbound station still holds: the newest ones that make up what waits for injection (R420). -/
def groupsHeld : Nat → List Nat → Nat
  | 0, _ => 0
  | _, [] => 0
  | n, k :: rest => 1 + groupsHeld (n - k) rest

def State.chmHeld (s : State) (p : Nat) : Nat :=
  groupsHeld ((s.outboxOf (chmStation p)).countP fun t => t.kind = .audio) (s.chmPort p).sizes

/-- The inbound station forms the tokens of a group from its slots' words (R420); a muted engine forms payload 0. -/
def State.chmForm (s : State) (p g tag : Nat) (word : Nat → Word) : State :=
  let slots := (List.range 64).filter fun j => s.mapWord p false (64 * g + j) % 2 = 1
  let mute := s.bit CHM_STAT CHM_STAT_muted
  let s1 := slots.foldl (fun t j =>
    t.stationSend (chmStation p) ⟨.audio, tag, s.mapWord p false (64 * g + j) / 4 % 4096, if mute then 0 else word j⟩) s
  s1.modChmPort p fun c => { c with
    sizes := if slots = [] then c.sizes else (slots.length :: c.sizes).take 8,
    rxLast := (List.range 64).foldl (fun t j => tabSet zeroWord t (64 * g + j) (word j)) c.rxLast }

/-- A word is forwarded to the outgoing slot of a receive entry; one that is already there stays (R421), and one whose block
boundary has passed is dropped (R419). -/
def State.chmForward (s : State) (e : Nat) (f : ChmFwd) : State :=
  if e / 2 % 2 = 0 then s
  else
    let q := e / 2 ^ 14 % 4
    let slot := e / 2 ^ 16 % 2 ^ 13
    let c := s.chmPort q
    if tabGet noFwdTag c.fwdTag slot = some (f.tag, true) then
      s.modChmPort q fun c => { c with fwdTag := tabSet noFwdTag c.fwdTag slot (some (f.tag, false)) }
    else if (tabGet noForward c.fwd slot).isSome then s.stationCount (chmStation q) .dup
    else s.modChmPort q fun c => { c with fwd := tabSet noForward c.fwd slot (some f) }

/-- Word j of an AUDIO packet. -/
def ChmAudioWord (k : ChmPacket) (j : Nat) : Word :=
  let d := (k.data.getD (j / 2) 0).toNat
  BitVec.ofNat 32 (if j % 2 = 0 then d else d / 2 ^ 32)

/-- The words of a group from one on to before another are forwarded cut-through, with what is known of its CRC (R419).
DEDUCED, log entry 118. -/
def State.chmForwardAll (s : State) (p g lo hi : Nat) (k : ChmPacket) (bad : Option Bool) : State :=
  ((List.range hi).filter fun j => lo ≤ j).foldl (fun t j =>
    t.chmForward (s.mapWord p false (64 * g + j)) ⟨ChmAudioWord k j, k.field 26 19, (p, g), bad⟩) s

/-- The words of group g that have been filed while it was arriving. -/
def ChmPort.filed (c : ChmPort) (g : Nat) : Nat :=
  match c.part with
  | some (h, n) => if h = g then 2 * n else 0
  | none => 0

/-- The group has arrived with its END: what has not been forwarded yet is, and its CRC is known. -/
def State.chmWhole (s : State) (p g : Nat) (k : ChmPacket) (bad : Bool) : State :=
  let from_ := (s.chmPort p).filed g
  ((s.chmForwardAll p g from_ 64 k (some bad)).chmJudged p g bad).modChmPort p fun c => { c with part := none }

def noMiss (_ : Nat) : Option Nat := none

/-- The group counts as late (R420). -/
def State.chmRxLate (s : State) (p : Nat) : State :=
  (s.bump (CHM_P_RX_LATE p) whole).setFld (CHM_P_STAT p) CHM_P_STAT_rx_late 1

def State.chmGot (s : State) (p g : Nat) : State := s.modChmPort p fun c => { c with got := tabSet falseAt c.got g true }

/-- A good AUDIO packet in its turn (R420). DEDUCED, log entry 119. -/
def State.chmGroup (s : State) (p : Nat) (k : ChmPacket) : State :=
  let g := k.field 18 12
  let tag := k.field 26 19
  if k.poison then (s.setFld (CHM_P_STAT p) CHM_P_STAT_poison 1).chmWhole p g k true
  else if k.field 27 27 = 1 then s
  else if tabGet noMiss (s.chmPort p).missed g = some tag then s.chmWhole p g k false
  else
    let s1 := (s.chmWhole p g k false).chmGot p g
    if 2 ≤ s.chmHeld p then s1.chmRxLate p else s1.chmForm p g tag (ChmAudioWord k)

/-- The first data blocks of an AUDIO packet have arrived in its turn: their words are there cut-through (R419). -/
def State.chmPart (s : State) (p : Nat) (k : ChmPacket) : State :=
  let g := k.field 18 12
  if s.chmState p != chmUp || k.typ != typAudio || k.seq != (s.chmPort p).rxSeq || k.field 27 27 = 1 || 32 < k.data.length then s
  else
    (s.chmForwardAll p g ((s.chmPort p).filed g) (2 * k.data.length) k none).modChmPort p fun c => { c with
      part := some (g, k.data.length) }

/-- GROUP_DEADLINE (R420): the deadline of group g; a group that has not arrived in good form is replaced. -/
def execGroupDeadline (p : Fin 4) (g : Fin 96) (s : State) : Host.Outcome State Fault Refusal :=
  s.runXo fun s =>
    let p := p.val
    let g := g.val
    if s.chmOn p && decide (g < s.chmGroups p) then
      let c := s.chmPort p
      if tabGet falseAt c.got g then
        s.modChmPort p fun c => { c with got := tabSet falseAt c.got g false, missed := tabSet noMiss c.missed g none }
      else
        let tag := s.deadlineName p g % 256
        let s1 := s.chmForm p g tag fun j => s.chmSubst p (tabGet zeroWord c.rxLast (64 * g + j))
        (s1.modChmPort p fun c => { c with missed := tabSet noMiss c.missed g (some tag) }).chmRxLate p
    else s

/-! ### CTRL packets (R402, R422, R429) -/

/-- A CTRL packet is delivered here by its kind, or goes on to its destination. Kickoffs and beacons are for every engine. A packet
from this engine's own ID shows that another engine claims it (R410). -/
def State.chmCtrl (s : State) (p : Nat) (k : ChmPacket) : State :=
  let s1 := if k.src = s.chmId && s.idSure && k.kind != kindBeacon then s.chmDup none else s
  if kindBeacon < k.kind then s.bump (CHM_P_CRC_ERRS p) whole
  else if k.kind = kindKickoff || k.kind = kindBeacon || k.dest = s.chmId then
    if k.kind = kindEvent then
      s1.stationSend (chmStation p) ⟨.event, k.word / 2 ^ 32 % 256, k.word / 2 ^ 40 % 4096, BitVec.ofNat 32 k.word⟩
    else s1.modChm fun c => { c with ctrlIn := c.ctrlIn ++ [(p, k)] }
  else (s1.chmUnicast { k with fin := 0 }).2

/-- An AUDIO or CTRL packet arrives (R402, R423), or the first blocks of an AUDIO packet. What a packet with a bad CRC forwarded
cut-through has failed. -/
def State.chmArrive (s : State) (p : Nat) (l : ChmLine) : State :=
  match l.part with
  | some k => s.chmPart p k
  | none =>
    let k := l.packet
    match s.chmReceive p k with
    | (.accept, s1) => if k.typ = typAudio then s1.chmGroup p k else s1.chmCtrl p k
    | (.badCrc, s1) => if k.typ = typAudio then s1.chmWhole p (k.field 18 12) k true else s1
    | (.other, s1) => s1.chmAfter p s

/-- AUDIO_GROUP_RECEIVE (R420, R423): an AUDIO packet, or its blocks up to now. -/
def execAudioGroupReceive (p : Fin 4) (l : ChmLine) (s : State) : Host.Outcome State Fault Refusal :=
  s.run fun s => s.chmArrive p.val l

/-- CTRL_PACKET_RECEIVE (R402, R423). -/
def execCtrlPacketReceive (p : Fin 4) (l : ChmLine) (s : State) : Host.Outcome State Fault Refusal :=
  s.run fun s => s.chmArrive p.val l

/-! ### Remote access (R425 to R428) -/

def freeTag (_ : Nat) : ChmTag := .free

def State.tagOf (s : State) (t : Nat) : ChmTag := tabGet freeTag s.chm.tags t

/-- CHM_RA_STAT counts tags. -/
def State.tagShow (s : State) : State :=
  let busy := s.chm.tags.countP fun e => match e.2 with
    | .busy _ _ _ => true
    | _ => false
  let quar := s.chm.tags.countP fun e => e.2 = .quarantined
  s.setReg CHM_RA_STAT (BitVec.ofNat 32 (busy + quar * 2 ^ 16))

def State.setTag (s : State) (t : Nat) (v : ChmTag) : State :=
  (s.modChm fun c => { c with tags := tabSet freeTag c.tags t v }).tagShow

/-- The register that a master's remote access completes at. -/
def raReg (write : Bool) : Nat := if write then CHM_RA_WDATA else CHM_RA_RDATA

def State.raDone (s : State) (mid : Nat) (write : Bool) (who : Waiter) (r : Reply) : State :=
  (s.complete mid (raReg write) .b32 write r).answer who r

/-- An engine that cannot be reached, this engine, or an ID that two engines claim (R410, R425). -/
def State.raBad (s : State) (t : Nat) : Bool := !s.chmReach t || s.bit CHM_ID CHM_ID_dup

/-- A request takes the lowest free tag and goes out: address in [31:0], the word of a write in [63:32]. -/
def State.raSend (s : State) (r : ChmReq) (t : Nat) : State :=
  let k := mkCtrl kindRequest r.engine s.chmId t r.write.isSome 0 (r.addr + (r.write.getD 0).toNat * 2 ^ 32)
  ((s.setTag t (.busy r.mid r.write.isSome r.who)).chmUnicast k).2

/-- Waiting requests go out while tags are free (R428). -/
def State.raPump (s : State) : Nat → State
  | 0 => s
  | n + 1 =>
    match s.chm.raWait, (List.range 256).find? fun t => s.tagOf t = .free with
    | r :: rest, some t =>
      let s1 := s.modChm fun c => { c with raWait := rest }
      (if s.raBad r.engine then s1.raDone r.mid r.write.isSome r.who ⟨.decerr, 0⟩ else s1.raSend r t).raPump n
    | _, _ => s

def State.raQueue (s : State) (r : ChmReq) : State :=
  (s.modChm fun c => { c with raWait := c.raWait ++ [r] }).raPump (s.chm.raWait.length + 1)

/-- A MID of a remote engine. -/
def isRemote (m : Nat) : Bool := 0x320 ≤ m && m < 0x360

/-- A master's remote access: to the engine of its TGT at its ADDR, which advances with inc (R425).
DEDUCED, log entry 121. -/
def State.raAccess (s : State) (m : Nat) (w : Option Word) (who : Waiter) : State :=
  match s.accessCheck m (raReg w.isSome) .b32 w.isSome with
  | .ok =>
    if isRemote m then s.raDone m w.isSome who ⟨.perm, 0⟩
    else
      let tgt := tabGet zeroWord s.chm.raTgt m
      let addr := tabGet zeroWord s.chm.raAddr m
      let s1 := if CHM_RA_TGT_inc.get tgt = 1 then
        s.modChm fun c => { c with raAddr := tabSet zeroWord c.raAddr m (addr + 4) } else s
      let e := CHM_RA_TGT_engine.get tgt
      if s.raBad e then s1.raDone m w.isSome who ⟨.decerr, 0⟩ else s1.raQueue ⟨m, e, addr.toNat, w, who⟩
  | r => s.raDone m w.isSome who ⟨r, 0⟩

/-- A response by its code (R47). -/
def respOf : Nat → Resp
  | 0 => .ok
  | 1 => .slverr
  | 2 => .decerr
  | 3 => .perm
  | 4 => .ecc
  | 5 => .timeout
  | _ => .superseded

/-! ### Control registers (R417, R418, R430, R431) -/

/-- The groups per port that the rate admits (R417). -/
def State.groupLimit (s : State) : Nat := 96 / 2 ^ s.fld RSG_CTRL RSG_CTRL_mult

/-- A port's slots fit into Ts at nominal rate (R418). -/
def State.slotsFit (s : State) (p groups : Nat) : Bool :=
  (100 * s.fld (CHM_P_TIME p) CHM_P_TIME_tx_ofs + 19536 * groups + 1584) * s.internalRate ≤ 10 ^ 11

/-- A port stops: it goes DOWN, and its slots forget what they hold. DEDUCED, log entry 116. -/
def State.chmStop (s : State) (p : Nat) : State :=
  let s1 := if s.chmState p = chmUp then s.chmGoDown p else s.setFld (CHM_P_STAT p) CHM_P_STAT_state chmDown
  s1.modChmPort p fun c => { c with hold := [], fwd := [], fwdTag := [], groupAt := [], got := [], missed := [] }

/-- A write to CHM_CTRL. -/
def writeChmCtrl (v : Word) : WriteEff := fun s =>
  let old := s.reg CHM_CTRL
  let on := CHM_CTRL_en.get old = 1
  let on2 := CHM_CTRL_en.get v = 1
  let fixed : Word := 0x073F0034
  let n : ChmNet := ⟨CHM_CTRL_topo.get v, CHM_CTRL_xdim.get v + 1,
    if CHM_CTRL_topo.get v = 2 then CHM_CTRL_ydim.get v + 1 else 1⟩
  let fits := (List.range 4).all fun p => !s.bit (CHM_P_CTRL p) CHM_P_CTRL_en || s.slotsFit p (s.chmGroups p)
  if (on && (old &&& fixed) != (v &&& fixed)) || CHM_CTRL_topo.get v = 3 || (on2 && !(n.ok && fits)) then (.slverr, s)
  else
    let s1 := s.plainWrite CHM_CTRL v
    if on2 && !on then
      (.ok, (List.range 4).foldl (fun t p => t.chmStart p)
        ((s1.setFld CHM_ID CHM_ID_locked 0).modChm fun c => { c with stable := 0, leader := none }))
    else if on && !on2 then
      (.ok, ((((List.range 4).foldl (fun t p => t.chmStop p) s1).setFld CHM_ID CHM_ID_leader 0).modChm fun c => { c with
        leader := none, realign := none }).chmRefresh)
    else if CHM_CTRL_lead_prio.get v != CHM_CTRL_lead_prio.get old then
      (.ok, (s1.setFldIf (CHM_CTRL_lead_prio.get v = 0) CHM_ID CHM_ID_leader 0).chmChanged)
    else (.ok, s1)

/-- A write to CHM_P_CTRL(p). -/
def writeChmPort (p : Nat) (v : Word) : WriteEff := fun s =>
  let a := CHM_P_CTRL p
  let old := s.reg a
  let on := CHM_P_CTRL_en.get old = 1
  let on2 := CHM_P_CTRL_en.get v = 1
  let fixed : Word := 0x007F0FF0
  if (on && (old &&& fixed) != (v &&& fixed)) || s.groupLimit < CHM_P_CTRL_groups.get v ||
      (on2 && !s.slotsFit p (CHM_P_CTRL_groups.get v)) then (.slverr, s)
  else
    let s1 := s.plainWrite a v
    (.ok, if on2 && !on then s1.chmStart p else if on && !on2 then (s1.chmStop p).chmChanged else s1)

/-- CHM_ENABLE (R431): a write of CHM_CTRL, or of CHM_P_CTRL of a port. -/
def execChmEnable (m : Mid) (port : Option (Fin 4)) (v : Word) (s : State) : Host.Outcome State Fault Refusal :=
  s.run fun s => match port with
    | none => s.writeReg m.val CHM_CTRL v (writeChmCtrl v)
    | some p => s.writeReg m.val (CHM_P_CTRL p.val) v (writeChmPort p.val v)

/-- Ticks of 2.5 ns in 100 ms. -/
abbrev wakeTicks : Nat := 40000000

/-- A write to CHM_WAKE (R430): each port named sends TRAIN blocks even while it is DOWN. -/
def writeChmWake (v : Word) : WriteEff := accept fun s =>
  (List.range 4).foldl (fun t p =>
    if bitOf v.toNat p && t.chmState p != chmUp then
      ((t.setReg CHM_WAKE (t.reg CHM_WAKE ||| BitVec.ofNat 32 (2 ^ p))).modChmPort p fun c => { c with
        wakeEnd := s.now + wakeTicks }).chmTrainOut p
    else t) s

/-- CHM_WAKE (R430). -/
def execChmWake (m : Mid) (v : Word) (s : State) : Host.Outcome State Fault Refusal :=
  s.run fun s => s.writeReg m.val CHM_WAKE v (writeChmWake v)

/-- A wake ends after 100 ms; TRAIN packets that are due go out. -/
def State.wakeTick (s : State) : State :=
  ((List.range 4).foldl (fun t p =>
    if bitOf (t.reg CHM_WAKE).toNat p && decide ((t.chmPort p).wakeEnd ≤ t.now) then
      t.setReg CHM_WAKE (t.reg CHM_WAKE &&& ~~~BitVec.ofNat 32 (2 ^ p)) else t) s).trainTick

/-- A write to a register of the Chimney other than CHM_RA_WDATA. -/
def chmWrite (mid a : Nat) (v : Word) : WriteEff := fun s =>
  if a = CHM_CTRL then writeChmCtrl v s
  else if a = CHM_ID then
    if s.bit CHM_CTRL CHM_CTRL_id_mode then (.ok, s)
    else
      let s1 := s.plainWrite a v
      (.ok, if s1.chmId = s.chmId then s1 else (s1.setFld CHM_ID CHM_ID_dup 0).modChm fun c => { c with dupWith := none })
  else if a = CHM_LET_CFG ∧ CHM_LET_CFG_let_max.get v = 0 then (.slverr, s)
  else if a = CHM_TRIM ∧ (CHM_TRIM_max.get v < 100 ∨ 20000 < CHM_TRIM_max.get v ∨ CHM_TRIM_bw.get v < 10 ∨
      10000 < CHM_TRIM_bw.get v) then (.slverr, s)
  else if a = CHM_RT_TIMEOUT ∧ (CHM_RT_TIMEOUT_timeout.get v < 10 ∨ 10000 < CHM_RT_TIMEOUT_timeout.get v) then (.slverr, s)
  else if a = CHM_RA_TGT then
    if isRemote mid then (.perm, s)
    else (.ok, s.modChm fun c => { c with raTgt := tabSet zeroWord c.raTgt mid (v &&& 0x13F) })
  else if a = CHM_RA_ADDR then
    if isRemote mid then (.perm, s) else (.ok, s.modChm fun c => { c with raAddr := tabSet zeroWord c.raAddr mid v })
  else if a = CHM_MAP_CTRL then writeMapCtrl mid v s
  else if (a = CHM_MAP_BASE ∨ a = CHM_MAP_KEY_LO ∨ a = CHM_MAP_KEY_HI) ∧ s.mapArmed then (.slverr, s)
  else if a = CHM_WAKE then writeChmWake v s
  else if CHM_P_CTRL 0 ≤ a ∧ a < CHM_P_CTRL 4 then
    let p := (a - CHM_P_CTRL 0) / 0x40
    if a = CHM_P_CTRL p then writeChmPort p v s
    else if a = CHM_P_TIME p ∧ s.bit (CHM_P_CTRL p) CHM_P_CTRL_en then (.slverr, s)
    else (.ok, s.plainWrite a v)
  else (.ok, s.plainWrite a v)

/-- A read of a register that the Chimney keeps for each MID; a remote master may not (R425). -/
def State.chmRead (s : State) (mid a : Nat) : Option (Resp × Word) :=
  if a = CHM_RA_TGT then some (if isRemote mid then (.perm, 0) else (.ok, tabGet zeroWord s.chm.raTgt mid))
  else if a = CHM_RA_ADDR then some (if isRemote mid then (.perm, 0) else (.ok, tabGet zeroWord s.chm.raAddr mid))
  else none

end Sys2Proof.Machine
end

