-- ==== Sys2Proof/Machine/Bellows.lean ====
section
/-! DEFINITION. The Bellows: lanes and their instructions, loops and ticks, encoders, PWM, servo SPI and mailboxes (14). -/

namespace Sys2Proof.Machine

abbrev midBellows : Nat := 0x316
abbrev belStation : Nat := 29

/-! ### Access to the state -/

def laneReset : Lane := ⟨[], [], [], [], [], [], [], [], [], 0, none, 0, 0, [], [], 0, none, [], 0, 0, [], false, false⟩

def laneDefault (_ : Nat) : Lane := laneReset
def spiDefault (_ : Nat) : BelSpi := ⟨[], none, [], []⟩
def pwmDefault (_ : Nat) : Pwm := ⟨0, 0, none, none⟩
def encDefault (_ : Nat) : Enc := ⟨false, false, false, filtReset, filtReset, filtReset⟩
def zero16 (_ : Nat) : BitVec 16 := 0
def zero40 (_ : Nat) : BitVec 40 := 0
def mboxDefault (_ : Nat) : Word × Bool := (0, false)

def State.lane (s : State) (l : Nat) : Lane := tabGet laneDefault s.bel.lanes l

def State.modLane (s : State) (l : Nat) (f : Lane → Lane) : State :=
  { s with bel := { s.bel with lanes := tabSet laneDefault s.bel.lanes l (f (s.lane l)) } }

def State.spi (s : State) (c : Nat) : BelSpi := tabGet spiDefault s.bel.spi c

def State.modSpi (s : State) (c : Nat) (f : BelSpi → BelSpi) : State :=
  { s with bel := { s.bel with spi := tabSet spiDefault s.bel.spi c (f (s.spi c)) } }

def State.pwm (s : State) (n : Nat) : Pwm := tabGet pwmDefault s.bel.pwm n

def State.setPwm (s : State) (n : Nat) (p : Pwm) : State :=
  { s with bel := { s.bel with pwm := tabSet pwmDefault s.bel.pwm n p } }

/-- The 10 ns slot. -/
def State.slot (s : State) : Nat := s.now / 4

def State.laneRuns (s : State) (l : Nat) : Bool := s.bit (BEL_LANE_CTRL l) BEL_LANE_CTRL_run

/-- Loop j of lane l in the register table. -/
def loopReg (l j : Nat) : Nat := 32 * l + j

/-- BEL_LANE_STAT shows the lane. -/
def State.laneShow (s : State) (l : Nat) : State :=
  let o := s.lane l
  s.setReg (BEL_LANE_STAT l) (BitVec.ofNat 32 (b2n (!s.laneRuns l) + b2n o.run.isSome * 2 + o.run.getD 0 * 4 + o.pc * 2 ^ 8))

/-! ### Registers and numbers (R378, R379) -/

def isX (r : BelSel) : Bool := r.val < 8
def isA (r : BelSel) : Bool := 8 ≤ r.val && r.val < 12

def Lane.getX (o : Lane) (i : Nat) : BitVec 16 := tabGet zero16 o.x i
def Lane.getA (o : Lane) (i : Nat) : BitVec 40 := tabGet zero40 o.a i
def Lane.setX (o : Lane) (i : Nat) (v : BitVec 16) : Lane := { o with x := tabSet zero16 o.x i v }
def Lane.setA (o : Lane) (i : Nat) (v : BitVec 40) : Lane := { o with a := tabSet zero40 o.a i v }

/-- A register by its selector, as a signed number. -/
def Lane.get (o : Lane) (r : BelSel) : Int := if isX r then (o.getX r.val).toInt else (o.getA (r.val - 8)).toInt

/-- A register takes a number at its width. -/
def Lane.put (o : Lane) (r : BelSel) (v : Int) : Lane :=
  if isX r then o.setX r.val (BitVec.ofInt 16 v) else o.setA (r.val - 8) (BitVec.ofInt 40 v)

/-- A BF16 exponent: the low six bits, signed. -/
def bfExp (x : BitVec 16) : Int := signed 6 x.toNat

/-- x × 2^−k: right towards −∞ for positive k, left otherwise. DEDUCED, log entry 97. -/
def shiftDown (x k : Int) : Int := if 0 < k then x / 2 ^ k.toNat else x * 2 ^ (-k).toNat

/-- The mantissa of an accumulator at an exponent, before it is cut to 16 bits (R380). -/
def bfMant (a e : Int) : Int := shiftDown a (15 + e)

/-- The smallest exponent at which an accumulator fits a mantissa (R379). -/
def bfFit (a : Int) : Int :=
  (((List.range 64).map fun (i : Nat) => (i : Int) - 32).find? fun e => clampInt 16 (bfMant a e) = bfMant a e).getD 31

/-! ### Faults, halts and runs (R385, R387, R395, R396) -/

abbrev belILLEGAL := 1
abbrev belPARITY := 2
abbrev belLOOPOVF := 3
abbrev belSTEPS := 4
abbrev belPORT := 5

def State.pwmOwner (s : State) (n : Nat) : Nat := s.fld (BEL_PWM_CFG n) BEL_PWM_CFG_lane

/-- The leader of a pair that PWM n follows, or n itself. -/
def State.pwmLeader (s : State) (n : Nat) : Nat :=
  if n % 2 = 1 && s.bit (BEL_PWM_CFG (n - 1)) BEL_PWM_CFG_pair then n - 1 else n

/-- The compare value in force: an OUT's takes effect in the slot after it (R390). -/
def State.pwmCmp (s : State) (n : Nat) : Nat :=
  match (s.pwm n).before with
  | some (slot, c) => if slot = s.slot then c else s.fld (BEL_PWM_CMP n) BEL_PWM_CMP_cmp
  | none => s.fld (BEL_PWM_CMP n) BEL_PWM_CMP_cmp

/-- The counter of PWM n, from 0 to period − 1. -/
def State.pwmCount (s : State) (n : Nat) : Nat :=
  let lead := s.pwmLeader n
  (s.slot - (s.pwm lead).start) % (s.fld (BEL_PWM_PERIOD lead) BEL_PWM_PERIOD_period + 1)

/-- PWM n is active in the present slot (R390). -/
def State.pwmActive (s : State) (n : Nat) : Bool :=
  s.bit (BEL_PWM_CFG (s.pwmLeader n)) BEL_PWM_CFG_en && decide (s.pwmCount n < s.pwmCmp n) && decide ((s.pwm n).deadEnd ≤ s.slot)

/-- The level of pin PWMn: pol 0 is high while active. -/
def State.pwmPin (s : State) (n : Nat) : Bool := s.pwmActive n != s.bit (BEL_PWM_CFG n) BEL_PWM_CFG_pol

/-- The slot from which PWM n is inactive, if it is so from the next slot on: that slot if it is active now, else the end of its
last pulse. -/
def State.pwmOffAt (s : State) (n : Nat) : Option Nat :=
  let c := s.pwmCmp n
  if s.pwmActive n then some (s.slot + 1)
  else if c = 0 || s.pwmCount n < c || s.slot + c ≤ (s.pwm n).deadEnd + s.pwmCount n then (s.pwm n).offAt
  else some (s.slot + c - s.pwmCount n)

/-- PWM n takes a compare value from the next slot on. -/
def State.pwmSet (s : State) (n c : Nat) : State :=
  (s.setPwm n { s.pwm n with offAt := s.pwmOffAt n, before := some (s.slot, s.pwmCmp n) }).setReg (BEL_PWM_CMP n)
    (BitVec.ofNat 32 c)

/-- PWM n goes inactive in this slot. -/
def State.pwmKill (s : State) (n : Nat) : State :=
  (s.setPwm n { s.pwm n with offAt := s.pwmOffAt n, before := none }).setReg (BEL_PWM_CMP n) 0

/-- Every PWM output of a lane goes inactive, both outputs of a pair, and its queued SPI transfers are discarded (R395).
DEDUCED, log entry 98. -/
def State.laneSafe (s : State) (l : Nat) : State :=
  let s1 := (List.range 32).foldl (fun t n =>
    if t.pwmOwner (t.pwmLeader n) = l then t.pwmKill n else t) s
  (List.range 4).foldl (fun t c => t.modSpi c fun p => { p with
    queue := p.queue.filter fun x => s.fld (BEL_SPI_SEL c x.1) BEL_SPI_SEL_lane != l }) s1

/-- BEL_SPI_STAT shows a master. -/
def State.spiShow (s : State) (c : Nat) : State :=
  let p := s.spi c
  let held (j : Nat) : Bool := (p.queue.any fun x => x.1 = j) || (p.busy.any fun x => x.1 = j)
  let mask := (List.range 8).foldl (fun acc j => acc + b2n (held j) * 2 ^ j) 0
  s.setReg (BEL_SPI_STAT c) (BitVec.ofNat 32 (b2n p.busy.isSome + mask * 2 ^ 8))

def State.spiShowAll (s : State) : State := (List.range 4).foldl State.spiShow s

/-- The lane halts: run reads 0. -/
def State.laneHalt (s : State) (l : Nat) : State :=
  ((s.setFld (BEL_LANE_CTRL l) BEL_LANE_CTRL_run 0).modLane l fun o => { o with stepping := false }).laneShow l

/-- A bit of BEL_SUM for a lane. -/
def State.belSum (s : State) (f : Fld) (l : Nat) : State := s.setFld BEL_SUM f (s.fld BEL_SUM f ||| 2 ^ l)

/-- A lane fault (R395): the instruction at PC does not retire. -/
def State.laneFault (s : State) (l cause : Nat) : State :=
  let o := s.lane l
  let f := BEL_LANE_FAULT l
  let s1 := if s.bit f BEL_LANE_FAULT_valid then s
    else s.setReg f (BitVec.ofNat 32 (cause + o.run.getD 0 * 2 ^ 8 + o.pc * 2 ^ 16 + 2 ^ 31))
  (((s1.belSum BEL_SUM_fault l).laneSafe l).spiShowAll).laneHalt l

/-- A debug halt (R519): 1 run cleared, 2 step, 3 breakpoint. -/
def State.laneDebugHalt (s : State) (l cause index : Nat) : State :=
  let c := BEL_LANE_DBG_CTRL l
  let safe := s.bit c BEL_LANE_DBG_CTRL_safe
  let s1 := (s.laneHalt l).setReg (BEL_LANE_DBG_STAT l) (BitVec.ofNat 32 (cause + index * 2 ^ 4))
  let s2 := if safe then (s1.laneSafe l).spiShowAll else s1
  if safe && s.bit c BEL_LANE_DBG_CTRL_irq then s2.belSum BEL_SUM_fault l else s2

def noDue (_ : Nat) : Nat := 0

/-- A lane that is idle starts its lowest pending loop (R385). -/
def State.laneStart (s : State) (l : Nat) : State :=
  let pend := (s.reg (BEL_LANE_PEND l)).toNat
  match (List.range 32).find? fun j => bitOf pend j with
  | none => s
  | some j =>
    let s1 := s.setReg (BEL_LANE_PEND l) (BitVec.ofNat 32 (pend - 2 ^ j))
    (s1.modLane l fun o => { o with
      run := some j, pc := s.fld (BEL_LOOP_CFG (loopReg l j)) BEL_LOOP_CFG_entry, steps := 0, loops := [],
      rally := tabGet noDue o.due j, runs := tabSet zeroWord o.runs j (tabGet zeroWord o.runs j + 1) }).laneShow l

/-- LANE_RUN_START (R385): an idle lane with a pending loop. -/
def execLaneRunStart (l : LaneId) (s : State) : Host.Outcome State Fault Refusal :=
  s.run fun s => if s.laneRuns l.val && (s.lane l.val).run.isNone then s.laneStart l.val else s

/-- Loop j of lane l becomes due at count k (R385, R386, R395). DEDUCED, log entry 91. DEDUCED, log entry 93. -/
def State.loopDue (k l : Nat) (s : State) (j : Nat) : State :=
  let pend := (s.reg (BEL_LANE_PEND l)).toNat
  if !s.laneRuns l then s.bump (BEL_LANE_MISSED l) whole
  else
    let was := bitOf pend j
    let s1 := if was then s
      else (s.setReg (BEL_LANE_PEND l) (BitVec.ofNat 32 (pend + 2 ^ j))).modLane l fun o => { o with due := tabSet noDue o.due j k }
    if was || (s.lane l).run = some j then
      let s2 := (s1.bump (BEL_LOOP_STAT (loopReg l j)) BEL_LOOP_STAT_ovr).bump (BEL_LANE_OVR l) whole
      (s2.belSum BEL_SUM_ovr l).raiseIf (!bitOf (s.fld BEL_SUM BEL_SUM_ovr) l) 448
    else s1

/-- The enabled loops of a lane with a source whose turn it is at a number. -/
def State.loopsAt (s : State) (l : Nat) (trig : Bool) (n : Nat) : List Nat :=
  (List.range 32).filter fun j =>
    let c := BEL_LOOP_CFG (loopReg l j)
    s.bit c BEL_LOOP_CFG_en && s.bit c BEL_LOOP_CFG_src = trig &&
      n % (s.fld c BEL_LOOP_CFG_div + 1) = s.fld (BEL_LOOP_PHASE (loopReg l j)) BEL_LOOP_PHASE_phase

/-- The loops of source 0 at a Rally instant (R385). -/
def State.belRally (s : State) : State :=
  (List.range 8).foldl (fun t l => (t.loopsAt l false s.rallyCount).foldl (State.loopDue s.rallyCount l) t) s

/-- A tick that a time trigger gives a lane; ticks of one instant merge (R138, R385). DEDUCED, log entry 92. -/
def State.belTick (s : State) (l : Nat) : State :=
  let o := s.lane l
  if o.trigAt = some (s.rallyCount, s.now) then s
  else
    let s1 := s.modLane l fun o => { o with trigs := o.trigs + 1, trigAt := some (s.rallyCount, s.now) }
    (s.loopsAt l true o.trigs).foldl (State.loopDue s.rallyCount l) s1

/-! ### Executing an instruction (R380 to R382, R387) -/

/-- What an instruction answers: it retires with the next PC in sequence or at a target, ends the run, stalls, or faults. -/
inductive BelRes where
  | done (s : State)
  | jump (s : State) (target : Nat)
  | tick (s : State)
  | stall
  | fault (cause : Nat)

/-- The loop stack and PC after an instruction at pc has retired (R382). DEDUCED, log entry 94. -/
def belLoopEnd (pc : Nat) : List BelLoop → List BelLoop × Nat
  | [] => ([], (pc + 1) % 1024)
  | e :: rest =>
    if e.stop = pc then
      if e.left ≤ 1 then belLoopEnd pc rest else ({ e with left := e.left - 1 } :: rest, e.start)
    else (e :: rest, (pc + 1) % 1024)

/-- The breakpoint at an address. -/
def State.belBreak (s : State) (l pc : Nat) : Option Nat :=
  (List.range 2).find? fun i =>
    s.bit (BEL_LANE_BP l i) BEL_LANE_BP_en && s.fld (BEL_LANE_BP l i) BEL_LANE_BP_addr = pc

/-- The end of a debug step. -/
def State.belStepEnd (s : State) (l : Nat) : State := if (s.lane l).stepping then s.laneDebugHalt l 2 0 else s

/-- The run of a lane ends at a TICK, and the next pending loop starts (R385). A debug step ends here. -/
def State.belRunEnd (s : State) (l : Nat) : State :=
  let o := s.lane l
  let s1 := s.setFld (BEL_LOOP_STAT (loopReg l (o.run.getD 0))) BEL_LOOP_STAT_last_steps (min 65535 (o.steps + 1))
  let s2 := (s1.modLane l fun o => { o with run := none, loops := [], bpSkip := false }).laneShow l
  if o.stepping then s2.laneDebugHalt l 2 0 else s2.laneStart l

/-- Lane l executes an instruction of its current run: `wf`, its operands form no reserved word; `ctl`, it may not end a
loop. A lane that does not run does nothing. DEDUCED, log entry 95. -/
def State.belInstr (s : State) (l : Nat) (wf ctl : Bool) (op : Lane → State → BelRes) : State :=
  let o := s.lane l
  match o.run with
  | none => s
  | some j =>
    let max := s.fld (BEL_LOOP_MAXST (loopReg l j)) BEL_LOOP_MAXST_max_steps
    if !s.laneRuns l && !o.stepping then s
    else if !o.bpSkip && (s.belBreak l o.pc).isSome then s.laneDebugHalt l 3 ((s.belBreak l o.pc).getD 0)
    else if tabGet falseAt o.progBad o.pc then s.laneFault l belPARITY
    else if !wf || (ctl && o.loops.head?.any fun e => e.stop = o.pc) then s.laneFault l belILLEGAL
    else if max != 0 && max ≤ o.steps then s.laneFault l belSTEPS
    else match op o s with
      | .done t =>
        let (loops, pc) := belLoopEnd o.pc (t.lane l).loops
        ((t.modLane l fun x => { x with loops := loops, pc := pc, steps := x.steps + 1, bpSkip := false }).laneShow l).belStepEnd l
      | .jump t pc =>
        ((t.modLane l fun x => { x with pc := pc % 1024, steps := x.steps + 1, bpSkip := false }).laneShow l).belStepEnd l
      | .tick t => t.belRunEnd l
      | .stall => s
      | .fault c => s.laneFault l c

/-- A register takes a number, and the instruction retires. -/
def belWrite1 (l : Nat) (s : State) (d : BelSel) (v : Int) : BelRes := .done (s.modLane l fun o => o.put d v)

/-! ### Loads and stores (R380, R395) -/

/-- The address of format M: with i, x7 is added, modulo 1,024 words or 128 keeps. -/
def Lane.addr (o : Lane) (r : BelSel) (i : Bool) (a : Nat) : Nat :=
  (a + if i then (o.getX 7).toNat else 0) % (if isX r then 1024 else 128)

/-- Format M permits the operands: for an a register bits [9:7] are 0. -/
def memOk (r : BelSel) (a : Fin 1024) : Bool := isX r || (isA r && a.val < 128)

def doBelLd (l : LaneId) (r : BelSel) (i : Bool) (a : Fin 1024) (s : State) : State :=
  s.belInstr l.val (memOk r a) false fun o s =>
    let k := o.addr r i a.val
    if isX r then
      if tabGet falseAt o.dataBad k then .fault belPARITY
      else .done (s.modLane l.val fun o => o.setX r.val (tabGet zero16 o.data k))
    else if tabGet falseAt o.keepBad k then .fault belPARITY
    else .done (s.modLane l.val fun o => o.setA (r.val - 8) (tabGet zero40 o.keep k))

/-- BEL_LD (R380). -/
def execBelLd (l : LaneId) (r : BelSel) (i : Bool) (a : Fin 1024) (s : State) : Host.Outcome State Fault Refusal :=
  s.run (doBelLd l r i a)

/-- A data word or keep is written with valid parity. -/
def Lane.setData (o : Lane) (k : Nat) (v : BitVec 16) : Lane :=
  { o with data := tabSet zero16 o.data k v, dataBad := tabSet falseAt o.dataBad k false }

def Lane.setKeep (o : Lane) (k : Nat) (v : BitVec 40) : Lane :=
  { o with keep := tabSet zero40 o.keep k v, keepBad := tabSet falseAt o.keepBad k false }

def doBelSt (l : LaneId) (r : BelSel) (i : Bool) (a : Fin 1024) (s : State) : State :=
  s.belInstr l.val (memOk r a) false fun o s =>
    let k := o.addr r i a.val
    .done (s.modLane l.val fun o =>
      if isX r then o.setData k (o.getX r.val) else o.setKeep k (o.getA (r.val - 8)))

/-- BEL_ST (R380). -/
def execBelSt (l : LaneId) (r : BelSel) (i : Bool) (a : Fin 1024) (s : State) : Host.Outcome State Fault Refusal :=
  s.run (doBelSt l r i a)

/-! ### Ports (R383, R384, R389 to R394) -/

/-- IN takes an accumulator, OUT an x register. -/
def belIn (l : Nat) (s : State) (a : Fin 4) (n : Nat) (v : Int) : BelRes :=
  .done (s.modLane l fun o => o.setA a.val (BitVec.ofInt 40 (v * 2 ^ n)))

/-- SPI select j of master c belongs to lane l. -/
def State.spiOwned (s : State) (l c j : Nat) : Bool := s.fld (BEL_SPI_SEL c j) BEL_SPI_SEL_lane = l

/-- The select holds a transfer, queued or in progress (R391). -/
def State.spiHolds (s : State) (c j : Nat) : Bool :=
  ((s.spi c).queue.any fun x => x.1 = j) || ((s.spi c).busy.any fun x => x.1 = j)

/-- IN from MBOX (R392). -/
def inMbox (l : Nat) (a : Fin 4) (n i : Nat) (o : Lane) (s : State) : BelRes :=
  let v := (tabGet mboxDefault o.mbox i).1
  belIn l (s.modLane l fun o => { o with mbox := tabSet mboxDefault o.mbox i (v, false) }) a n v.toInt

/-- A Mantel error of a lane's window (R394). -/
def State.belMerr (s : State) (l : Nat) : State := (s.bump (BEL_LANE_MERR l) whole).belSum BEL_SUM_merr l

/-- The address of the half-word at the index, and the index's advance. -/
def State.winAddr (s : State) (l : Nat) : Nat := (s.reg (BEL_LANE_MWIN l)).toNat + 2 * (s.lane l).midx

def State.winNext (s : State) (l : Nat) : State := s.modLane l fun o => { o with midx := (o.midx + 1) % 2048 }

/-- IN from MRD (R394): an ECC response reads as 0. DEDUCED, log entry 102. -/
def inMrd (l : Nat) (a : Fin 4) (n : Nat) (_ : Lane) (s : State) : BelRes :=
  if !s.ramOpen then .stall
  else match s.dmaRead midBellows (s.winAddr l) .b16 with
    | (some v, s1) => belIn l (s1.winNext l) a n (signed 16 v)
    | (none, s1) => belIn l ((s1.belMerr l).winNext l) a n 0

/-- The value of an input port without an effect of its own; none for a port that is no input (Table: Lane ports). -/
def State.portIn (s : State) (l : Nat) (o : Lane) (p : Nat) : Option Int :=
  if p < 0x10 then some (s.reg (BEL_ENC_COUNT p)).toInt
  else if p < 0x20 then some (s.reg (BEL_ENC_IDX (p - 0x10))).toInt
  else if 0x64 ≤ p ∧ p < 0x68 then some (signed 32 (wrapInt 32 (s.trans (p - 0x64)).pos))
  else if 0x68 ≤ p ∧ p < 0x6C then some (s.reg (MIF_SPEED (p - 0x68))).toInt
  else if 0x74 ≤ p ∧ p < 0x78 then some (b2n (tabGet mboxDefault o.mbox (p - 0x74)).2)
  else if p = 0x90 then some (signed 32 o.rally)
  else if p = 0x91 then some (tabGet zeroWord o.runs (o.run.getD 0)).toInt
  else if 0x40 ≤ p ∧ p < 0x60 then
    if s.spiOwned l ((p - 0x40) / 8) (p % 8) then some (tabGet zeroWord (s.spi ((p - 0x40) / 8)).rx (p % 8)).toInt else none
  else none

/-- IN from any port. -/
def opIn (l : Nat) (a : Fin 4) (n p : Nat) (o : Lane) (s : State) : BelRes :=
  if 0x70 ≤ p ∧ p < 0x74 then inMbox l a n (p - 0x70) o s
  else if p = 0x81 then inMrd l a n o s
  else match s.portIn l o p with
    | none => .fault belPORT
    | some v => if 0x40 ≤ p && p < 0x60 && s.spiHolds ((p - 0x40) / 8) (p % 8) then .stall else belIn l s a n v

def doBelIn (l : LaneId) (a : Fin 4) (n : Fin 32) (p : Fin 256) (s : State) : State :=
  s.belInstr l.val true false (opIn l.val a n.val p.val)

/-- BEL_IN (R383). -/
def execBelIn (l : LaneId) (a : Fin 4) (n : Fin 32) (p : Fin 256) (s : State) : Host.Outcome State Fault Refusal :=
  s.run (doBelIn l a n p)

/-- BEL_IN_MBOX (R392). -/
def execBelInMbox (l : LaneId) (a : Fin 4) (n : Fin 32) (i : Fin 4) (s : State) : Host.Outcome State Fault Refusal :=
  s.run fun s => s.belInstr l.val true false (inMbox l.val a n.val i.val)

/-- BEL_IN_MRD (R394). -/
def execBelInMrd (l : LaneId) (a : Fin 4) (n : Fin 32) (s : State) : Host.Outcome State Fault Refusal :=
  s.run fun s => s.belInstr l.val true false (inMrd l.val a n.val)

/-- The output of a pair that turns on stays inactive for dead slots after the other one turns inactive (R390). -/
def State.pwmTurn (s : State) (on off dead : Nat) : State :=
  match s.pwmOffAt off with
  | some t => s.setPwm on { s.pwm on with deadEnd := t + dead }
  | none => s

/-- OUT to PWM n (R390): single, or the leader of a pair. -/
def outPwm (l n : Nat) (v : BitVec 16) (_ : Lane) (s : State) : BelRes :=
  if s.pwmOwner n != l || s.pwmLeader n != n then .fault belPORT
  else if n % 2 = 0 && s.bit (BEL_PWM_CFG n) BEL_PWM_CFG_pair then
    let c := v.toInt.natAbs * (s.fld (BEL_PWM_PERIOD n) BEL_PWM_PERIOD_period + 1) / 32768
    let dead := s.fld (BEL_PWM_CFG n) BEL_PWM_CFG_dead
    let (on, off) := if 0 ≤ v.toInt then (n, n + 1) else (n + 1, n)
    .done ((((if c = 0 then s else s.pwmTurn on off dead)).pwmSet on c).pwmSet off 0)
  else .done (s.pwmSet n v.toNat)

/-- OUT to SPI_GO (R391). -/
def outSpi (l c j : Nat) (v : BitVec 16) (o : Lane) (s : State) : BelRes :=
  if !s.spiOwned l c j then .fault belPORT
  else if s.spiHolds c j then .stall
  else
    let w : Word := BitVec.ofNat 32 ((tabGet zero16 o.txh c).toNat * 2 ^ 16 + v.toNat)
    .done ((s.modSpi c fun p => { p with queue := p.queue ++ [(j, w)] }).spiShow c)

def outTxh (l c : Nat) (v : BitVec 16) (_ : Lane) (s : State) : BelRes :=
  .done (s.modLane l fun o => { o with txh := tabSet zero16 o.txh c v })

/-- OUT to EVT (R393): the station queues 8 tokens. -/
def outEvt (l i : Nat) (v : BitVec 16) (o : Lane) (s : State) : BelRes :=
  if 8 ≤ (s.outboxOf belStation).length then .stall
  else
    let w : Word := BitVec.ofNat 32 (o.evth.toNat * 2 ^ 16 + v.toNat)
    .done (s.stationSend belStation ⟨.event, s.rallyCount % 256, s.fld (BEL_LANE_EVT l i) BEL_LANE_EVT_tag, w⟩)

def outEvth (l : Nat) (v : BitVec 16) (_ : Lane) (s : State) : BelRes :=
  .done (s.modLane l fun o => { o with evth := v })

def outMidx (l : Nat) (v : BitVec 16) (_ : Lane) (s : State) : BelRes :=
  .done (s.modLane l fun o => { o with midx := v.toNat % 2048 })

/-- OUT to MWR (R394). -/
def outMwr (l : Nat) (v : BitVec 16) (_ : Lane) (s : State) : BelRes :=
  if !s.ramOpen then .stall
  else match s.dmaWrite midBellows (s.winAddr l) .b16 v.toNat with
    | (true, s1) => .done (s1.winNext l)
    | (false, s1) => .done ((s1.belMerr l).winNext l)

/-- OUT to TEMP (R384): a write of RSG_TEMP_EXT by the Bellows. -/
def outTemp (v : BitVec 16) (_ : Lane) (s : State) : BelRes :=
  .done (s.writeReg midBellows RSG_TEMP_EXT (BitVec.ofNat 32 v.toNat) (accept fun s => s.tempExtWrite (BitVec.ofNat 32 v.toNat)))

/-- OUT to any port. -/
def opOut (l : Nat) (p : Nat) (v : BitVec 16) (o : Lane) (s : State) : BelRes :=
  if 0x20 ≤ p ∧ p < 0x40 then outPwm l (p - 0x20) v o s
  else if 0x40 ≤ p ∧ p < 0x60 then outSpi l ((p - 0x40) / 8) (p % 8) v o s
  else if 0x60 ≤ p ∧ p < 0x64 then outTxh l (p - 0x60) v o s
  else if 0x78 ≤ p ∧ p < 0x7C then outEvt l (p - 0x78) v o s
  else if p = 0x7C then outEvth l v o s
  else if p = 0x80 then outMidx l v o s
  else if p = 0x82 then outMwr l v o s
  else if p = 0x88 then outTemp v o s
  else .fault belPORT

/-- An OUT of x register r. -/
def State.belOut (s : State) (l : Nat) (r : Fin 8) (op : BitVec 16 → Lane → State → BelRes) : State :=
  s.belInstr l true false fun o s => op (o.getX r.val) o s

def doBelOut (l : LaneId) (r : Fin 8) (p : Fin 256) (s : State) : State := s.belOut l.val r (opOut l.val p.val)

/-- BEL_OUT (R383). -/
def execBelOut (l : LaneId) (r : Fin 8) (p : Fin 256) (s : State) : Host.Outcome State Fault Refusal :=
  s.run (doBelOut l r p)

/-- BEL_OUT_PWM (R390). -/
def execBelOutPwm (l : LaneId) (r : Fin 8) (n : Fin 32) (s : State) : Host.Outcome State Fault Refusal :=
  s.run fun s => s.belOut l.val r (outPwm l.val n.val)

/-- BEL_OUT_SPI_GO (R391). -/
def execBelOutSpiGo (l : LaneId) (r : Fin 8) (c : Fin 4) (j : Fin 8) (s : State) : Host.Outcome State Fault Refusal :=
  s.run fun s => s.belOut l.val r (outSpi l.val c.val j.val)

/-- BEL_OUT_TXH (R383). -/
def execBelOutTxh (l : LaneId) (r : Fin 8) (c : Fin 4) (s : State) : Host.Outcome State Fault Refusal :=
  s.run fun s => s.belOut l.val r (outTxh l.val c.val)

/-- BEL_OUT_EVT (R393). -/
def execBelOutEvt (l : LaneId) (r : Fin 8) (i : Fin 4) (s : State) : Host.Outcome State Fault Refusal :=
  s.run fun s => s.belOut l.val r (outEvt l.val i.val)

/-- BEL_OUT_EVTH (R383). -/
def execBelOutEvth (l : LaneId) (r : Fin 8) (s : State) : Host.Outcome State Fault Refusal :=
  s.run fun s => s.belOut l.val r (outEvth l.val)

/-- BEL_OUT_MIDX (R394). -/
def execBelOutMidx (l : LaneId) (r : Fin 8) (s : State) : Host.Outcome State Fault Refusal :=
  s.run fun s => s.belOut l.val r (outMidx l.val)

/-- BEL_OUT_MWR (R394). -/
def execBelOutMwr (l : LaneId) (r : Fin 8) (s : State) : Host.Outcome State Fault Refusal :=
  s.run fun s => s.belOut l.val r (outMwr l.val)

/-- BEL_OUT_TEMP (R384). -/
def execBelOutTemp (l : LaneId) (r : Fin 8) (s : State) : Host.Outcome State Fault Refusal :=
  s.run fun s => s.belOut l.val r outTemp

/-! ### Arithmetic (R378 to R380) -/

/-- A multiply: d an accumulator, s and t x registers. -/
def State.belMul (st : State) (l : Nat) (d s t : BelSel) (f : Int → Int → Int) : State :=
  st.belInstr l (isA d && isX s && isX t) false fun o st => belWrite1 l st d (f (o.get d) (o.get s * o.get t))

def doBelMac (l : LaneId) (d s t : BelSel) (st : State) : State := st.belMul l.val d s t fun a p => a + p
def execBelMac (l : LaneId) (d s t : BelSel) (st : State) : Host.Outcome State Fault Refusal := st.run (doBelMac l d s t)

def doBelMsu (l : LaneId) (d s t : BelSel) (st : State) : State := st.belMul l.val d s t fun a p => a - p
def execBelMsu (l : LaneId) (d s t : BelSel) (st : State) : Host.Outcome State Fault Refusal := st.run (doBelMsu l d s t)

def doBelMul (l : LaneId) (d s t : BelSel) (st : State) : State := st.belMul l.val d s t fun _ p => p
def execBelMul (l : LaneId) (d s t : BelSel) (st : State) : Host.Outcome State Fault Refusal := st.run (doBelMul l d s t)

/-- All x or all a. -/
def sameWidth (l : List BelSel) : Bool := l.all isX || l.all isA

/-- Two operands of one width. -/
def State.bel2 (st : State) (l : Nat) (d s t : BelSel) (f : Int → Int → Int) : State :=
  st.belInstr l (sameWidth [d, s, t]) false fun o st => belWrite1 l st d (f (o.get s) (o.get t))

def doBelAdd (l : LaneId) (d s t : BelSel) (st : State) : State := st.bel2 l.val d s t fun a b => a + b
def execBelAdd (l : LaneId) (d s t : BelSel) (st : State) : Host.Outcome State Fault Refusal := st.run (doBelAdd l d s t)

def doBelSub (l : LaneId) (d s t : BelSel) (st : State) : State := st.bel2 l.val d s t fun a b => a - b
def execBelSub (l : LaneId) (d s t : BelSel) (st : State) : Host.Outcome State Fault Refusal := st.run (doBelSub l d s t)

def doBelMin (l : LaneId) (d s t : BelSel) (st : State) : State := st.bel2 l.val d s t fun a b => if a < b then a else b
def execBelMin (l : LaneId) (d s t : BelSel) (st : State) : Host.Outcome State Fault Refusal := st.run (doBelMin l d s t)

def doBelMax (l : LaneId) (d s t : BelSel) (st : State) : State := st.bel2 l.val d s t fun a b => if a < b then b else a
def execBelMax (l : LaneId) (d s t : BelSel) (st : State) : Host.Outcome State Fault Refusal := st.run (doBelMax l d s t)

/-- One operand of the result's width. -/
def State.bel1 (st : State) (l : Nat) (ok : Bool) (d s : BelSel) (f : Int → Int) : State :=
  st.belInstr l (sameWidth [d, s] && ok) false fun o st => belWrite1 l st d (f (o.get s))

def doBelShl (l : LaneId) (d s : BelSel) (n : Fin 64) (st : State) : State :=
  st.bel1 l.val (decide (n.val < 40)) d s fun a => a * 2 ^ n.val
def execBelShl (l : LaneId) (d s : BelSel) (n : Fin 64) (st : State) : Host.Outcome State Fault Refusal :=
  st.run (doBelShl l d s n)

def doBelShr (l : LaneId) (d s : BelSel) (n : Fin 64) (st : State) : State :=
  st.bel1 l.val (decide (n.val < 40)) d s fun a => a / 2 ^ n.val
def execBelShr (l : LaneId) (d s : BelSel) (n : Fin 64) (st : State) : Host.Outcome State Fault Refusal :=
  st.run (doBelShr l d s n)

def doBelAbs (l : LaneId) (d s : BelSel) (st : State) : State := st.bel1 l.val true d s fun a => (a.natAbs : Int)
def execBelAbs (l : LaneId) (d s : BelSel) (st : State) : Host.Outcome State Fault Refusal := st.run (doBelAbs l d s)

def doBelNeg (l : LaneId) (d s : BelSel) (st : State) : State := st.bel1 l.val true d s fun a => -a
def execBelNeg (l : LaneId) (d s : BelSel) (st : State) : Host.Outcome State Fault Refusal := st.run (doBelNeg l d s)

def doBelClr (l : LaneId) (d : BelSel) (st : State) : State :=
  st.belInstr l.val (isA d) false fun _ st => belWrite1 l.val st d 0
def execBelClr (l : LaneId) (d : BelSel) (st : State) : Host.Outcome State Fault Refusal := st.run (doBelClr l d)

def doBelMova (l : LaneId) (d s : BelSel) (n : Fin 64) (st : State) : State :=
  st.belInstr l.val (((isX d && isA s) || (isA d && isX s)) && decide (n.val < 40)) false fun o st =>
    belWrite1 l.val st d (if isX d then o.get s / 2 ^ n.val else o.get s * 2 ^ n.val)
def execBelMova (l : LaneId) (d s : BelSel) (n : Fin 64) (st : State) : Host.Outcome State Fault Refusal :=
  st.run (doBelMova l d s n)

def doBelBfn (l : LaneId) (d s t : BelSel) (st : State) : State :=
  st.belInstr l.val (isX d && isA s && isX t) false fun o st =>
    belWrite1 l.val st d (bfMant (o.get s) (bfExp (o.getX t.val)))
def execBelBfn (l : LaneId) (d s t : BelSel) (st : State) : Host.Outcome State Fault Refusal := st.run (doBelBfn l d s t)

def doBelBfnE (l : LaneId) (d s : BelSel) (st : State) : State :=
  st.belInstr l.val (isX d && isA s) false fun o st => belWrite1 l.val st d (bfFit (o.get s))
def execBelBfnE (l : LaneId) (d s : BelSel) (st : State) : Host.Outcome State Fault Refusal := st.run (doBelBfnE l d s)

def doBelBfx (l : LaneId) (d s t : BelSel) (st : State) : State :=
  st.belInstr l.val (isA d && isX s && isX t) false fun o st =>
    belWrite1 l.val st d (shiftDown (o.get s) (-(15 + bfExp (o.getX t.val))))
def execBelBfx (l : LaneId) (d s t : BelSel) (st : State) : Host.Outcome State Fault Refusal := st.run (doBelBfx l d s t)

/-! ### Control (R381, R382, R385) -/

def doBelJmp (l : LaneId) (t : Fin 1024) (st : State) : State :=
  st.belInstr l.val true true fun _ st => .jump st t.val
def execBelJmp (l : LaneId) (t : Fin 1024) (st : State) : Host.Outcome State Fault Refusal := st.run (doBelJmp l t)

/-- A jump on a condition of a register. -/
def State.belBranch (st : State) (l : Nat) (r : BelSel) (t : Nat) (c : Int → Bool) : State :=
  st.belInstr l (isX r || isA r) true fun o st => .jump st (if c (o.get r) then t else o.pc + 1)

def doBelJz (l : LaneId) (r : BelSel) (t : Fin 1024) (st : State) : State := st.belBranch l.val r t.val fun v => v = 0
def execBelJz (l : LaneId) (r : BelSel) (t : Fin 1024) (st : State) : Host.Outcome State Fault Refusal :=
  st.run (doBelJz l r t)

def doBelJn (l : LaneId) (r : BelSel) (t : Fin 1024) (st : State) : State := st.belBranch l.val r t.val fun v => v < 0
def execBelJn (l : LaneId) (r : BelSel) (t : Fin 1024) (st : State) : Host.Outcome State Fault Refusal :=
  st.run (doBelJn l r t)

/-- The count's operand is an x register or an immediate. -/
def countOk : BelCount → Bool
  | .reg r => r.val < 8
  | .imm _ => true

def Lane.count (o : Lane) : BelCount → Nat
  | .reg r => (o.getX r.val).toNat
  | .imm c => c.toNat

def doBelLoop (l : LaneId) (c : BelCount) (stop : Fin 1024) (st : State) : State :=
  st.belInstr l.val (countOk c && decide ((st.lane l.val).pc < stop.val)) true fun o st =>
    if o.count c = 0 then .jump st (stop.val + 1)
    else if 2 ≤ o.loops.length then .fault belLOOPOVF
    else .jump (st.modLane l.val fun o => { o with loops := ⟨o.pc + 1, stop.val, o.count c⟩ :: o.loops }) (o.pc + 1)

/-- BEL_LOOP (R382). -/
def execBelLoop (l : LaneId) (c : BelCount) (stop : Fin 1024) (st : State) : Host.Outcome State Fault Refusal :=
  st.run (doBelLoop l c stop)

def doBelTick (l : LaneId) (st : State) : State := st.belInstr l.val true true fun _ st => .tick st

/-- BEL_TICK_INSTR (R385). -/
def execBelTickInstr (l : LaneId) (st : State) : Host.Outcome State Fault Refusal := st.run (doBelTick l)

/-! ### Words of instructions (R380) -/

/-- An instruction that a program word holds. -/
inductive BelOp where
  | ld (r : BelSel) (i : Bool) (a : Fin 1024)
  | st (r : BelSel) (i : Bool) (a : Fin 1024)
  | inp (a : Fin 4) (n : Fin 32) (p : Fin 256)
  | out (r : Fin 8) (p : Fin 256)
  | mac (d s t : BelSel)
  | msu (d s t : BelSel)
  | mul (d s t : BelSel)
  | add (d s t : BelSel)
  | sub (d s t : BelSel)
  | shl (d s : BelSel) (n : Fin 64)
  | shr (d s : BelSel) (n : Fin 64)
  | min (d s t : BelSel)
  | max (d s t : BelSel)
  | abs (d s : BelSel)
  | neg (d s : BelSel)
  | clr (d : BelSel)
  | mova (d s : BelSel) (n : Fin 64)
  | bfn (d s t : BelSel)
  | bfnE (d s : BelSel)
  | bfx (d s t : BelSel)
  | jmp (t : Fin 1024)
  | jz (r : BelSel) (t : Fin 1024)
  | jn (r : BelSel) (t : Fin 1024)
  | loop (c : BelCount) (stop : Fin 1024)
  | tick
deriving DecidableEq, Repr

/-- The instruction that a word encodes; none for a reserved word. An operand combination that the instruction
does not permit is left to its meaning. DEDUCED, log entry 96. -/
def decodeBel (w : Word) : Option BelOp :=
  let n := w.toNat
  let d : BelSel := Fin.ofNat 16 (n / 2 ^ 23)
  let s : BelSel := Fin.ofNat 16 (n / 2 ^ 19)
  let t : BelSel := Fin.ofNat 16 (n / 2 ^ 15)
  let sh : Fin 64 := Fin.ofNat 64 n
  let a : Fin 1024 := Fin.ofNat 1024 n
  let i := bitOf n 22
  let fa := n / 2 ^ 6 % 2 ^ 9 = 0
  let f0 := fa && sh.val = 0
  let fm := n / 2 ^ 10 % 2 ^ 12 = 0
  let fp := n / 2 ^ 8 % 2 ^ 10 = 0
  let fj := n / 2 ^ 10 % 2 ^ 13 = 0
  let none' := t.val = 15
  let acc : Fin 4 := Fin.ofNat 4 d.val
  let xr : Fin 8 := Fin.ofNat 8 d.val
  let port : Fin 256 := Fin.ofNat 256 n
  let shn : Fin 32 := Fin.ofNat 32 (n / 2 ^ 18)
  let pick (c : Bool) (x : BelOp) : Option BelOp := if c then some x else none
  match n / 2 ^ 27 with
  | 0x01 => pick fm (.ld d i a)
  | 0x02 => pick fm (.st d i a)
  | 0x03 => pick (fp && isA d) (.inp acc shn port)
  | 0x04 => pick (fp && isX d && shn.val = 0) (.out xr port)
  | 0x05 => pick f0 (.mac d s t)
  | 0x06 => pick f0 (.msu d s t)
  | 0x07 => pick f0 (.mul d s t)
  | 0x08 => pick f0 (.add d s t)
  | 0x09 => pick f0 (.sub d s t)
  | 0x0A => pick (fa && none') (.shl d s sh)
  | 0x0B => pick (fa && none') (.shr d s sh)
  | 0x0C => pick f0 (.min d s t)
  | 0x0D => pick f0 (.max d s t)
  | 0x0E => pick (f0 && none') (.abs d s)
  | 0x0F => pick (f0 && none') (.neg d s)
  | 0x10 => pick (f0 && none' && s.val = 15) (.clr d)
  | 0x11 => pick (fa && none') (.mova d s sh)
  | 0x12 => if none' then pick f0 (.bfnE d s) else pick f0 (.bfn d s t)
  | 0x13 => pick f0 (.bfx d s t)
  | 0x14 => pick (fj && d.val = 0) (.jmp a)
  | 0x15 => pick fj (.jz d a)
  | 0x16 => pick fj (.jn d a)
  | 0x17 =>
    let c : BitVec 11 := BitVec.ofNat 11 (n / 2 ^ 12)
    if n / 2 ^ 10 % 4 != 0 then none
    else if d.val = 15 then some (.loop (.imm c) a)
    else pick (c = 0) (.loop (.reg (Fin.ofNat 15 d.val)) a)
  | 0x18 => pick (n % 2 ^ 27 = 0) (.tick)
  | _ => none

/-- Executes a decoded instruction of a lane. -/
def belDo (l : LaneId) (i : BelOp) (s : State) : State :=
  match i with
  | .ld r i a => doBelLd l r i a s
  | .st r i a => doBelSt l r i a s
  | .inp a n p => doBelIn l a n p s
  | .out r p => doBelOut l r p s
  | .mac d a b => doBelMac l d a b s
  | .msu d a b => doBelMsu l d a b s
  | .mul d a b => doBelMul l d a b s
  | .add d a b => doBelAdd l d a b s
  | .sub d a b => doBelSub l d a b s
  | .shl d a n => doBelShl l d a n s
  | .shr d a n => doBelShr l d a n s
  | .min d a b => doBelMin l d a b s
  | .max d a b => doBelMax l d a b s
  | .abs d a => doBelAbs l d a s
  | .neg d a => doBelNeg l d a s
  | .clr d => doBelClr l d s
  | .mova d a n => doBelMova l d a n s
  | .bfn d a b => doBelBfn l d a b s
  | .bfnE d a => doBelBfnE l d a s
  | .bfx d a b => doBelBfx l d a b s
  | .jmp t => doBelJmp l t s
  | .jz r t => doBelJz l r t s
  | .jn r t => doBelJn l r t s
  | .loop c e => doBelLoop l c e s
  | .tick => doBelTick l s

/-- A reserved word is fetched (R380). -/
def State.belReserved (s : State) (l : Nat) : State := s.belInstr l false false fun _ _ => .stall

/-- BEL_RESERVED_WORD (R380): lane l fetches word w; a word that is not reserved is no event. -/
def execBelReservedWord (l : LaneId) (w : Word) (s : State) : Host.Outcome State Fault Refusal :=
  s.run fun s => if (decodeBel w).isNone then s.belReserved l.val else s

/-! ### Run control and debug (R396, R519) -/

/-- A lane's run state is cleared (R396): pending bits, loop stack, registers, TICKS, trigger ticks, latches and the fault.
DEDUCED, log entry 100. -/
def State.laneClear (s : State) (l : Nat) : State :=
  let s1 := (s.setReg (BEL_LANE_PEND l) 0).setFld (BEL_LANE_FAULT l) BEL_LANE_FAULT_valid 0
  (s1.modLane l fun o => { o with
    loops := [], x := [], a := [], runs := [], trigs := 0, trigAt := none, txh := [], evth := 0, run := none, due := [],
    steps := 0, bpSkip := false, stepping := false }).laneShow l

/-- A write to BEL_LANE_CTRL. A reset leaves the lane halted, whatever run says. -/
def writeLaneCtrl (l : Nat) (v : Word) : WriteEff := fun s =>
  let on := s.laneRuns l
  let run := BEL_LANE_CTRL_run.get v = 1
  if BEL_LANE_CTRL_reset.get v = 1 then (if on then (.slverr, s) else (.ok, s.laneClear l))
  else if run then
    if s.bit (BEL_LANE_FAULT l) BEL_LANE_FAULT_valid then (.slverr, s)
    else if on then (.ok, s)
    else (.ok, ((s.setFld (BEL_LANE_CTRL l) BEL_LANE_CTRL_run 1).modLane l fun o => { o with
      bpSkip := true, stepping := false }).laneShow l)
  else if on then (.ok, s.laneDebugHalt l 1 0)
  else (.ok, s)

/-- LANE_HALT (R396): a write of 0 to run. -/
def execLaneHalt (m : Mid) (l : LaneId) (s : State) : Host.Outcome State Fault Refusal :=
  s.run fun s => s.writeReg m.val (BEL_LANE_CTRL l.val) 0 (writeLaneCtrl l.val 0)

/-- LANE_RESUME (R396): a write of 1 to run. -/
def execLaneResume (m : Mid) (l : LaneId) (s : State) : Host.Outcome State Fault Refusal :=
  s.run fun s => s.writeReg m.val (BEL_LANE_CTRL l.val) 1 (writeLaneCtrl l.val 1)

/-- LANE_RESET (R396): a write of 1 to reset. -/
def execLaneReset (m : Mid) (l : LaneId) (s : State) : Host.Outcome State Fault Refusal :=
  s.run fun s => s.writeReg m.val (BEL_LANE_CTRL l.val) 2 (writeLaneCtrl l.val 2)

/-- One debug step of a halted lane (R519): an instruction of its run, or at a run boundary the start of the lowest pending
loop. DEDUCED, log entry 103. -/
def State.belStep (s : State) (l : LaneId) : State :=
  if s.laneRuns l.val then s
  else if (s.lane l.val).run.isNone then s.laneStart l.val
  else
    let s1 := s.modLane l.val fun o => { o with stepping := true, bpSkip := true }
    match decodeBel (tabGet zeroWord (s.lane l.val).prog (s.lane l.val).pc) with
    | some i => belDo l i s1
    | none => s1.belReserved l.val

/-- A write to BEL_LANE_DBG_CTRL: step is an action. -/
def writeBelDbg (l : LaneId) (v : Word) : WriteEff := accept fun s =>
  let s1 := s.setReg (BEL_LANE_DBG_CTRL l.val) (v &&& 0xC)
  if bitOf v.toNat 0 then s1.belStep l else s1

/-- BEL_DBG_STEP (R519). -/
def execBelDbgStep (m : Mid) (l : LaneId) (v : Word) (s : State) : Host.Outcome State Fault Refusal :=
  s.run fun s => s.writeReg m.val (BEL_LANE_DBG_CTRL l.val) (v ||| 1) (writeBelDbg l (v ||| 1))

/-- What BEL_LANE_DBG_DATA reads for a code (R519). -/
def Lane.dbgRead (o : Lane) (code : Nat) : Word :=
  if code < 8 then (o.getX code).zeroExtend 32
  else if code < 12 then (o.getA (code - 8)).truncate 32
  else BitVec.ofNat 32 ((o.getA (code - 12)).toNat / 2 ^ 32)

/-- What a write of BEL_LANE_DBG_DATA does. -/
def Lane.dbgWrite (o : Lane) (code : Nat) (v : Word) : Lane :=
  if code < 8 then o.setX code (v.truncate 16)
  else if code < 12 then o.setA (code - 8) (BitVec.ofNat 40 ((o.getA (code - 8)).toNat / 2 ^ 32 * 2 ^ 32 + v.toNat))
  else o.setA (code - 12) (BitVec.ofNat 40 ((o.getA (code - 12)).toNat % 2 ^ 32 + v.toNat % 2 ^ 8 * 2 ^ 32))

def State.belDbgCode (s : State) (l : Nat) : Nat := s.fld (BEL_LANE_DBG_SEL l) BEL_LANE_DBG_SEL_code

def writeBelDbgData (l : Nat) (v : Word) : WriteEff := fun s =>
  if s.laneRuns l then (.slverr, s) else (.ok, s.modLane l fun o => o.dbgWrite (s.belDbgCode l) v)

def readBelDbgData (l : Nat) (s : State) : Resp × Word × State :=
  if s.laneRuns l then (.slverr, 0, s) else (.ok, (s.lane l).dbgRead (s.belDbgCode l), s)

/-- BEL_DBG_DATA (R519): a write of the value given, or a read. -/
def execBelDbgData (m : Mid) (l : LaneId) (w : Option Word) (s : State) : Host.Outcome State Fault Refusal :=
  s.run fun s => match w with
    | some v => s.writeReg m.val (BEL_LANE_DBG_DATA l.val) v (writeBelDbgData l.val v)
    | none => s.readReg m.val (BEL_LANE_DBG_DATA l.val) (readBelDbgData l.val)

/-! ### Encoders, PWM pins, SPI masters and mailboxes (R389 to R392) -/

/-- The count that a change of an encoder's levels gives, before invert; none for a quadrature error. -/
def encCount (decode : Nat) (a0 b0 a b : Bool) : Option Int :=
  let ea := a0 != a
  let eb := b0 != b
  if ea && eb then none
  else
    let lead : Int := if ea then (if a != b then 1 else -1) else if a = b then 1 else -1
    some (if (ea && (a || decode != 0)) || (eb && decode = 2) then lead else 0)

/-- A slot in which pins A, B and I of encoder n have these levels (R354, R389). The index captures the count before that
slot's count. -/
def State.encSlot (s : State) (n : Nat) (a b i : Bool) : State :=
  let c := BEL_ENC_CFG n
  let f := s.fld c BEL_ENC_CFG_filt
  let e := tabGet encDefault s.bel.enc n
  let (fa, a1) := e.filtA.sample f e.a a
  let (fb, b1) := e.filtB.sample f e.b b
  let (fi, i1) := e.filtI.sample f e.idx i
  let s1 := { s with bel := { s.bel with enc := tabSet encDefault s.bel.enc n ⟨a1, b1, i1, fa, fb, fi⟩ } }
  if !s.bit c BEL_ENC_CFG_en then s1
  else
    let s2 := if e.idx != i1 && i1 != s.bit c BEL_ENC_CFG_idx_pol then s1.setReg (BEL_ENC_IDX n) (s.reg (BEL_ENC_COUNT n))
      else s1
    match encCount (s.fld c BEL_ENC_CFG_decode) e.a e.b a1 b1 with
    | none => s2.bump (BEL_ENC_ERRS n) BEL_ENC_ERRS_quad
    | some d =>
      s2.setReg (BEL_ENC_COUNT n) (s.reg (BEL_ENC_COUNT n) + BitVec.ofInt 32 (if s.bit c BEL_ENC_CFG_invert then -d else d))

/-- ENC_EDGE (R389): the levels of ENCn_A, ENCn_B and ENCn_I in a 10 ns slot. DEDUCED, log entry 99. -/
def execEncEdge (n : Fin 16) (a b i : Bool) (s : State) : Host.Outcome State Fault Refusal :=
  s.runXo fun s => s.encSlot n.val a b i

/-- A 10 ns slot passes: inputs whose new level is not accepted yet are sampled again (R354). -/
def State.belSlot (s : State) : State :=
  (List.range 16).foldl (fun s n =>
    let e := tabGet encDefault s.bel.enc n
    if e.filtA.slots = 0 && e.filtB.slots = 0 && e.filtI.slots = 0 then s
    else s.encSlot n e.filtA.pin e.filtB.pin e.filtI.pin) s

/-- A write to a register of a PWM or encoder whose en the field f of word a holds: while it is 1 only one that clears it
(R398). -/
def writeIdle (a : Nat) (f : Fld) (ok : Bool) (v : Word) : WriteEff := fun s =>
  if (s.bit a f && f.get v = 1) || !ok then (.slverr, s) else (.ok, s.plainWrite a v)

/-- A write to another register of such a unit (R398). -/
def writeWhenOff (cfg : Nat) (f : Fld) (e : State → State) : WriteEff := fun s =>
  if s.bit cfg f then (.slverr, s) else (.ok, e s)

/-- A write to BEL_ENC_COUNT(n) (R389, R398). -/
def writeEncCount (n : Nat) (v : Word) : WriteEff :=
  writeWhenOff (BEL_ENC_CFG n) BEL_ENC_CFG_en fun s => s.setReg (BEL_ENC_COUNT n) v

/-- ENC_COUNT_WRITE (R389): a load of the count. -/
def execEncCountWrite (m : Mid) (n : Fin 16) (v : Word) (s : State) : Host.Outcome State Fault Refusal :=
  s.run fun s => s.writeReg m.val (BEL_ENC_COUNT n.val) v (writeEncCount n.val v)

/-- Select j of master c is enabled. -/
def State.spiSelOn (s : State) (c j : Nat) : Bool := s.bit (BEL_SPI_SEL c j) BEL_SPI_SEL_en

/-- SPI_TRANSFER_START (R391): an idle master starts its next transfer, with the low len bits of its word. The transfer of a
disabled select waits. -/
def execSpiTransferStart (c : Fin 4) (s : State) : Host.Outcome State Fault Refusal :=
  s.runXo fun s =>
    let c := c.val
    let p := s.spi c
    if !s.bit (BEL_SPI_CTRL c) BEL_SPI_CTRL_en || p.busy.isSome then s
    else match p.queue.find? fun x => s.spiSelOn c x.1 with
      | none => s
      | some (j, w) =>
        let len := s.fld (BEL_SPI_SEL c j) BEL_SPI_SEL_len + 1
        (s.modSpi c fun p => { p with
          queue := p.queue.eraseP fun x => s.spiSelOn c x.1
          busy := some (j, w), sent := p.sent ++ [(j, BitVec.ofNat 32 (w.toNat % 2 ^ len))] }).spiShow c

/-- SPI_TRANSFER_COMPLETE (R391): the transfer in progress ends with the bits sampled on MISO. -/
def execSpiTransferComplete (c : Fin 4) (miso : Word) (s : State) : Host.Outcome State Fault Refusal :=
  s.runXo fun s =>
    let c := c.val
    match (s.spi c).busy with
    | none => s
    | some (j, _) =>
      let sel := BEL_SPI_SEL c j
      let len := s.fld sel BEL_SPI_SEL_len + 1
      let w : Word := if s.bit sel BEL_SPI_SEL_sx then BitVec.ofInt 32 (signed len miso.toNat)
        else BitVec.ofNat 32 (miso.toNat % 2 ^ len)
      (s.modSpi c fun p => { p with busy := none, rx := tabSet zeroWord p.rx j w }).spiShow c

/-- The inbound mailboxes that take a channel tag: lane and number. -/
def State.mboxesOf (s : State) (tag : Nat) : List (Nat × Nat) :=
  ((List.range 8).flatMap fun l => (List.range 4).map fun i => (l, i)).filter fun x =>
    s.bit (BEL_LANE_MBOX x.1 x.2) BEL_LANE_MBOX_en && s.fld (BEL_LANE_MBOX x.1 x.2) BEL_LANE_MBOX_tag = tag

/-- A payload overwrites a mailbox (R392). -/
def State.mboxPut (v : Word) (s : State) (x : Nat × Nat) : State :=
  let old := (tabGet mboxDefault (s.lane x.1).mbox x.2).2
  let s1 := s.modLane x.1 fun o => { o with mbox := tabSet mboxDefault o.mbox x.2 (v, true) }
  if old then s1.belSum BEL_SUM_mbox_ovw x.1 else s1

/-- A token reaches the Bellows station (R392). -/
def State.belToken (s : State) (t : Token) : State :=
  let boxes := if t.kind = .event then s.mboxesOf t.ctag else []
  if boxes = [] then s.stationCount belStation .unmapped else boxes.foldl (State.mboxPut t.payload) s

/-- MBOX_DELIVERY (R392): the oldest token at the Bellows station is an EVENT token that a mailbox takes. -/
def execMboxDelivery (s : State) : Host.Outcome State Fault Refusal :=
  s.run fun s => match s.inboxOf belStation with
    | [] => s
    | t :: rest =>
      if t.kind = .event && s.mboxesOf t.ctag != [] then (s.setInbox belStation rest).belToken t else s

/-! ### Registers (R398) -/

/-- Where a MID's keep access to a lane is kept. -/
def keepKey (mid l : Nat) : Nat := mid * 8 + l

/-- A write to BEL_LANE_KHI (R398): the staged keep is applied. -/
def writeKhi (mid l : Nat) (v : Word) : WriteEff := accept fun s =>
  let k := keepKey mid l
  let low := (tabGet zeroWord s.bel.kstage k).toNat
  s.modLane l fun o => o.setKeep (tabGet zeroNat s.bel.ksel k) (BitVec.ofNat 40 (low + v.toNat % 2 ^ 8 * 2 ^ 32))

/-- KEEP_WRITE (R398). -/
def execKeepWrite (m : Mid) (l : LaneId) (v : Word) (s : State) : Host.Outcome State Fault Refusal :=
  s.run fun s => s.writeReg m.val (BEL_LANE_KHI l.val) v (writeKhi m.val l.val v)

/-- A write to BEL_PWM_CFG (R390, R398). -/
def writePwmCfg (n : Nat) (v : Word) : WriteEff := fun s =>
  let a := BEL_PWM_CFG n
  let on := s.bit a BEL_PWM_CFG_en
  let en := BEL_PWM_CFG_en.get v = 1
  if (on && en) || (n % 2 = 1 && BEL_PWM_CFG_pair.get v = 1) then (.slverr, s)
  else
    let s1 := s.plainWrite a v
    (.ok, if en then s1.setPwm n { s.pwm n with start := s.slot, deadEnd := 0 } else s1)

/-- A write to a loop's registers (R385, R398). DEDUCED, log entry 101. -/
def writeLoopReg (r k : Nat) (v : Word) : WriteEff := fun s =>
  let a := BEL_LOOP_CFG r + 4 * k
  if s.laneRuns (r / 32) && k < 2 then (.slverr, s)
  else if k = 1 && s.fld (BEL_LOOP_CFG r) BEL_LOOP_CFG_div < BEL_LOOP_PHASE_phase.get v then (.slverr, s)
  else (.ok, s.plainWrite a v)

/-- A write to a data-word pair or a program word (R398). -/
def belRamWrite (off : Nat) (v : Word) : WriteEff := fun s =>
  if off < 0x8000 then
    let l := (off - 0x4000) / 0x800
    let k := off % 0x800 / 4 * 2
    (.ok, s.modLane l fun o => (o.setData k (v.truncate 16)).setData (k + 1) (BitVec.ofNat 16 (v.toNat / 2 ^ 16)))
  else
    let l := (off - 0x8000) / 0x1000
    let k := off % 0x1000 / 4
    if s.laneRuns l then (.slverr, s)
    else (.ok, s.modLane l fun o => { o with prog := tabSet zeroWord o.prog k v, progBad := tabSet falseAt o.progBad k false })

/-- A read of a data-word pair or a program word; one with a parity error completes with ECC (R398). -/
def belRamRead (off : Nat) (s : State) : Resp × Word × State :=
  if off < 0x8000 then
    let o := s.lane ((off - 0x4000) / 0x800)
    let k := off % 0x800 / 4 * 2
    if tabGet falseAt o.dataBad k || tabGet falseAt o.dataBad (k + 1) then (.ecc, 0, s)
    else (.ok, BitVec.ofNat 32 ((tabGet zero16 o.data k).toNat + (tabGet zero16 o.data (k + 1)).toNat * 2 ^ 16), s)
  else
    let o := s.lane ((off - 0x8000) / 0x1000)
    let k := off % 0x1000 / 4
    if tabGet falseAt o.progBad k then (.ecc, 0, s) else (.ok, tabGet zeroWord o.prog k, s)

abbrev belBase : Nat := 0x020E0000

/-- A write to the registers of a lane. -/
def belLaneWrite (mid : Nat) (l : LaneId) (off : Nat) (v : Word) : WriteEff :=
  let a := BEL_LANE_CTRL l.val + off
  if off = 0 then writeLaneCtrl l.val v
  else if off = 0x40 then accept fun s =>
    { s with bel := { s.bel with ksel := tabSet zeroNat s.bel.ksel (keepKey mid l.val) (v.toNat % 128) } }
  else if off = 0x44 then accept fun s =>
    { s with bel := { s.bel with kstage := tabSet zeroWord s.bel.kstage (keepKey mid l.val) v } }
  else if off = 0x48 then writeKhi mid l.val v
  else if off = 0x50 then writeBelDbg l v
  else if off = 0x5C then writeBelDbgData l.val v
  else accept fun s => s.plainWrite a v

/-- A write to a register of the Bellows. -/
def belWrite (mid a : Nat) (v : Word) : WriteEff :=
  let off := a - belBase
  let plain (s : State) : State := s.plainWrite a v
  if 0x4000 ≤ off then belRamWrite off v
  else if 0x2000 ≤ off ∧ off < 0x3000 then writeLoopReg ((off - 0x2000) / 16) (off % 16 / 4) v
  else if 0x1000 ≤ off ∧ off < 0x1800 then belLaneWrite mid (Fin.ofNat 8 ((off - 0x1000) / 0x100)) (off % 0x100) v
  else if 0x400 ≤ off ∧ off < 0x600 then
    let n := (off - 0x400) / 16
    if off % 16 = 0 then writePwmCfg n v
    else if off % 16 = 4 ∧ BEL_PWM_PERIOD_period.get v = 0 then fun s => (.slverr, s)
    else if off % 16 = 12 then accept plain
    else writeWhenOff (BEL_PWM_CFG n) BEL_PWM_CFG_en plain
  else if 0x600 ≤ off ∧ off < 0x700 then
    let n := (off - 0x600) / 16
    if off % 16 = 0 then writeIdle (BEL_ENC_CFG n) BEL_ENC_CFG_en (BEL_ENC_CFG_decode.get v != 3) v
    else if off % 16 = 4 then writeEncCount n v
    else writeWhenOff (BEL_ENC_CFG n) BEL_ENC_CFG_en plain
  else if 0x700 ≤ off ∧ off < 0x800 ∧ 0x20 ≤ off % 0x40 then
    writeIdle a BEL_SPI_SEL_en (7 ≤ BEL_SPI_SEL_len.get v && 2 ≤ BEL_SPI_SEL_div.get v) v
  else accept plain

/-- A read of a register of the Bellows that is not held as a word. -/
def State.belRead (s : State) (mid a : Nat) : Option (Resp × Word × State) :=
  let off := a - belBase
  if 0x4000 ≤ off then some (belRamRead off s)
  else if 0x1000 ≤ off ∧ off < 0x1800 then
    let l := (off - 0x1000) / 0x100
    let k := keepKey mid l
    let o := s.lane l
    let sel := tabGet zeroNat s.bel.ksel k
    match off % 0x100 with
    | 0x40 => some (.ok, BitVec.ofNat 32 sel, s)
    | 0x44 =>
      if tabGet falseAt o.keepBad sel then some (.ecc, 0, s)
      else
        let v := tabGet zero40 o.keep sel
        some (.ok, v.truncate 32, { s with bel := { s.bel with kshadow := tabSet zero40 s.bel.kshadow k v } })
    | 0x48 => some (.ok, BitVec.ofNat 32 ((tabGet zero40 s.bel.kshadow k).toNat / 2 ^ 32), s)
    | 0x5C => some (readBelDbgData l s)
    | _ => none
  else none

/-- System reset and every exit from RUN (R397): each lane halts and every PWM output goes inactive. -/
def State.belHaltAll (s : State) : State :=
  let s1 := (List.range 8).foldl (fun t l => if t.laneRuns l then t.laneHalt l else t) s
  (List.range 32).foldl State.pwmKill s1

/-- The RAMs of a lane zeroed with valid parity (R397). -/
def Lane.cleared (o : Lane) : Lane :=
  { o with prog := [], data := [], keep := [], progBad := [], dataBad := [], keepBad := [] }

end Sys2Proof.Machine
end

