-- ==== Sys2Proof/Machine/Mac.lean ====
section
/-! DEFINITION. The Hearth's MAC group (R270 to R272). -/

namespace Sys2Proof.Machine

/-- P(s, t): the exact signed product, doubled with f (R270). -/
def macProd (a b : Word) (f : Bool) : Int := sint a * sint b * (if f then 2 else 1)

/-- A value limited to the A80 range. -/
def sat80 (x : Int) : BitVec 80 := BitVec.ofInt 80 (clampInt 80 x)

/-- The value lies outside the A80 range. -/
def over80 (x : Int) : Bool := decide (clampInt 80 x ≠ x)

/-- A MAC-group instruction that writes accumulators: a read by MOVA, MOVAR or MOVAS in the next step sees the values
from before it (R235). -/
def State.modAcc (s : State) (n : Nat) (f : Hearth → Hearth) : State :=
  s.modHearth n fun h => { f h with accOld := some h.acc }

/-- Writes a saturated result to one accumulator; sat records the saturation (R270). -/
def State.putAcc (s : State) (n : Nat) (x : AccNo) (v : Int) : State :=
  (s.modAcc n fun h => h.setA x.val (sat80 v)).modStat n fun t => t.stickSat (over80 v)

/-- Writes two accumulators in one step. -/
def State.putAcc2 (s : State) (n x : Nat) (v w : Int) : State :=
  (s.modAcc n fun h => (h.setA (x % 4) (sat80 v)).setA ((x + 1) % 4) (sat80 w)).modStat n
    fun t => t.stickSat (over80 v || over80 w)

/-- The pair partner of an even register: g1 for g0 (R271). -/
def pairOf (r : GReg) : Nat := r.val + 1

/-- The pair forms of MACX and MACD: x is 0 or 2, and rs and rt are even (R271). -/
def macPairOk (x : AccNo) (rs rt : GReg) : Bool := x.val % 2 = 0 && rs.val % 2 = 0 && rt.val % 2 = 0

/-- Part of an accumulator as MOVA reads it (R272). -/
def accPart (a : BitVec 80) (part : Nat) : Word :=
  if part = 0 then a.extractLsb' 32 32
  else if part = 1 then a.extractLsb' 0 32
  else (a.extractLsb' 64 16).signExtend 32

/-- An accumulator with one part replaced (R272). -/
def setAccPart (a : BitVec 80) (part : Nat) (v : Word) : BitVec 80 :=
  if part = 0 then a.extractLsb' 64 16 ++ v ++ a.extractLsb' 0 32
  else if part = 1 then a.extractLsb' 32 48 ++ v
  else v.extractLsb' 0 16 ++ a.extractLsb' 0 64

/-- The shift of SHA: ax × 2^k, right shifts arithmetic and truncating (R270). -/
def shaValue (a : BitVec 80) (k : Int) : Int :=
  if 0 ≤ k then a.toInt * (2 ^ k.toNat : Nat) else a.toInt / (2 ^ (-k).toNat : Nat)

def doMac (h : HearthId) (x : AccNo) (rs rt : GReg) (f : Bool) (s : State) : State :=
  s.hPlain h.val (.mac h x rs rt f) fun o s =>
    .ok (s.putAcc h.val x ((o.getA x.val).toInt + macProd (o.getG rs.val) (o.getG rt.val) f))

/-- MAC (R270). -/
def execMac (h : HearthId) (x : AccNo) (rs rt : GReg) (f : Bool) (s : State) : Host.Outcome State Fault Refusal :=
  s.run (doMac h x rs rt f)

def doMsu (h : HearthId) (x : AccNo) (rs rt : GReg) (f : Bool) (s : State) : State :=
  s.hPlain h.val (.msu h x rs rt f) fun o s =>
    .ok (s.putAcc h.val x ((o.getA x.val).toInt - macProd (o.getG rs.val) (o.getG rt.val) f))

/-- MSU (R270). -/
def execMsu (h : HearthId) (x : AccNo) (rs rt : GReg) (f : Bool) (s : State) : Host.Outcome State Fault Refusal :=
  s.run (doMsu h x rs rt f)

def doMul (h : HearthId) (x : AccNo) (rs rt : GReg) (f : Bool) (s : State) : State :=
  s.hPlain h.val (.mul h x rs rt f) fun o s =>
    .ok (s.modAcc h.val fun t => t.setA x.val (BitVec.ofInt 80 (macProd (o.getG rs.val) (o.getG rt.val) f)))

/-- MUL (R270). -/
def execMul (h : HearthId) (x : AccNo) (rs rt : GReg) (f : Bool) (s : State) : Host.Outcome State Fault Refusal :=
  s.run (doMul h x rs rt f)

def doMacx (h : HearthId) (x : AccNo) (rs rt : GReg) (f : Bool) (s : State) : State :=
  s.hInstr h.val (.macx h x rs rt f) (macPairOk x rs rt) false false fun o s =>
    .ok (s.putAcc2 h.val x.val
      ((o.getA x.val).toInt + macProd (o.getG rs.val) (o.getG (pairOf rt)) f)
      ((o.getA (x.val + 1)).toInt + macProd (o.getG (pairOf rs)) (o.getG rt.val) f))

/-- MACX (R270, R271). -/
def execMacx (h : HearthId) (x : AccNo) (rs rt : GReg) (f : Bool) (s : State) : Host.Outcome State Fault Refusal :=
  s.run (doMacx h x rs rt f)

def doMacd (h : HearthId) (x : AccNo) (rs rt : GReg) (f : Bool) (s : State) : State :=
  s.hInstr h.val (.macd h x rs rt f) (macPairOk x rs rt) false false fun o s =>
    .ok (s.putAcc2 h.val x.val
      ((o.getA x.val).toInt + macProd (o.getG rs.val) (o.getG rt.val) f)
      ((o.getA (x.val + 1)).toInt + macProd (o.getG (pairOf rs)) (o.getG (pairOf rt)) f))

/-- MACD (R270, R271). -/
def execMacd (h : HearthId) (x : AccNo) (rs rt : GReg) (f : Bool) (s : State) : Host.Outcome State Fault Refusal :=
  s.run (doMacd h x rs rt f)

def doClra (h : HearthId) (mask : BitVec 4) (s : State) : State :=
  s.hPlain h.val (.clra h mask) fun _ s =>
    .ok (s.modAcc h.val fun t =>
      (List.range 4).foldl (fun t j => if bitOf mask.toNat j then t.setA j 0 else t) t)

/-- CLRA (R270). -/
def execClra (h : HearthId) (mask : BitVec 4) (s : State) : Host.Outcome State Fault Refusal := s.run (doClra h mask)

/-- Part 3 of MOVA is reserved (R272). -/
def movaOk : MovaForm → Bool
  | .read _ _ p => p.val != 3
  | .write _ _ p => p.val != 3

def doMova (h : HearthId) (f : MovaForm) (s : State) : State :=
  s.hInstr h.val (.mova h f) (movaOk f) false false fun o s =>
    match f with
    | .read rd x p => .ok (s.wrG h.val rd (accPart (o.seeA x.val) p.val))
    | .write x rs p => .ok (s.modAcc h.val fun t => t.setA x.val (setAccPart (t.getA x.val) p.val (o.getG rs.val)))

/-- MOVA (R272). -/
def execMova (h : HearthId) (f : MovaForm) (s : State) : Host.Outcome State Fault Refusal := s.run (doMova h f)

/-- A read of an accumulator saturated to 32 bits; sat records the saturation (R270, R272). -/
def opReadAcc (n : Nat) (s : State) (rd : GReg) (v : Int) : HRes :=
  .ok ((s.wrG n rd (if fits32 v then BitVec.ofInt 32 v else sat32 v)).modStat n fun t => t.stickSat (!fits32 v))

def doMovar (h : HearthId) (rd : GReg) (x : AccNo) (s : State) : State :=
  s.hPlain h.val (.movar h rd x) fun o s => opReadAcc h.val s rd (((o.seeA x.val).toInt + 2 ^ 31) / 2 ^ 32)

/-- MOVAR (R272). -/
def execMovar (h : HearthId) (rd : GReg) (x : AccNo) (s : State) : Host.Outcome State Fault Refusal :=
  s.run (doMovar h rd x)

def doMovas (h : HearthId) (rd : GReg) (x : AccNo) (s : State) : State :=
  s.hPlain h.val (.movas h rd x) fun o s => opReadAcc h.val s rd ((o.seeA x.val).toInt / 2 ^ 32)

/-- MOVAS (R272). -/
def execMovas (h : HearthId) (rd : GReg) (x : AccNo) (s : State) : Host.Outcome State Fault Refusal :=
  s.run (doMovas h rd x)

def doSha (h : HearthId) (x : AccNo) (k : BitVec 5) (s : State) : State :=
  s.hPlain h.val (.sha h x k) fun o s => .ok (s.putAcc h.val x (shaValue (o.getA x.val) k.toInt))

/-- SHA (R270). -/
def execSha (h : HearthId) (x : AccNo) (k : BitVec 5) (s : State) : Host.Outcome State Fault Refusal :=
  s.run (doSha h x k)

def doAdda (h : HearthId) (x y : AccNo) (neg : Bool) (s : State) : State :=
  s.hPlain h.val (.adda h x y neg) fun o s =>
    let b := (o.getA y.val).toInt
    .ok (s.putAcc h.val x ((o.getA x.val).toInt + (if neg then -b else b)))

/-- ADDA (R270). -/
def execAdda (h : HearthId) (x y : AccNo) (neg : Bool) (s : State) : Host.Outcome State Fault Refusal :=
  s.run (doAdda h x y neg)

end Sys2Proof.Machine
end

