-- ==== Sys2Proof/Machine/Params.lean ====
section
/-! DEFINITION. Pending parameter slots and the swap (08 R252 to R255). -/

namespace Sys2Proof.Machine

def Hearth.slot (h : Hearth) (i : Nat) : Slot := tabGet slotDefault h.slots i

def Hearth.setSlot (h : Hearth) (i : Nat) (v : Slot) : Hearth := { h with slots := tabSet slotDefault h.slots i v }

/-- Changes every slot. -/
def Hearth.mapSlots (h : Hearth) (f : Nat → Slot → Slot) : Hearth := { h with slots := tabMap slotDefault f h.slots }

/-- A zc-pending slot takes active := shadow. -/
def Slot.applyZc (v : Slot) : Slot := if v.zcPend then { v with act := v.sh, zcPend := false } else v

/-- Some slot is zc-pending. -/
def Hearth.zcWait (h : Hearth) : Bool := h.slots.any fun e => (h.slot e.1).zcPend

/-- Every zc-pending slot takes active := shadow. -/
def Hearth.applyAllZc (h : Hearth) : Hearth := h.mapSlots fun _ v => v.applyZc

/-- What the swap does to a slot (R253). -/
def Slot.swap (v : Slot) : Slot :=
  if v.changed then
    if v.zc then { v with changed := false, zcPend := true } else { v with act := v.sh, changed := false }
  else v

/-- The swap makes some slot zc-pending. -/
def Hearth.swapsZc (h : Hearth) : Bool := h.slots.any fun e => (h.slot e.1).changed && (h.slot e.1).zc

/-- The swap of R253 at tag t, armed with a window in Ts. -/
def State.swapSlots (s : State) (n t late window : Nat) : State :=
  let s1 := s.modHearth n fun h =>
    let z := h.swapsZc
    { (h.mapSlots fun _ v => v.swap) with
      armed := none, zcLeft := if z then window else h.zcLeft, zcDue := if z then false else h.zcDue }
  let s2 := ((s1.setFld (HRT_PARAM_LAST n) HRT_PARAM_LAST_tag t).setFld (HRT_PARAM_LAST n) HRT_PARAM_LAST_lateness late)
  (s2.setFld (HRT_PARAM_STAT n) HRT_PARAM_STAT_swapped 1).setFldIf (late != 0) (HRT_PARAM_STAT n) HRT_PARAM_STAT_late 1

/-- A window that has expired applies every slot still zc-pending (R254). -/
def State.zcExpire (s : State) (n : Nat) : State :=
  s.modHearth n fun h => if h.zcDue then { h.applyAllZc with zcDue := false } else h

/-- A consumption point at tag t (R253, R254): an expired window first, then the swap that is armed for it. -/
def State.consume (s : State) (n t : Nat) : State :=
  let s1 := s.zcExpire n
  match (s1.hearth n).armed with
  | none => s1
  | some (k, window) =>
    let late := (t + 256 - k % 256) % 256
    if late < 128 then s1.swapSlots n t late window else s1

/-- VALUE or VALUE_ZC for slot i (R252, R255). -/
def State.slotValue (s : State) (n i : Nat) (v : Word) (zc : Bool) : State :=
  let o := (s.hearth n).slot i
  let s1 := s.modHearth n fun h => h.setSlot i { o.applyZc with sh := v, changed := true, zc := zc }
  s1.setFldIf o.zcPend (HRT_PARAM_STAT n) HRT_PARAM_STAT_forced 1

/-- Takes the oldest PARAM token of Hearth n when it carries a sub-code. -/
def State.takeParam (s : State) (n sub : Nat) (f : State → Token → State) : State :=
  match (s.hearth n).paramIn with
  | [] => s
  | t :: rest => if t.ctag / 256 = sub then f (s.modHearth n fun h => { h with paramIn := rest }) t else s

/-- PARAM_VALUE (R252). -/
def execParamValue (h : HearthId) (s : State) : Host.Outcome State Fault Refusal :=
  s.run fun s => s.takeParam h.val 0 fun s t => s.slotValue h.val t.stag t.payload false

/-- PARAM_VALUE_ZC (R252). -/
def execParamValueZc (h : HearthId) (s : State) : Host.Outcome State Fault Refusal :=
  s.run fun s => s.takeParam h.val 1 fun s t => s.slotValue h.val t.stag t.payload true

/-- PARAM_ARM (R252): an ARM that finds a swap armed replaces it. -/
def execParamArm (h : HearthId) (s : State) : Host.Outcome State Fault Refusal :=
  s.run fun s => s.takeParam h.val 2 fun s t =>
    let p := t.payload.toNat
    (s.modHearth h.val fun o => { o with armed := some (p % 256, p / 256 % 4096 + 1) }).setFldIf
      (s.hearth h.val).armed.isSome (HRT_PARAM_STAT h.val) HRT_PARAM_STAT_rearm 1

/-- PARAM_CANCEL (R252). -/
def execParamCancel (h : HearthId) (s : State) : Host.Outcome State Fault Refusal :=
  s.run fun s => s.takeParam h.val 3 fun s _ => s.modHearth h.val fun o => { o with armed := none }

/-- ZC_WINDOW_EXPIRY (R254): the window has run for its length, and the slots still zc-pending apply at the next
consumption point. -/
def execZcWindowExpiry (h : HearthId) (s : State) : Host.Outcome State Fault Refusal :=
  s.run fun s => s.modHearth h.val fun o => if o.zcWait && o.zcLeft = 0 then { o with zcDue := true } else o

/-- A Rally instant counts the window, whether or not a slot is still zc-pending (R253, R254). -/
def Hearth.zcTick (h : Hearth) : Hearth := { h with zcLeft := h.zcLeft - 1 }

/-- SLOT_SHADOW_WRITE (R255): a write to HRT_SLOT_SH(i) acts as a VALUE. -/
def execSlotShadowWrite (m : Mid) (h : HearthId) (i : Fin 256) (v : Word) (s : State) :
    Host.Outcome State Fault Refusal :=
  s.run fun s => s.writeReg m.val (HRT_SLOT_SH h.val i.val) v (accept fun s => s.slotValue h.val i.val v false)

/-- A zero crossing of group g for a sign (R254): every zc-pending slot of the group applies. -/
def Hearth.applyGroup (h : Hearth) (g : Nat) : Hearth := h.mapSlots fun i v => if i / 16 = g then v.applyZc else v

/-- The effect of ZAPPLY on the slots and the stored sign (R254). -/
def Hearth.zapply (h : Hearth) (g : Nat) (v : Word) : Hearth :=
  let cross := v = 0 || v.msb != tabGet falseAt h.zcSign g
  { (if cross then h.applyGroup g else h) with zcSign := tabSet falseAt h.zcSign g v.msb }

def doZapply (h : HearthId) (rs : GReg) (g : Fin 16) (s : State) : State :=
  s.hPlain h.val (.zapply h rs g) fun o s => .ok (s.modHearth h.val fun t => t.zapply g.val (o.getG rs.val))

/-- ZAPPLY (R254, R294). -/
def execZapply (h : HearthId) (rs : GReg) (g : Fin 16) (s : State) : Host.Outcome State Fault Refusal :=
  s.run (doZapply h rs g)

end Sys2Proof.Machine
end

