-- ==== Sys2Proof/Machine/Control.lean ====
section
/-! DEFINITION. The Hearth's control instructions (R279 to R285, R245, R246, R241). -/

namespace Sys2Proof.Machine

/-- A control instruction of R279. -/
def State.hControl (s : State) (n : Nat) (i : Instr) (op : Hearth → State → HRes) : State :=
  s.hInstr n i true true false op

/-- Pops the top loop entry, if there is one (R280). -/
def State.popLoop (s : State) (n : Nat) (p : Bool) : State :=
  if p then s.modHearth n fun h => { h with loops := h.loops.tail } else s

/-- A branch that is taken; q annuls the slot, p pops a loop entry (R236, R279, R280). -/
def opBranch (n : Nat) (s : State) (target : Nat) (q p : Bool) : HRes := .done (s.popLoop n p) (.branch target q) 1

def doB (h : HearthId) (q p : Bool) (target : Fin 4096) (s : State) : State :=
  s.hControl h.val (.b h q p target) fun _ s => opBranch h.val s target.val q p

/-- B (R279). -/
def execB (h : HearthId) (q p : Bool) (target : Fin 4096) (s : State) : Host.Outcome State Fault Refusal :=
  s.run (doB h q p target)

def doBc (h : HearthId) (q p : Bool) (c : Cond) (target : Fin 4096) (s : State) : State :=
  s.hControl h.val (.bc h q p c target) fun o s =>
    if condHolds c o.stat then opBranch h.val s target.val false p else .done s (.fallthrough q) 1

/-- BC (R263, R279). -/
def execBc (h : HearthId) (q p : Bool) (c : Cond) (target : Fin 4096) (s : State) : Host.Outcome State Fault Refusal :=
  s.run (doBc h q p c target)

/-- PC + 2, as BAL and CALL store it. -/
def Hearth.link (h : Hearth) : Word := BitVec.ofNat 32 ((h.pc + 2) % 4096)

def doBal (h : HearthId) (q p : Bool) (rd : GReg) (target : Fin 4096) (s : State) : State :=
  s.hControl h.val (.bal h q p rd target) fun o s => opBranch h.val (s.wrG h.val rd o.link) target.val q p

/-- BAL (R279). -/
def execBal (h : HearthId) (q p : Bool) (rd : GReg) (target : Fin 4096) (s : State) :
    Host.Outcome State Fault Refusal := s.run (doBal h q p rd target)

def doCall (h : HearthId) (q : Bool) (target : Fin 4096) (s : State) : State :=
  s.hControl h.val (.call h q target) fun o s =>
    if o.stat.wres = 5 then .trap s causeWOVF 0 0
    else opBranch h.val ((s.modStat h.val Stat.forward).wrG h.val 31 o.link) target.val q false

/-- CALL (R224, R281). -/
def execCall (h : HearthId) (q : Bool) (target : Fin 4096) (s : State) : Host.Outcome State Fault Refusal :=
  s.run (doCall h q target)

def doRet (h : HearthId) (q p : Bool) (s : State) : State :=
  s.hControl h.val (.ret h q p) fun o s =>
    if o.stat.wres = 1 then .trap s causeWUNF 0 0
    else opBranch h.val (s.modStat h.val Stat.backward) ((o.getG 31).toNat % 4096) q p

/-- RET (R224, R281). -/
def execRet (h : HearthId) (q p : Bool) (s : State) : Host.Outcome State Fault Refusal := s.run (doRet h q p)

def doJmp (h : HearthId) (q p : Bool) (rs : GReg) (s : State) : State :=
  s.hControl h.val (.jmp h q p rs) fun o s => opBranch h.val s ((o.getG rs.val).toNat % 4096) q p

/-- JMP (R279). -/
def execJmp (h : HearthId) (q p : Bool) (rs : GReg) (s : State) : Host.Outcome State Fault Refusal :=
  s.run (doJmp h q p rs)

/-- LOOP and LOOPI with a count (R242, R282). -/
def opLoop (n : Nat) (o : Hearth) (s : State) (count stop : Nat) : HRes :=
  if count = 0 then .done s (.jump (stop + 1) (stop + 2)) 1
  else if 4 ≤ o.loops.length then .trap s causeLOOPOVF 0 0
  else .done (s.modHearth n fun h =>
    { h with loops := ⟨o.npc, stop, count - 1, o.stat.trap, o.stat.frame⟩ :: h.loops }) (.jump o.npc (o.npc + 1)) 1

/-- The end lies after the LOOP or LOOPI; another end is a reserved encoding (R282). -/
def endAfter (s : State) (n stop : Nat) : Bool := decide ((s.hearth n).pc < stop)

def doLoop (h : HearthId) (rs : GReg) (stop : Fin 4096) (s : State) : State :=
  s.hInstr h.val (.loop h rs stop) (endAfter s h.val stop.val) true false fun o s =>
    opLoop h.val o s (o.getG rs.val).toNat stop.val

/-- LOOP (R242, R282). -/
def execLoop (h : HearthId) (rs : GReg) (stop : Fin 4096) (s : State) : Host.Outcome State Fault Refusal :=
  s.run (doLoop h rs stop)

def doLoopi (h : HearthId) (count stop : Fin 4096) (s : State) : State :=
  s.hInstr h.val (.loopi h count stop) (endAfter s h.val stop.val) true false fun o s =>
    opLoop h.val o s count.val stop.val

/-- LOOPI (R242, R282). -/
def execLoopi (h : HearthId) (count stop : Fin 4096) (s : State) : Host.Outcome State Fault Refusal :=
  s.run (doLoopi h count stop)

def doTrap (h : HearthId) (imm : BitVec 16) (s : State) : State :=
  s.hControl h.val (.trap h imm) fun _ s => .soft s (imm.zeroExtend 32)

/-- TRAP (R246). -/
def execTrap (h : HearthId) (imm : BitVec 16) (s : State) : Host.Outcome State Fault Refusal := s.run (doTrap h imm)

def doRett (h : HearthId) (s : State) : State :=
  s.hControl h.val (.rett h) fun o s =>
    if o.stat.trap then .done (s.modStat h.val fun t => t.restore o.xstat) (.jump o.xpc o.xnpc) 1
    else .trap s causeILLEGAL 0 0

/-- RETT (R246). -/
def execRett (h : HearthId) (s : State) : Host.Outcome State Fault Refusal := s.run (doRett h)

def doReti (h : HearthId) (s : State) : State :=
  s.hControl h.val (.reti h) fun o s =>
    if o.stat.trap then .trap s causeILLEGAL 0 0
    else if o.stat.wres = 1 then .trap s causeWUNF 0 0
    else .done (s.modStat h.val fun t => (t.restore o.sstat).backward) (.jump o.spc o.snpc) 1

/-- RETI (R224, R245). -/
def execReti (h : HearthId) (s : State) : Host.Outcome State Fault Refusal := s.run (doReti h)

/-- The Pace monitor of Hearth n is enabled in WAITS mode (R33). -/
def State.paceWaits (s : State) (n : Nat) : Bool := s.paceOn n && !s.bit (HRT_PACE_CTRL n) HRT_PACE_CTRL_mode

/-- WAITS returns for the sample k: the latch clears, the current tag and RALLY are set, and the swap takes place before
it retires (R21, R241, R253). -/
def State.waitsReturn (s : State) (n k : Nat) (rd : GReg) : State :=
  ((s.modHearth n fun h => { h with latch := none, ctag := k % 256, rally := BitVec.ofNat 32 k }).consume n (k % 256)).wrG
    n rd (BitVec.ofNat 32 k)

def doWaits (h : HearthId) (rd : GReg) (s : State) : State :=
  s.hPlain h.val (.waits h rd) fun o s =>
    let n := h.val
    let issue := o.stalled.isNone
    match o.latch with
    | some k =>
      if s.paceWaits n then .done ((if issue then s.paceOverrun n else s).waitsReturn n k rd) .seq 0
      else .done (s.waitsReturn n k rd) .seq 1
    | none => .stall (if issue && s.paceWaits n then (s.paceSteps n 1).paceEnd n else s)

/-- WAITS (R33, R241): a stalled WAITS returns by STALL_CLEAR after the next Rally instant. -/
def execWaits (h : HearthId) (rd : GReg) (s : State) : Host.Outcome State Fault Refusal := s.run (doWaits h rd)

def doFence (h : HearthId) (s : State) : State :=
  s.hPlain h.val (.fence h) fun o s => if o.sb = [] && s.drained h.val then .ok s else .stall s

/-- FENCE (R285): the store buffer has drained and every engine access of the Hearth has completed; an error that waits
traps first. -/
def execFence (h : HearthId) (s : State) : Host.Outcome State Fault Refusal := s.run (doFence h)

def doNop (h : HearthId) (s : State) : State := s.hPlain h.val (.nop h) fun _ s => .ok s

/-- NOP (R264). -/
def execNop (h : HearthId) (s : State) : Host.Outcome State Fault Refusal := s.run (doNop h)

end Sys2Proof.Machine
end

