-- ==== Sys2Proof/Machine/FlueInstr.lean ====
section
/-! DEFINITION. The Hearth's Flue instructions (R286 to R288). -/

namespace Sys2Proof.Machine

/-- A token enters the output queue as the instruction retires; a full queue or the gate of HRT_FENCE stalls it (R286). -/
def opSend (n : Nat) (s : State) (payload : Word) (stag ctag kind : Nat) : HRes :=
  if kind ≠ 0 ∧ kind ≠ 2 then .trap s causeKIND 0 0
  else if s.bit (HRT_FENCE n) HRT_FENCE_gate || decide (8 ≤ (s.hearth n).out.length) then .stall s
  else .ok (s.modHearth n fun h =>
    { h with out := h.out ++ [⟨if kind = 0 then .audio else .event, stag, ctag, payload⟩] })

def doSend (h : HearthId) (rs : GReg) (ctag : Fin 4096) (kind : Fin 16) (s : State) : State :=
  s.hPlain h.val (.send h rs ctag kind) fun o s => opSend h.val s (o.getG rs.val) o.ctag ctag.val kind.val

/-- SEND (R286). -/
def execSend (h : HearthId) (rs : GReg) (ctag : Fin 4096) (kind : Fin 16) (s : State) :
    Host.Outcome State Fault Refusal := s.run (doSend h rs ctag kind)

def doSendt (h : HearthId) (rs rt : GReg) (ctag : Fin 4096) (kind : Fin 16) (s : State) : State :=
  s.hPlain h.val (.sendt h rs rt ctag kind) fun o s =>
    opSend h.val s (o.getG rs.val) ((o.getG rt.val).toNat % 256) ctag.val kind.val

/-- SENDT (R286). -/
def execSendt (h : HearthId) (rs rt : GReg) (ctag : Fin 4096) (kind : Fin 16) (s : State) :
    Host.Outcome State Fault Refusal := s.run (doSendt h rs rt ctag kind)

/-- The meta word of a token (R287). -/
def metaWord (t : Token) : Word := BitVec.ofNat 32 (t.stag + t.ctag * 2 ^ 8 + kindCode t.kind * 2 ^ 20)

/-- The Pace monitor of Hearth n is enabled in QUEUE mode on queue q (R33). -/
def State.paceQueue (s : State) (n q : Nat) : Bool :=
  s.paceOn n && s.bit (HRT_PACE_CTRL n) HRT_PACE_CTRL_mode && s.fld (HRT_PACE_CTRL n) HRT_PACE_CTRL_queue = q

/-- Writes payload and meta word. -/
def State.putToken (s : State) (n : Nat) (rd rm : GReg) (t : Token) : State :=
  (s.wrG n rd t.payload).wrG n rm (metaWord t)

/-- RECV takes a token: an AUDIO token sets the current tag and makes the swap first (R21, R253, R287). -/
def State.recvToken (s : State) (n q : Nat) (rd rm : GReg) (t : Token) : State :=
  let s1 := s.modHearth n fun h => h.setQueue q (h.queue q).tail
  (if t.kind = .audio then (s1.modHearth n fun h => { h with ctag := t.stag }).consume n t.stag else s1).putToken n rd rm t

def doRecv (h : HearthId) (rd rm : GReg) (q : QueueNo) (s : State) : State :=
  s.hInstr h.val (.recv h rd rm q) (rd != rm || rd.val = 0) false false fun o s =>
    let n := h.val
    let issue := o.stalled.isNone
    match o.queue q.val with
    | t :: _ =>
      if s.paceQueue n q.val then .done ((if issue then s.paceOverrun n else s).recvToken n q.val rd rm t) .seq 0
      else .done (s.recvToken n q.val rd rm t) .seq 1
    | [] => .stall (if issue && s.paceQueue n q.val then (s.paceSteps n 1).paceEnd n else s)

/-- RECV (R33, R287). -/
def execRecv (h : HearthId) (rd rm : GReg) (q : QueueNo) (s : State) : Host.Outcome State Fault Refusal :=
  s.run (doRecv h rd rm q)

def doPeek (h : HearthId) (rd rm : GReg) (q : QueueNo) (w : Bool) (s : State) : State :=
  s.hInstr h.val (.peek h rd rm q w) (rd != rm || rd.val = 0) false false fun o s =>
    let n := h.val
    match o.queue q.val with
    | t :: _ => .ok ((s.putToken n rd rm t).modStat n fun st => { st with z := false })
    | [] =>
      if w then .stall s
      else .ok (((s.wrG n rd 0).wrG n rm 0).modStat n fun st => { st with z := true })

/-- PEEK (R287). -/
def execPeek (h : HearthId) (rd rm : GReg) (q : QueueNo) (w : Bool) (s : State) : Host.Outcome State Fault Refusal :=
  s.run (doPeek h rd rm q w)

/-- The fields of HRT_QSTAT: tokens held. -/
def Hearth.qstat (h : Hearth) : Word :=
  BitVec.ofNat 32 ((h.queue 0).length % 16 + (h.queue 1).length % 16 * 2 ^ 4 + (h.queue 2).length % 16 * 2 ^ 8 +
    (h.queue 3).length % 16 * 2 ^ 12 + h.out.length % 16 * 2 ^ 16)

def doQstat (h : HearthId) (rd : GReg) (s : State) : State :=
  s.hPlain h.val (.qstat h rd) fun o s => .ok (s.wrG h.val rd o.qstat)

/-- QSTAT (R287). -/
def execQstat (h : HearthId) (rd : GReg) (s : State) : Host.Outcome State Fault Refusal := s.run (doQstat h rd)

end Sys2Proof.Machine
end

