-- ==== Sys2Proof/Machine/SysInstr.lean ====
section
/-! DEFINITION. The Hearth's system registers (R228, R295) and the window actions WSTOW and WFETCH (R225). -/

namespace Sys2Proof.Machine

/-- HRT_IRQ_PEND: bit 0 follows the EVC target line (R244, R437). -/
def State.irqPend (s : State) (n : Nat) : Word :=
  HRT_IRQ_PEND_evc.set (s.reg (HRT_IRQ_PEND n)) (b2n (s.hearthLine n))

/-- ASF as it reads: dz, dom, busy. -/
def Hearth.asf (h : Hearth) : Word := BitVec.ofNat 32 (b2n h.dz + b2n h.dom * 2 + b2n h.assist.isSome * 4)

/-- The value of a system register, 0 to 23 (R228); a WO register reads 0. -/
def State.sysRead (s : State) (n nr : Nat) : Word :=
  let h := s.hearth n
  match nr with
  | 0 => h.statWord
  | 1 => BitVec.ofNat 32 h.spc
  | 2 => BitVec.ofNat 32 h.snpc
  | 3 => h.sstat
  | 4 => BitVec.ofNat 32 h.xpc
  | 5 => BitVec.ofNat 32 h.xnpc
  | 6 => h.xstat
  | 7 => BitVec.ofNat 32 h.xcause
  | 8 => h.xval
  | 9 => BitVec.ofNat 32 h.xinfo
  | 10 => BitVec.ofNat 32 (s.fld (HRT_VEC n) HRT_VEC_xbase)
  | 11 => BitVec.ofNat 32 (s.fld (HRT_VEC n) HRT_VEC_ibase)
  | 12 => BitVec.ofNat 32 h.spill
  | 13 => h.asr
  | 14 => h.asf
  | 15 => h.exp.signExtend 32
  | 16 => BitVec.ofNat 32 h.ctag
  | 17 => h.rally
  | 18 => s.irqPend n
  | 23 => BitVec.ofNat 32 (n + b2n (s.hearthSup n) * 2 ^ 8)
  | _ => 0

/-- The watchdog count restarts at 0 (R250). -/
def State.wdogKick (s : State) (n : Nat) : State := s.setFld (HRT_WDOG n) HRT_WDOG_count 0

/-- A write to a system register that has no action of its own; a write to an RO register is ignored (R228, R295). The
save sets hold 32 bits. -/
def State.sysWrite (s : State) (n nr : Nat) (v : Word) : State :=
  let w := v.toNat
  match nr with
  | 0 => s.modStat n fun t => t.writeSysw v
  | 1 => s.modHearth n fun h => { h with spc := w }
  | 2 => s.modHearth n fun h => { h with snpc := w }
  | 3 => s.modHearth n fun h => { h with sstat := v }
  | 4 => s.modHearth n fun h => { h with xpc := w }
  | 5 => s.modHearth n fun h => { h with xnpc := w }
  | 6 => s.modHearth n fun h => { h with xstat := v }
  | 10 => s.setFld (HRT_VEC n) HRT_VEC_xbase w
  | 11 => s.setFld (HRT_VEC n) HRT_VEC_ibase w
  | 12 => s.modHearth n fun h => { h with spill := w / 64 * 64 }
  | 13 => s.modHearth n fun h => { h with asr := v }
  | 14 => s.modHearth n fun h => { h with dz := bitOf w 0, dom := bitOf w 1 }
  | 15 => s.modHearth n fun h => { h with exp := v.extractLsb' 0 8 }
  | 18 => s.setReg (HRT_IRQ_PEND n) (s.reg (HRT_IRQ_PEND n) &&& ~~~(v &&& 0xFE))
  | 21 => s.raise (1 + n)
  | 22 => s.wdogKick n
  | _ => s

/-! ### WSTOW and WFETCH (R225) -/

/-- The place of register 16 + j of window w. -/
def winKey (w j : Nat) : Nat := 16 * w + 16 + j

/-- WSTOW: the oldest resident window goes to the spill area, directly to the RAM as each of its steps stores a word.
Stores still in the store buffer are older and drain first. -/
def opWstow (n : Nat) (o : Hearth) (s : State) : HRes :=
  if !o.stat.trap then .trap s causeILLEGAL 0 0
  else if o.stat.wres < 2 then .ok s
  else if s.fld (HRT_SPILL_LIM n) HRT_SPILL_LIM_hi < o.spill + 64 then .trap s causeSPILL 0 0
  else
    let w := (o.stat.wcur + 6 - o.stat.wres) % 5
    let put (h : Hearth) (j : Nat) : Hearth :=
      (h.ramPut (o.spill + 4 * j) 4 (tabGet zeroWord h.g (winKey w j)).toNat).setWordErr (o.spill + 4 * j) 0
    let s1 := (s.drainAll n).modHearth n fun h =>
      { (List.range 16).foldl put h with spill := o.spill + 64, stat := { h.stat with wres := h.stat.wres - 1 } }
    .done s1 .seq 16

/-- The 16 words of the spill area are checked as they are read (R231): false at an uncorrectable error. -/
def State.spillCheck (s : State) (n a : Nat) : Nat → Bool × State
  | 0 => (true, s)
  | k + 1 =>
    match s.ramCheck n a with
    | (true, s') => s'.spillCheck n (a + 4) k
    | (false, s') => (false, s')

/-- WFETCH: the window below the oldest resident one comes back from the spill area. One that would read beyond data RAM traps
as R229 says of an access outside it. DEDUCED, log entry 174. -/
def opWfetch (n : Nat) (o : Hearth) (s : State) : HRes :=
  if !o.stat.trap then .trap s causeILLEGAL 0 0
  else if 5 ≤ o.stat.wres then .ok s
  else if o.spill < s.fld (HRT_SPILL_LIM n) HRT_SPILL_LIM_lo + 64 then .trap s causeSPILL 0 0
  else if 0x8000 < o.spill then .trap s causeADDR (BitVec.ofNat 32 (o.spill - 64)) 0
  else
    let w := (o.stat.wcur + 5 - o.stat.wres) % 5
    let a := o.spill - 64
    match (s.drainAll n).spillCheck n a 16 with
    | (false, s') => .trap s' causeDECC (BitVec.ofNat 32 a) 0
    | (true, s') =>
      let get (h : Hearth) (j : Nat) : Hearth := h.setKey (winKey w j) (BitVec.ofNat 32 (h.ramBytes (a + 4 * j) 4))
      .done (s'.modHearth n fun h =>
        { (List.range 16).foldl get h with spill := a, stat := { h.stat with wres := h.stat.wres + 1 } }) .seq 16

def doWstow (h : HearthId) (s : State) : State := s.hPlain h.val (.wstow h) fun o s => opWstow h.val o s

/-- WSTOW (R225). -/
def execWstow (h : HearthId) (s : State) : Host.Outcome State Fault Refusal := s.run (doWstow h)

def doWfetch (h : HearthId) (s : State) : State := s.hPlain h.val (.wfetch h) fun o s => opWfetch h.val o s

/-- WFETCH (R225). -/
def execWfetch (h : HearthId) (s : State) : Host.Outcome State Fault Refusal := s.run (doWfetch h)

def doDoorbell (h : HearthId) (s : State) : State :=
  s.hPlain h.val (.doorbell h) fun _ s => .ok (s.sysWrite h.val 21 0)

/-- DOORBELL (R228). -/
def execDoorbell (h : HearthId) (s : State) : Host.Outcome State Fault Refusal := s.run (doDoorbell h)

def doWdkick (h : HearthId) (s : State) : State := s.hPlain h.val (.wdkick h) fun _ s => .ok (s.wdogKick h.val)

/-- WDKICK (R250). -/
def execWdkick (h : HearthId) (s : State) : Host.Outcome State Fault Refusal := s.run (doWdkick h)

/-- SYSR (R228, R290, R295) of a listed number: ASR and ASF wait until the Assist is idle. -/
def opSysr (n : Nat) (o : Hearth) (s : State) (rd : GReg) (nr : Nat) : HRes :=
  if (nr = 13 ∨ nr = 14) ∧ o.assist.isSome then .stall s
  else .ok (s.wrG n rd (s.sysRead n nr))

def doSysr (h : HearthId) (rd : GReg) (nr : Fin 32) (s : State) : State :=
  s.hInstr h.val (.sysr h rd nr) (decide (nr.val < 24)) false false fun o s => opSysr h.val o s rd nr.val

/-- SYSR (R228, R295). -/
def execSysr (h : HearthId) (rd : GReg) (nr : Fin 32) (s : State) : Host.Outcome State Fault Refusal :=
  s.run (doSysr h rd nr)

/-- SYSW (R228, R290, R295) of a listed number: XBASE and IBASE are for a SUPERVISOR. Numbers 19 and 20 are the actions of R225.
DEDUCED, log entry 12. -/
def opSysw (n : Nat) (o : Hearth) (s : State) (nr : Nat) (v : Word) : HRes :=
  if (nr = 10 ∨ nr = 11) ∧ s.hearthSup n = false then .trap s causePRIV 0 0
  else if (nr = 13 ∨ nr = 14) ∧ o.assist.isSome then .stall s
  else if nr = 19 then opWstow n o s
  else if nr = 20 then opWfetch n o s
  else .ok (s.sysWrite n nr v)

def doSysw (h : HearthId) (nr : Fin 32) (rs : GReg) (s : State) : State :=
  s.hInstr h.val (.sysw h nr rs) (decide (nr.val < 24)) false false fun o s => opSysw h.val o s nr.val (o.getG rs.val)

/-- SYSW (R228, R295). -/
def execSysw (h : HearthId) (nr : Fin 32) (rs : GReg) (s : State) : Host.Outcome State Fault Refusal :=
  s.run (doSysw h nr rs)

end Sys2Proof.Machine
end

