-- ==== Sys2Proof/Machine/Local.lean ====
section
/-! DEFINITION. The Hearth's local memory instructions (R273 to R275, R283) and the drain of the store buffer (R238). -/

namespace Sys2Proof.Machine

/-- A load's result is written at the end of the following step (R235, R274). A write to g0 is discarded. -/
def State.shadowLoad (s : State) (n : Nat) (rd : GReg) (v : Word) : State :=
  s.modHearth n fun h => { h with loadSh := if rd.val = 0 then none else some (gKey h.stat rd.val, v) }

/-- A local load of rd, and what follows it when it succeeds. -/
def opLoad (n : Nat) (s : State) (rd : GReg) (a : Word) (sz : LocSize) (u : Bool) (post : State → State) : HRes :=
  match s.localLoad n a.toNat sz true with
  | .value s' v =>
    .ok (((post s').shadowLoad n rd (extend sz u v)).watch n a.toNat (locBytes sz) false)
  | .stall => .stall s
  | .addr => .trap s causeADDR a 0
  | .decc s' => .trap s' causeDECC a 0

/-- A local store, and what follows it when it succeeds (R237, R275). -/
def opStore (n : Nat) (s : State) (v a : Word) (sz : LocSize) (post : State → State) : HRes :=
  if !localOk a.toNat sz false then .trap s causeADDR a 0
  else if 4 ≤ (s.hearth n).sb.length then .stall s
  else .ok (post (s.pushStore n a.toNat sz v))

def doLdb (h : HearthId) (rd ra : GReg) (off : BitVec 13) (u : Bool) (s : State) : State :=
  s.hPlain h.val (.ldb h rd ra off u) fun o s => opLoad h.val s rd (o.addrOf ra off) .b u id

/-- LDB (R273, R274). -/
def execLdb (h : HearthId) (rd ra : GReg) (off : BitVec 13) (u : Bool) (s : State) :
    Host.Outcome State Fault Refusal := s.run (doLdb h rd ra off u)

def doLdh (h : HearthId) (rd ra : GReg) (off : BitVec 13) (u : Bool) (s : State) : State :=
  s.hPlain h.val (.ldh h rd ra off u) fun o s => opLoad h.val s rd (o.addrOf ra off) .h u id

/-- LDH (R273, R274). -/
def execLdh (h : HearthId) (rd ra : GReg) (off : BitVec 13) (u : Bool) (s : State) :
    Host.Outcome State Fault Refusal := s.run (doLdh h rd ra off u)

def doLdw (h : HearthId) (rd ra : GReg) (off : BitVec 13) (s : State) : State :=
  s.hPlain h.val (.ldw h rd ra off) fun o s => opLoad h.val s rd (o.addrOf ra off) .w false id

/-- LDW (R273, R274). -/
def execLdw (h : HearthId) (rd ra : GReg) (off : BitVec 13) (s : State) : Host.Outcome State Fault Refusal :=
  s.run (doLdw h rd ra off)

def doStb (h : HearthId) (rd ra : GReg) (off : BitVec 13) (s : State) : State :=
  s.hPlain h.val (.stb h rd ra off) fun o s => opStore h.val s (o.getG rd.val) (o.addrOf ra off) .b id

/-- STB (R273, R275). -/
def execStb (h : HearthId) (rd ra : GReg) (off : BitVec 13) (s : State) : Host.Outcome State Fault Refusal :=
  s.run (doStb h rd ra off)

def doSth (h : HearthId) (rd ra : GReg) (off : BitVec 13) (s : State) : State :=
  s.hPlain h.val (.sth h rd ra off) fun o s => opStore h.val s (o.getG rd.val) (o.addrOf ra off) .h id

/-- STH (R273, R275). -/
def execSth (h : HearthId) (rd ra : GReg) (off : BitVec 13) (s : State) : Host.Outcome State Fault Refusal :=
  s.run (doSth h rd ra off)

def doStw (h : HearthId) (rd ra : GReg) (off : BitVec 13) (s : State) : State :=
  s.hPlain h.val (.stw h rd ra off) fun o s => opStore h.val s (o.getG rd.val) (o.addrOf ra off) .w id

/-- STW (R273, R275). -/
def execStw (h : HearthId) (rd ra : GReg) (off : BitVec 13) (s : State) : Host.Outcome State Fault Refusal :=
  s.run (doStw h rd ra off)

/-- pi is post-modified (R227). -/
def State.postMod (s : State) (n : Nat) (i : PtrNo) : State := s.modHearth n fun h => h.postP i.val

def doLdp (h : HearthId) (rd : GReg) (i : PtrNo) (sz : LocSize) (u : Bool) (s : State) : State :=
  s.hInstr h.val (.ldp h rd i sz u) (!(u && sz = .w)) false false fun o s =>
    opLoad h.val s rd (o.getP i.val) sz u fun s => s.postMod h.val i

/-- LDP (R273, R274). -/
def execLdp (h : HearthId) (rd : GReg) (i : PtrNo) (sz : LocSize) (u : Bool) (s : State) :
    Host.Outcome State Fault Refusal := s.run (doLdp h rd i sz u)

def doStp (h : HearthId) (rd : GReg) (i : PtrNo) (sz : LocSize) (s : State) : State :=
  s.hPlain h.val (.stp h rd i sz) fun o s =>
    opStore h.val s (o.getG rd.val) (o.getP i.val) sz fun s => s.postMod h.val i

/-- STP (R273, R275). -/
def execStp (h : HearthId) (rd : GReg) (i : PtrNo) (sz : LocSize) (s : State) : Host.Outcome State Fault Refusal :=
  s.run (doStp h rd i sz)

/-- STORE_DRAIN (R238): the store buffer drains its oldest entry. DEDUCED, log entry 16. -/
def execStoreDrain (h : HearthId) (s : State) : Host.Outcome State Fault Refusal := s.run fun s => s.drainOne h.val

/-! ### The loop image (R243, R283) -/

/-- Words 1 and 2 of an entry. -/
def loopWords (e : LoopEnt) : List Word :=
  [BitVec.ofNat 32 (e.start + e.stop * 2 ^ 12 + b2n e.trap * 2 ^ 24 + e.frame * 2 ^ 25), BitVec.ofNat 32 e.left]

/-- The 9 words of a loop image; the stack is held top first, and entry 0 is its bottom. -/
def loopImage (l : List LoopEnt) : List Word :=
  let w := BitVec.ofNat 32 l.length :: (l.reverse.map loopWords).flatten
  w ++ List.replicate (9 - w.length) 0

/-- An entry from its two words. -/
def loopEntry (a b : Word) : LoopEnt :=
  ⟨a.toNat % 4096, a.toNat / 2 ^ 12 % 4096, b.toNat, bitOf a.toNat 24, a.toNat / 2 ^ 25 % 16⟩

/-- The loop stack that an image holds, if its depth is at most 4. -/
def loopsOf (w : List Word) : Option (List LoopEnt) :=
  let d := (w.getD 0 0).toNat % 8
  if 4 < d then none
  else some ((List.range d).map fun e => loopEntry (w.getD (1 + 2 * e) 0) (w.getD (2 + 2 * e) 0)).reverse

/-- Values of pi before each of the 9 steps of PUSHL, and after them. -/
def pushAddrs (p m b l : Word) : Nat → List Word
  | 0 => [p]
  | k + 1 => p :: pushAddrs (Sys2Proof.Machine.postMod p m b l) m b l k

/-- Values of pi at each of the 9 loads of POPL, in the order of the loads. -/
def popAddrs (p m b l : Word) : Nat → List Word
  | 0 => []
  | k + 1 => preMod p m b l :: popAddrs (preMod p m b l) m b l k

/-- A store of PUSHL: in each of its steps no load uses the RAM, so a full buffer drains its oldest entry first. -/
def State.pushStep (n : Nat) (s : State) (e : Word × Word) : State :=
  (if 4 ≤ (s.hearth n).sb.length then s.drainOne n else s).pushStore n e.1.toNat .w e.2

def doPushl (h : HearthId) (i : PtrNo) (s : State) : State :=
  s.hPlain h.val (.pushl h i) fun o s =>
    let addrs := pushAddrs (o.getP i.val) (o.getP (8 + i.val)) (o.getP (16 + i.val)) (o.getP (24 + i.val)) 9
    match (addrs.take 9).find? fun a => !localOk a.toNat .w false with
    | some a => .trap s causeADDR a 0
    | none =>
      let s1 := ((addrs.take 9).zip (loopImage o.loops)).foldl (State.pushStep h.val) s
      .done (s1.modHearth h.val fun t => { t.setP i.val (addrs.getD 9 0) with loops := [] }) .seq 9

/-- PUSHL (R243, R283). -/
def execPushl (h : HearthId) (i : PtrNo) (s : State) : Host.Outcome State Fault Refusal := s.run (doPushl h i)

/-- What a row of word loads finds. -/
inductive LoadsAns where
  | values (s : State) (v : List Word)
  | stall
  | addr (s : State) (a : Word)
  | decc (s : State) (a : Word)

/-- Loads words at a list of addresses. -/
def State.loadWords (s : State) (n : Nat) : List Word → LoadsAns
  | [] => .values s []
  | a :: rest =>
    match s.localLoad n a.toNat .w false with
    | .value s' v =>
      (match (s'.watch n a.toNat 4 false).loadWords n rest with
       | .values s'' vs => .values s'' (BitVec.ofNat 32 v :: vs)
       | r => r)
    | .stall => .stall
    | .addr => .addr s a
    | .decc s' => .decc s' a

def doPopl (h : HearthId) (i : PtrNo) (s : State) : State :=
  s.hPlain h.val (.popl h i) fun o s =>
    let addrs := popAddrs (o.getP i.val) (o.getP (8 + i.val)) (o.getP (16 + i.val)) (o.getP (24 + i.val)) 9
    match addrs.find? fun a => !localOk a.toNat .w false with
    | some a => .trap s causeADDR a 0
    | none =>
      match s.loadWords h.val addrs with
      | .values s' v =>
        (match loopsOf v.reverse with
         | none => .trap s' causeLOOPOVF 0 0
         | some l => .done (s'.modHearth h.val fun t => { t.setP i.val (addrs.getD 8 0) with loops := l }) .seq 9)
      | .stall => .stall s
      | .addr s' a => .trap s' causeADDR a 0
      | .decc s' a => .trap s' causeDECC a 0

/-- POPL (R243, R283). -/
def execPopl (h : HearthId) (i : PtrNo) (s : State) : Host.Outcome State Fault Refusal := s.run (doPopl h i)

end Sys2Proof.Machine
end

