-- ==== Sys2Proof/Machine/Transform.lean ====
section
/-! DEFINITION. The Hearth's transform instructions (R291 to R293). -/

namespace Sys2Proof.Machine

/-- The smallest CLS of a list of words, and 31 for none. -/
def minCls (l : List Word) : Nat := l.foldl (fun m w => min m (clsOf w)) 31

def doBexp (h : HearthId) (rd : GReg) (i : PtrNo) (rt : GReg) (s : State) : State :=
  s.hPlain h.val (.bexp h rd i rt) fun o s =>
    let count := (o.getG rt.val).toNat
    if 1024 < count then .trap s causeILLEGAL 0 0
    else
      let addrs := pushAddrs (o.getP i.val) (o.getP (8 + i.val)) (o.getP (16 + i.val)) (o.getP (24 + i.val)) count
      match s.loadWords h.val (addrs.take count) with
      | .values s' v =>
        .done ((s'.modHearth h.val fun t => t.setP i.val (addrs.getD count 0)).wrG h.val rd
          (BitVec.ofNat 32 (minCls v))) .seq (1 + count)
      | .stall => .stall s
      | .addr s' a => .trap s' causeADDR a 0
      | .decc s' a => .trap s' causeDECC a 0

/-- BEXP (R291). -/
def execBexp (h : HearthId) (rd : GReg) (i : PtrNo) (rt : GReg) (s : State) : Host.Outcome State Fault Refusal :=
  s.run (doBexp h rd i rt)

/-- A component of A' or B': (a ± t) / 2^s rounded half-up to Q31, before saturation; a is Q31 and t has 62 fraction
bits (R292). -/
def bflyPart (a : Word) (t : Int) (s : Nat) : Int := (sint a * 2 ^ 31 + t + 2 ^ (30 + s)) / 2 ^ (31 + s)

/-- A BFLY pointer addresses a complex value in data RAM. -/
def bflyOk (a : Word) : Bool := a.toNat % 8 = 0 && a.toNat + 8 ≤ 0x8000

/-- Writes a complex value directly to the RAM. -/
def State.putComplex (s : State) (n a : Nat) (re im : Word) : State :=
  (s.modHearth n fun h =>
    (((h.ramPut a 4 re.toNat).ramPut (a + 4) 4 im.toNat).setWordErr a 0).setWordErr (a + 4) 0).watch n a 8 true

/-- The butterfly on values read, and the writes (R292). -/
def opBfly (n : Nat) (s : State) (pa pb pw : Nat) (a b : Nat) (k : Nat) (v : List Word) : State :=
  let ar := v.getD 0 0
  let ai := v.getD 1 0
  let br := sint (v.getD 2 0)
  let bi := sint (v.getD 3 0)
  let wr := sint (v.getD 4 0)
  let wi := sint (v.getD 5 0)
  let tr := wr * br - wi * bi
  let ti := wr * bi + wi * br
  let r := [bflyPart ar tr k, bflyPart ai ti k, bflyPart ar (-tr) k, bflyPart ai (-ti) k]
  let w := fun i => let x := r.getD i 0; if fits32 x then BitVec.ofInt 32 x else sat32 x
  let s1 := (s.putComplex n a (w 0) (w 1)).putComplex n b (w 2) (w 3)
  (s1.modHearth n fun h => ((h.postP pa).postP pb).postP pw).modStat n fun t =>
    t.stickSat (r.any fun x => !fits32 x)

def doBfly (h : HearthId) (pa pb pw : PtrNo) (k : Fin 4) (s : State) : State :=
  s.hInstr h.val (.bfly h pa pb pw k) (pa != pb && k.val != 3) false false fun o s =>
    let a := o.getP pa.val
    let b := o.getP pb.val
    let w := o.getP pw.val
    match [a, b, w].find? fun x => !bflyOk x with
    | some x => .trap s causeADDR x 0
    | none =>
      if o.sb ≠ [] then .stall s
      else match s.loadWords h.val [a, a + 4, b, b + 4, w, w + 4] with
        | .values s' v => .done (opBfly h.val s' pa.val pb.val pw.val a.toNat b.toNat k.val v) .seq 10
        | .stall => .stall s
        | .addr s' x => .trap s' causeADDR x 0
        | .decc s' x => .trap s' causeDECC x 0

/-- BFLY (R292). -/
def execBfly (h : HearthId) (pa pb pw : PtrNo) (k : Fin 4) (s : State) : Host.Outcome State Fault Refusal :=
  s.run (doBfly h pa pb pw k)

/-- rs × 2^e before saturation: a left shift, or a right shift rounded half-up (R293). -/
def sclValue (a : Word) (e : Int) : Int :=
  if 0 ≤ e then sint a * (2 ^ e.toNat : Nat)
  else if e ≤ -32 then 0
  else (sint a + (2 ^ ((-e).toNat - 1) : Nat)) / (2 ^ (-e).toNat : Nat)

def doScl (h : HearthId) (rd rs : GReg) (k : BitVec 5) (s : State) : State :=
  s.hPlain h.val (.scl h rd rs k) fun o s =>
    let x := sclValue (o.getG rs.val) (o.exp.toInt + k.toInt)
    .ok ((s.wrG h.val rd (if fits32 x then BitVec.ofInt 32 x else sat32 x)).modStat h.val fun t => t.stickSat (!fits32 x))

/-- SCL (R293). -/
def execScl (h : HearthId) (rd rs : GReg) (k : BitVec 5) (s : State) : Host.Outcome State Fault Refusal :=
  s.run (doScl h rd rs k)

end Sys2Proof.Machine
end

