-- ==== Sys2Proof/Machine/HearthCtl.lean ====
section
/-! DEFINITION. Events of a Hearth outside its program, and its HRT registers (08 R244 to R260, 19 R517, R518). -/

namespace Sys2Proof.Machine

/-! ### Interrupts, imprecise traps, the watchdog -/

/-- An interrupt can be taken (R244): ie, no trap mode, and an enabled pending bit; during a debug step only while
step_irq is 1 (R517). -/
def State.irqReady (s : State) (n : Nat) : Bool :=
  let h := s.hearth n
  s.executes n && h.stat.ie && !h.stat.trap && (s.irqPend n &&& s.reg (HRT_IRQ_EN n)) != 0 &&
  (s.running n || s.bit (HRT_DBG_CTRL n) HRT_DBG_CTRL_step_irq)

/-- A stalled instruction that an interrupt or a halt abandons: SEND, SENDT, RECV, WAITS and a waiting PEEK (R288). -/
def abandoned : Instr → Bool
  | .send .. => true
  | .sendt .. => true
  | .recv .. => true
  | .waits .. => true
  | .peek .. => true
  | _ => false

/-- What the stalled instruction of Hearth n waits for has come: it goes on before the Hearth is interrupted or halts. -/
def State.stallOver (s : State) (n : Nat) : Bool :=
  let h := s.hearth n
  let sends := !s.bit (HRT_FENCE n) HRT_FENCE_gate && decide (h.out.length < 8)
  match h.stalled with
  | some (.waits ..) => h.latch.isSome
  | some (.recv _ _ _ q) => h.queue q.val != []
  | some (.peek _ _ _ q _) => h.queue q.val != []
  | some (.send ..) => sends
  | some (.sendt ..) => sends
  | _ => false

/-- Interrupt entry (R244): a full ring takes WOVF in its place. -/
def State.irqEnter (s : State) (n : Nat) : State :=
  let h := s.hearth n
  if h.stat.wres = 5 then s.hTrap n causeWOVF 0 0 h.pc h.npc
  else
    let ib := s.fld (HRT_VEC n) HRT_VEC_ibase
    let h1 : Hearth := { h.abandon with stat := h.stat.forward }
    let h2 : Hearth := { h1 with
      spc := h.pc, snpc := h.npc, sstat := h1.statWord, stat := { h1.stat with ie := false, annul := false },
      pc := ib, npc := (ib + 1) % 4096, inSlot := false }
    (s.setHearth n h2).paceSteps n 2

/-- INTERRUPT_ENTRY (R240, R244, R288). `squash`: the interrupt arrived in the step in which the Assist instruction at PC
issued, and its accepted operation is squashed. DEDUCED, log entry 15. -/
def execInterruptEntry (h : HearthId) (squash : Bool) (s : State) : Host.Outcome State Fault Refusal :=
  s.run fun s =>
    let n := h.val
    let o := s.hearth n
    let free := match o.stalled with
      | none => true
      | some i => abandoned i && !s.stallOver n
    if s.irqReady n && free && o.imprecise.isNone then
      (if squash then s.modHearth n Hearth.squashIssue else s).irqEnter n
    else s

/-- IMPRECISE_TRAP (R247). A breakpoint at the instruction that it falls on halts first (R517). -/
def execImpreciseTrap (h : HearthId) (s : State) : Host.Outcome State Fault Refusal :=
  s.run fun s =>
    let n := h.val
    let o := s.hearth n
    if s.executes n && !o.sent then
      if o.imprecise.isSome && !o.bpSkip && (s.breakpoint n o.pc).isSome then s.debugHalt n 3 ((s.breakpoint n o.pc).getD 0)
      else (s.impreciseTrap n).hEnd n
    else s

/-- A Rally instant of a running Hearth whose watchdog is on (R250). -/
def State.wdogTick (s : State) (n : Nat) : State :=
  if s.running n && s.fld (HRT_WDOG n) HRT_WDOG_limit != 0 then
    s.setFld (HRT_WDOG n) HRT_WDOG_count (min (s.fld (HRT_WDOG n) HRT_WDOG_count + 1) 0xFFFF)
  else s

/-- WATCHDOG_EXPIRY (R250): the count has reached the limit. -/
def execWatchdogExpiry (h : HearthId) (s : State) : Host.Outcome State Fault Refusal :=
  s.runXo fun s =>
    let n := h.val
    let lim := s.fld (HRT_WDOG n) HRT_WDOG_limit
    if lim != 0 && s.running n && decide (lim ≤ s.fld (HRT_WDOG n) HRT_WDOG_count) then
      ((s.captureFault n causeWDOG 0 false (s.hearth n).pc 0).raise (193 + n)).wdogKick n
    else s

/-! ### Halt, resume, reset (R256 to R259) -/

/-- Tokens that a reset discards. -/
def Hearth.tokensHeld (h : Hearth) : Nat :=
  (h.queue 0).length + (h.queue 1).length + (h.queue 2).length + (h.queue 3).length + h.out.length

/-- What the reset of R258 makes of the Hearth's own state: RAMs, slot values and the Pace state stay. -/
def Hearth.afterReset (h : Hearth) (pc spill : Nat) : Hearth :=
  let z := h.applyAllZc
  { hearthReset with
    pc := pc, npc := (pc + 1) % 4096, pcFresh := false, spill := spill, ram := h.ram, ramErr := h.ramErr, prog := h.prog,
    progBad := h.progBad, slots := z.slots, paramIn := h.paramIn, ctlIn := h.ctlIn, pace := h.pace }

/-- A Hearth reset (R258). -/
def State.hearthReset (s : State) (n : Nat) : State :=
  let k := (s.hearth n).tokensHeld
  let s1 := (s.drainAll n).modHearth n fun h =>
    h.afterReset (s.fld (HRT_RESET_PC n) HRT_RESET_PC_pc) (s.fld (HRT_SPILL_LIM n) HRT_SPILL_LIM_lo)
  (s1.bumpBy (HRT_QDISC n) whole k).setFld (HRT_FAULT n) HRT_FAULT_halted 0

/-- The Hearth resumes at HRT_PC (R256). -/
def State.hearthResume (s : State) (n : Nat) : State :=
  (s.setFld (HRT_CTRL n) HRT_CTRL_run 1).modHearth n fun h => { h with bpSkip := true, stepping := false, pcFresh := false }

/-- A write to HRT_CTRL (R249, R256, R258): reset needs a halted Hearth, and a double fault refuses run. A write of both
bits resets and stays halted. A Hearth whose LDM has been sent, or whose stalled instruction can go on, halts once that
retires. -/
def writeHrtCtrl (n : Nat) (v : Word) : WriteEff := fun s =>
  let run := bitOf v.toNat 0
  let rst := bitOf v.toNat 1
  if rst then
    if s.running n then (.slverr, s) else (.ok, s.hearthReset n)
  else if run then
    if s.running n then (.ok, s.modHearth n fun h => { h with haltDue := false })
    else if s.bit (HRT_FAULT n) HRT_FAULT_halted then (.slverr, s)
    else (.ok, s.hearthResume n)
  else if s.running n then
    (.ok, if (s.hearth n).sent || s.stallOver n then s.modHearth n fun h => { h with haltDue := true } else s.debugHalt n 1 0)
  else (.ok, s)

/-- HEARTH_HALT (R256): a write of 0 to HRT_CTRL.run. -/
def execHearthHalt (m : Mid) (h : HearthId) (s : State) : Host.Outcome State Fault Refusal :=
  s.run fun s => s.writeReg m.val (HRT_CTRL h.val) 0 (writeHrtCtrl h.val 0)

/-- HEARTH_RESET (R258): a write to HRT_CTRL with reset at 1. DEDUCED, log entry 6. -/
def execHearthReset (m : Mid) (h : HearthId) (run : Bool) (s : State) : Host.Outcome State Fault Refusal :=
  s.run fun s => s.writeReg m.val (HRT_CTRL h.val) (if run then 3 else 2) (writeHrtCtrl h.val (if run then 3 else 2))

/-! ### HRT registers (R257, R260, Table: HRT register summary) -/

/-- A write to a register that is refused while the Hearth runs (R260). -/
def writeHalted (n a : Nat) (v : Word) : WriteEff := fun s =>
  if s.running n then (.slverr, s) else (.ok, s.plainWrite a v)

/-- A write to HRT_PC (R256, R260). -/
def writeHrtPc (n : Nat) (v : Word) : WriteEff := fun s =>
  if s.running n then (.slverr, s)
  else (.ok, s.modHearth n fun h => { h with
    pc := HRT_PC_pc.get v, npc := HRT_PC_npc.get v, inSlot := false, pcFresh := false,
    stat := { h.stat with annul := HRT_PC_annul.get v = 1 } })

/-- A write to HRT_SPILL_LIM: multiples of 64, lo < hi ≤ 0x8000 (R260). -/
def writeSpillLim (n : Nat) (v : Word) : WriteEff := fun s =>
  let lo := HRT_SPILL_LIM_lo.get v
  let hi := HRT_SPILL_LIM_hi.get v
  acceptIf (lo % 64 = 0 && hi % 64 = 0 && decide (lo < hi) && decide (hi ≤ 0x8000))
    (fun s => s.plainWrite (HRT_SPILL_LIM n) v) s

/-- A write to HRT_WDOG: a change of limit restarts the count (R250). -/
def State.writeWdog (s : State) (n : Nat) (v : Word) : State :=
  let s1 := s.plainWrite (HRT_WDOG n) v
  if s1.fld (HRT_WDOG n) HRT_WDOG_limit = s.fld (HRT_WDOG n) HRT_WDOG_limit then s1 else s1.wdogKick n

/-- HRT_STAT as it reads: blocked is the stall in RECV, WAITS or SEND. -/
def State.readHrtStat (s : State) (n : Nat) : Word :=
  let h := s.hearth n
  let blocked := match h.stalled with
    | some (.peek ..) => false
    | some i => abandoned i
    | none => false
  BitVec.ofNat 32 (b2n (!s.running n) + b2n blocked * 2 + b2n h.stat.trap * 4 + b2n h.stat.ie * 8 + h.stat.wcur * 2 ^ 4 +
    h.stat.wres * 2 ^ 7 + h.loops.length * 2 ^ 10 + b2n h.assist.isSome * 2 ^ 13 + h.ctag * 2 ^ 16)

/-- HRT_PC as it reads: 0 after a system reset, until the Hearth runs or the register is written (Table: HRT register
summary). -/
def State.readHrtPc (s : State) (n : Nat) : Word :=
  let h := s.hearth n
  if h.pcFresh then 0 else BitVec.ofNat 32 (h.pc + h.npc * 2 ^ 16 + b2n h.stat.annul * 2 ^ 31)

/-- HRT_FENCE as it reads: the gate is in force at once, and the Hearth is drained once its accesses have completed (R257). -/
def State.readHrtFence (s : State) (n : Nat) : Word :=
  if s.bit (HRT_FENCE n) HRT_FENCE_gate then BitVec.ofNat 32 (3 + 4 * b2n (s.drained n)) else 0

/-- HRT_PARAM_STAT as it reads. -/
def State.readParamStat (s : State) (n : Nat) : Word :=
  let h := s.hearth n
  HRT_PARAM_STAT_zc_wait.set (HRT_PARAM_STAT_armed.set (s.reg (HRT_PARAM_STAT n)) (b2n h.armed.isSome)) (b2n h.zcWait)

/-- HRT_PARAM_ARM as it reads: 0 while no swap is armed. -/
def State.readParamArm (s : State) (n : Nat) : Word :=
  match (s.hearth n).armed with
  | none => 0
  | some (k, w) => BitVec.ofNat 32 (k + (w - 1) * 2 ^ 8)

/-- HRT_PARAM_LAST as it reads. -/
def State.readParamLast (s : State) (n : Nat) : Word :=
  HRT_PARAM_LAST_zc_left.set (s.reg (HRT_PARAM_LAST n)) (s.hearth n).zcLeft

/-- FENCE_GATE (R217, R257). -/
def execFenceGate (m : Mid) (h : HearthId) (v : Word) (s : State) : Host.Outcome State Fault Refusal :=
  s.run fun s => s.writeReg m.val (HRT_FENCE h.val) v (accept fun s => s.plainWrite (HRT_FENCE h.val) v)

/-- A write to HRT_IRQ_SET: a 1 sets its pending bit, 1 to 7 (R244). -/
def State.irqSet (s : State) (n : Nat) (v : Word) : State :=
  s.setReg (HRT_IRQ_PEND n) (s.reg (HRT_IRQ_PEND n) ||| (v &&& 0xFE))

/-- IRQ_SET (R244). -/
def execIrqSet (m : Mid) (h : HearthId) (v : Word) (s : State) : Host.Outcome State Fault Refusal :=
  s.run fun s => s.writeReg m.val (HRT_IRQ_SET h.val) v (accept fun s => s.irqSet h.val v)

/-- PRIV_WRITE (R232). -/
def execPrivWrite (m : Mid) (i : Fin 6) (v : Word) (s : State) : Host.Outcome State Fault Refusal :=
  s.run fun s => s.writeReg m.val (SYS_HEARTH_PRIV i.val) v (accept fun s => s.plainWrite (SYS_HEARTH_PRIV i.val) v)

/-! ### Debug of a Hearth (R517, R518) -/

/-- A debug step is requested: a halted Hearth that no double fault halted executes one instruction of its program. Hearth 0
has none before the handover (R466). -/
def State.debugRequest (s : State) (n : Nat) : State :=
  if s.running n || s.bit (HRT_FAULT n) HRT_FAULT_halted || (n = 0 && s.skp.rom != .done) then s
  else s.modHearth n fun h => { h with stepping := true, bpSkip := true, pcFresh := false }

/-- A write to HRT_DBG_CTRL: step is an action and reads 0 once it is done. -/
def State.writeDbgCtrl (s : State) (n : Nat) (v : Word) : State :=
  let s1 := s.setReg (HRT_DBG_CTRL n) (v &&& 6)
  if bitOf v.toNat 0 then s1.debugRequest n else s1

/-- A g register of a window, 0 to 5. -/
def dbgKey (win r : Nat) : Nat := if r < 16 then r else 16 * win + r

/-- What HRT_DBG_DATA reads for a code and sel_win (R518). A code that names nothing reads 0. -/
def State.dbgRead (s : State) (n code win : Nat) : Word :=
  let h := s.hearth n
  if code < 32 then (if code = 0 then 0 else tabGet zeroWord h.g (dbgKey win code))
  else if code < 64 then h.getP (code - 32)
  else if code < 80 then
    if code % 4 = 3 then 0 else accPart (h.getA ((code - 64) / 4)) (code % 4)
  else if 96 ≤ code ∧ code < 120 then s.sysRead n (code - 96)
  else if 128 ≤ code ∧ code < 136 then
    match h.loops.reverse[(code - 128) / 2]? with
    | none => 0
    | some e => (loopWords e).getD (code % 2) 0
  else 0

/-- STAT written whole by a debugger: every field but ldepth (R518). -/
def Stat.debugWrite (t : Stat) (v : Word) : Stat :=
  let u := t.restore v
  let w := v.toNat
  { u with wcur := w / 2 ^ 8 % 8, wres := w / 2 ^ 11 % 8, frame := w / 2 ^ 17 % 16 }

/-- The window fields of a STAT word lie in their ranges (R224, R260). -/
def statInRange (v : Word) : Bool :=
  let w := v.toNat
  w / 2 ^ 8 % 8 < 5 && 1 ≤ w / 2 ^ 11 % 8 && w / 2 ^ 11 % 8 ≤ 5

/-- Replaces word w of loop-stack entry e, with entry 0 at the bottom. -/
def Hearth.setLoopWord (h : Hearth) (e w : Nat) (v : Word) : Hearth :=
  let l := h.loops.reverse
  match l[e]? with
  | none => h
  | some x =>
    let y := if w = 0 then { loopEntry v (BitVec.ofNat 32 x.left) with left := x.left } else { x with left := v.toNat }
    { h with loops := (l.set e y).reverse }

/-- A write of HRT_DBG_DATA (R518): refused while the Hearth runs; STAT is checked as R260 says. -/
def writeDbgData (n : Nat) (v : Word) : WriteEff := fun s =>
  let code := s.fld (HRT_DBG_SEL n) HRT_DBG_SEL_code
  let win := s.fld (HRT_DBG_SEL n) HRT_DBG_SEL_sel_win
  if s.running n then (.slverr, s)
  else if code < 32 then
    (.ok, if code = 0 then s else s.modHearth n fun h => h.setKey (dbgKey win code) v)
  else if code < 64 then (.ok, s.modHearth n fun h => h.setP (code - 32) v)
  else if code < 80 then
    (.ok, if code % 4 = 3 then s else
      s.modHearth n fun h => h.setA ((code - 64) / 4) (setAccPart (h.getA ((code - 64) / 4)) (code % 4) v))
  else if code = 96 then
    if statInRange v then (.ok, s.modStat n fun t => t.debugWrite v) else (.slverr, s)
  else if 96 < code ∧ code < 120 then (.ok, s.sysWrite n (code - 96) v)
  else if 128 ≤ code ∧ code < 136 then (.ok, s.modHearth n fun h => h.setLoopWord ((code - 128) / 2) (code % 2) v)
  else (.ok, s)

/-- A read of HRT_DBG_DATA (R518). -/
def readDbgData (n : Nat) (s : State) : Resp × Word × State :=
  if s.running n then (.slverr, 0, s)
  else (.ok, s.dbgRead n (s.fld (HRT_DBG_SEL n) HRT_DBG_SEL_code) (s.fld (HRT_DBG_SEL n) HRT_DBG_SEL_sel_win), s)

/-- A write to HRT_DBG_SEL: sel_win lies in 0 to 5 (R518, R522). -/
def writeDbgSel (n : Nat) (v : Word) : WriteEff :=
  acceptIf (decide (HRT_DBG_SEL_sel_win.get v < 6)) fun s => s.plainWrite (HRT_DBG_SEL n) v

/-- HRT_DBG_DATA (R518): an access of HRT_DBG_DATA, a write of the value given or a read. -/
def execHrtDbgData (m : Mid) (h : HearthId) (w : Option Word) (s : State) : Host.Outcome State Fault Refusal :=
  s.run fun s =>
    match w with
    | some v => s.writeReg m.val (HRT_DBG_DATA h.val) v (writeDbgData h.val v)
    | none => s.readReg m.val (HRT_DBG_DATA h.val) (readDbgData h.val)

end Sys2Proof.Machine
end

