-- ==== Sys2Proof/Machine/Crypto.lean ====
section
/-! DEFINITION. SHA-256 and the verification of NIST P-256 ECDSA signatures, which R457 and R468 name. -/

namespace Sys2Proof.Machine

/-! ### SHA-256: its constants are the first 32 bits of the fractions of roots of primes -/

/-- The n low bits of the largest number above x whose k-th power is at most v. -/
def rootBits (k v : Nat) : Nat → Nat → Nat
  | 0, x => x
  | n + 1, x => rootBits k v n (if (x + 2 ^ n) ^ k ≤ v then x + 2 ^ n else x)

/-- The first 32 bits of the fraction of the k-th root of p, for a p below 2^12. -/
def rootFrac (k p : Nat) : Word := BitVec.ofNat 32 (rootBits k (p * 2 ^ (32 * k)) 44 0)

/-- The primes up to 311, the 64th. -/
def shaPrimes : List Nat :=
  (List.range 312).filter fun n => decide (2 ≤ n) && (List.range 18).all fun d => decide (d < 2) || decide (n ≤ d) || n % d != 0

/-- Four working words. -/
structure ShaQuad where
  w0 : Word
  w1 : Word
  w2 : Word
  w3 : Word
deriving DecidableEq, Repr

def ShaQuad.add (p q : ShaQuad) : ShaQuad := ⟨p.w0 + q.w0, p.w1 + q.w1, p.w2 + q.w2, p.w3 + q.w3⟩

/-- A new word comes first and the oldest one goes. -/
def ShaQuad.push (q : ShaQuad) (x : Word) : ShaQuad := ⟨x, q.w0, q.w1, q.w2⟩

def ShaQuad.bytes (q : ShaQuad) : List Byte := [q.w0, q.w1, q.w2, q.w3].flatMap fun x => beBytes 4 x.toNat

/-- The working words a to d and e to h. -/
abbrev ShaState := ShaQuad × ShaQuad

def shaQuadOf (l : List Nat) : ShaQuad :=
  ⟨rootFrac 2 (l.getD 0 0), rootFrac 2 (l.getD 1 0), rootFrac 2 (l.getD 2 0), rootFrac 2 (l.getD 3 0)⟩

def shaStart : ShaState := (shaQuadOf shaPrimes, shaQuadOf (shaPrimes.drop 4))

/-- A word turned right by three amounts. -/
def turns (i j k : Nat) (x : Word) : Word := x.rotateRight i ^^^ x.rotateRight j ^^^ x.rotateRight k

/-- Bit by bit y where x is set and z elsewhere. -/
def shaChoose (x y z : Word) : Word := z ^^^ (x &&& (y ^^^ z))

/-- Bit by bit what two of three say. -/
def shaMost (x y z : Word) : Word := (x &&& y) ||| (z &&& (x ||| y))

/-- A round: what goes into both halves, from the constant and the schedule word. -/
def shaRound (s : ShaState) (kw : Word) : ShaState :=
  let (p, q) := s
  let t := kw + q.w3 + shaChoose q.w0 q.w1 q.w2 + turns 6 11 25 q.w0
  (p.push (t + shaMost p.w0 p.w1 p.w2 + turns 2 13 22 p.w0), q.push (p.w3 + t))

/-- The schedule, newest word first, longer by n words. -/
def shaSchedule : Nat → List Word → List Word
  | 0, w => w
  | n + 1, w =>
    let x := w.getD 14 0
    let y := w.getD 1 0
    shaSchedule n (((x.rotateRight 7 ^^^ x.rotateRight 18 ^^^ x >>> 3) + (y.rotateRight 17 ^^^ y.rotateRight 19 ^^^ y >>> 10) +
      w.getD 6 0 + w.getD 15 0) :: w)

/-- A block of 64 bytes. -/
def shaBlock (s : ShaState) (l : List Byte) : ShaState :=
  let first := (List.range 16).map fun i => BitVec.ofNat 32 (beAt l (60 - 4 * i) 4)
  let kw := List.zipWith (· + ·) (shaPrimes.map (rootFrac 3)) (shaSchedule 48 first).reverse
  let (p, q) := kw.foldl shaRound s
  (s.1.add p, s.2.add q)

/-- SHA-256 of a byte string: 32 bytes. -/
def sha256 (l : List Byte) : List Byte :=
  let len := l.length
  let pad := l ++ 0x80 :: List.replicate ((119 - len % 64) % 64) 0 ++ beBytes 8 (8 * len)
  let s := (List.range (pad.length / 64)).foldl (fun s i => shaBlock s (slice pad (64 * i) 64)) shaStart
  s.1.bytes ++ s.2.bytes

/-! ### NIST P-256 -/

def p256P : Nat := 0xffffffff00000001000000000000000000000000ffffffffffffffffffffffff
def p256N : Nat := 0xffffffff00000000ffffffffffffffffbce6faada7179e84f3b9cac2fc632551
def p256B : Nat := 0x5ac635d8aa3a93e7b3ebbd55769886bc651d06b0cc53b0f63bce3c3e27d2604b
def p256G : Nat × Nat :=
  (0x6b17d1f2e12c4247f8bce6e563a440f277037d812deb33a0f4a13945d898c296,
   0x4fe342e2fe1a7f9b8ee7eb4a7c0f9e162bce33576b315ececbb6406837bf51f5)

/-- b^e mod m, for an e of at most `fuel` bits. -/
def powMod (m : Nat) : Nat → Nat → Nat → Nat
  | 0, _, _ => 1 % m
  | fuel + 1, b, e => let r := powMod m fuel (b * b % m) (e / 2); if e % 2 = 1 then r * b % m else r

/-- The inverse modulo a prime. -/
def invMod (m a : Nat) : Nat := powMod m 256 (a % m) (m - 2)

def subMod (m a b : Nat) : Nat := (a + (m - b % m)) % m

/-- A point of the curve; none is the point at infinity. -/
abbrev EcPoint := Option (Nat × Nat)

/-- The third point of the line of slope k through (x1, y1) and a point of abscissa x2. -/
def ecLine (k x1 y1 x2 : Nat) : EcPoint :=
  let x3 := subMod p256P (subMod p256P (k * k) x1) x2
  some (x3, subMod p256P (k * subMod p256P x1 x3) y1)

/-- The sum of two points. -/
def ecAdd : EcPoint → EcPoint → EcPoint
  | none, q => q
  | p, none => p
  | some (x1, y1), some (x2, y2) =>
    if x1 = x2 then
      if (y1 + y2) % p256P = 0 then none
      else ecLine ((3 * x1 * x1 + (p256P - 3)) * invMod p256P (2 * y1) % p256P) x1 y1 x2
    else ecLine (subMod p256P y2 y1 * invMod p256P (subMod p256P x2 x1) % p256P) x1 y1 x2

/-- k times a point, for a k of at most `fuel` bits. -/
def ecMul : Nat → Nat → EcPoint → EcPoint
  | 0, _, _ => none
  | fuel + 1, k, q => let r := ecMul fuel (k / 2) (ecAdd q q); if k % 2 = 1 then ecAdd r q else r

/-- (x, y) is a point of P-256. -/
def onCurve (x y : Nat) : Bool :=
  decide (x < p256P) && decide (y < p256P) &&
    decide (y * y % p256P = (x * x * x + (p256P - 3) * x + p256B) % p256P)

/-- (r, s) is a signature of digest e under the public key (qx, qy). -/
def ecdsaVerify (qx qy r s e : Nat) : Bool :=
  if onCurve qx qy && decide (0 < r) && decide (r < p256N) && decide (0 < s) && decide (s < p256N) then
    let w := invMod p256N s
    match ecAdd (ecMul 256 (e * w % p256N) (some p256G)) (ecMul 256 (r * w % p256N) (some (qx, qy))) with
    | none => false
    | some (x, _) => x % p256N = r
  else false

end Sys2Proof.Machine
end

