-- ==== Sys2Proof/Machine/Keeper.lean ====
section
/-! DEFINITION. The Scene Keeper, its flash and the OTP (17). -/

namespace Sys2Proof.Machine

abbrev midKeeper : Nat := 0x310

def State.modSkp (s : State) (f : Skp → Skp) : State := { s with skp := f s.skp }

def jobReset : SkpJob := ⟨false, false, 0, 0, 0, false, false, 0, 0, none, 0, none⟩

def State.setJob (s : State) (j : SkpJob) : State := s.modSkp fun k => { k with job := some j }

/-! ### The flash (R451 to R453) -/

/-- An erased byte of the flash. -/
def erasedByte (_ : Nat) : Byte := 0xFF

def State.flashByte (s : State) (a : Nat) : Byte := tabGet erasedByte s.skp.flash a

/-- n bytes of the flash. -/
def State.flashBytes (s : State) (a n : Nat) : List Byte := (List.range n).map fun i => s.flashByte (a + i)

/-- A little-endian word of the flash. -/
def State.flashWord (s : State) (a : Nat) : Nat := leNat (s.flashBytes a 4)

/-- Changes n bytes of the flash, byte i from its old value. -/
def State.flashMap (s : State) (a n : Nat) (f : Nat → Byte → Byte) : State :=
  s.modSkp fun k => { k with
    flash := (List.range n).foldl (fun t i => tabSet erasedByte t (a + i) (f i (tabGet erasedByte t (a + i)))) k.flash }

/-- A finished operation: an erase sets every bit, a program clears the bits that are 0 in its data. -/
def State.flashApply (s : State) : FlashOp → State
  | .erase a n => s.flashMap a n fun _ _ => 0xFF
  | .program a d => s.flashMap a d.length fun i b => b &&& d.getD i 0xFF

/-- An operation that was cut off (R452, R461): each bit that it would have changed has changed or not, which is free.
DESIGN CHOICE, log entry 124. -/
def State.flashTorn (s : State) (op : FlashOp) : State :=
  let n := match op with
    | .erase _ n => n
    | .program _ d => d.length
  let f := fun i => (Config.freeValue (s.freeCtr + i)).truncate 8
  let s1 := { s with freeCtr := s.freeCtr + n }
  match op with
  | .erase a n => s1.flashMap a n fun i b => b ||| f i
  | .program a d => s1.flashMap a d.length fun i b => b &&& (d.getD i 0xFF ||| f i)

/-- Bytes of an erase sector. -/
def State.sectorSize (s : State) : Nat := if s.bit SKP_FLASH_CFG SKP_FLASH_CFG_sect64 then 0x10000 else 0x1000

/-- Bytes of the flash. -/
def State.flashSize (s : State) : Nat := 2 ^ (s.fld SKP_FLASH_CFG SKP_FLASH_CFG_size_log2 + 16)

/-! ### Slots (R454 to R456) -/

/-- Scene pairs of the region. -/
def State.scenePairs (s : State) : Nat := s.fld SKP_SCN_CFG SKP_SCN_CFG_pairs + 1

/-- The boot pair, or scene pair p. -/
inductive PairId where
  | boot
  | scene (p : Nat)
deriving DecidableEq, Repr

def State.slotSize (s : State) : PairId → Nat
  | .boot => 0x200000
  | .scene _ => 2 ^ s.fld SKP_SCN_CFG SKP_SCN_CFG_slot_log2

/-- The address of slot A (false) or B. -/
def State.slotAddr (s : State) (p : PairId) (b : Bool) : Nat :=
  let base := match p with
    | .boot => 0
    | .scene i => s.fld SKP_SCN_CFG SKP_SCN_CFG_base * 0x10000 + 2 * i * s.slotSize p
  base + b2n b * s.slotSize p

def slotMagic : PairId → Nat
  | .boot => 0x5A4D4249
  | .scene _ => 0x5A4D5343

def pairNumber : PairId → Nat
  | .boot => 0
  | .scene p => p

/-- What the first page of a slot says. -/
structure SlotHdr where
  gen : Nat
  len : Nat
  pcrc : Nat
  flags : Nat
deriving DecidableEq, Repr

/-- The header of 32 bytes, its checks against pair p but the commit pair (R456). -/
def hdrOf (p : PairId) (size : Nat) (h : List Byte) : Option SlotHdr :=
  let w := fun i => leNat (slice h (4 * i) 4)
  if w 0 = slotMagic p ∧ w 1 = pairNumber p ∧ w 7 = crc32c (h.take 28) ∧ 1 ≤ w 3 ∧ w 3 + 256 ≤ size then
    some ⟨w 2, w 3, w 4, w 5⟩ else none

/-- A slot that is intact but for its payload's CRC, which is not looked at (R456). -/
def State.slotHdr (s : State) (p : PairId) (b : Bool) : Option SlotHdr :=
  let a := s.slotAddr p b
  match hdrOf p (s.slotSize p) (s.flashBytes a 32) with
  | none => none
  | some h => if s.flashWord (a + 0xF8) = h.gen ∧ s.flashWord (a + 0xFC) = 2 ^ 32 - 1 - h.gen then some h else none

/-- The payload of a slot. -/
def State.payload (s : State) (p : PairId) (b : Bool) (h : SlotHdr) : List Byte := s.flashBytes (s.slotAddr p b + 0x100) h.len

/-- An intact slot (R456); with deep false the payload is not read (R464). -/
def State.slotIntact (s : State) (p : PairId) (deep b : Bool) : Option SlotHdr :=
  match s.slotHdr p b with
  | none => none
  | some h => if !deep || crc32c (s.payload p b h) = h.pcrc then some h else none

/-- Generation a is higher than b. -/
def genHigher (a b : Nat) : Bool :=
  let d := (a + 2 ^ 32 - b) % 2 ^ 32
  1 ≤ d && d < 2 ^ 31

/-- The current copy: its slot and header, and whether neither slot was higher (R456). -/
def pickCurrent : Option SlotHdr → Option SlotHdr → Option (Bool × SlotHdr × Bool)
  | none, none => none
  | some a, none => some (false, a, false)
  | none, some b => some (true, b, false)
  | some a, some b =>
    if genHigher a.gen b.gen then some (false, a, false)
    else if genHigher b.gen a.gen then some (true, b, false)
    else some (false, a, true)

def State.currentCopy (s : State) (p : PairId) (deep : Bool) : Option (Bool × SlotHdr × Bool) :=
  pickCurrent (s.slotIntact p deep false) (s.slotIntact p deep true)

/-! ### The end of a command (R457) -/

abbrev skpOK := 0
abbrev skpEMPTY := 1
abbrev skpCRC := 2
abbrev skpECC := 3
abbrev skpPFAIL := 4
abbrev skpFLASH := 5
abbrev skpRANGE := 6
abbrev skpABORTED := 7

/-- The command ends with a result. -/
def State.skpEnd (s : State) (r : Nat) : State :=
  let s1 := ((s.setFld SKP_STAT SKP_STAT_busy 0).setFld SKP_STAT SKP_STAT_step 0).setFld SKP_STAT SKP_STAT_result r
  ((s1.setFldIf (r != skpOK) SKP_STAT SKP_STAT_err 1).modSkp fun k => { k with job := none }).raise 450

/-- What SKP_RES_INFO, _GEN and _LEN report of the slot used (R458). DEDUCED, log entry 126. -/
def State.skpReport (s : State) (j : SkpJob) : State :=
  ((s.setReg SKP_RES_INFO (BitVec.ofNat 32 (b2n j.slot + 2 * b2n j.fell + 4 * b2n j.tie))).setReg SKP_RES_GEN
    (BitVec.ofNat 32 j.gen)).setReg SKP_RES_LEN (BitVec.ofNat 32 j.len)

/-- The Keeper asks the flash for an operation. -/
def State.skpAsk (s : State) (j : SkpJob) (op : FlashOp) : State := s.setJob { j with op := some op, polls := 0 }

/-- Stops the command at its next page boundary (R461, R463): a program in progress goes on to its end, an erase is left
to the flash. -/
def State.skpStop (s : State) (r : Nat) : State :=
  match s.skp.job with
  | none => s
  | some j => match j.op with
    | none => s.skpEnd r
    | some (.erase a n) => (s.flashTorn (.erase a n)).skpEnd r
    | some (.program _ _) => s.setJob { j with stop := some (j.stop.getD r) }

/-! ### The buffer in the Mantel -/

def State.skpBuf (s : State) : Nat := (s.reg SKP_BUF).toNat
def State.skpLen (s : State) : Nat := (s.reg SKP_LEN).toNat

/-- The buffer is 8-byte aligned and n bytes from it lie in the Mantel (R457). -/
def State.bufOk (s : State) (n : Nat) : Bool := s.skpBuf % 8 = 0 && decide (s.skpBuf + n ≤ 0x800000)

/-- The 64-bit words of a byte string, the last one filled up with zeros. -/
def wordsOf : Nat → List Byte → List Nat
  | 0, _ => []
  | n + 1, l => leNat (l.take 8) :: wordsOf n (l.drop 8)

/-- Reads n 64-bit words by a master; none at the first that completes with ECC. -/
def State.skpWords (s : State) (mid a : Nat) : Nat → Option (List Byte) × State
  | 0 => (some [], s)
  | n + 1 => match s.dmaRead mid a .b64 with
    | (none, s1) => (none, s1)
    | (some v, s1) => match s1.skpWords mid (a + 8) n with
      | (none, s2) => (none, s2)
      | (some l, s2) => (some (leBytes 8 v ++ l), s2)

/-- Reads n bytes by the Keeper. -/
def State.readBuf (s : State) (a n : Nat) : Option (List Byte) × State :=
  match s.skpWords midKeeper a ((n + 7) / 8) with
  | (none, s1) => (none, s1)
  | (some l, s1) => (some (l.take n), s1)

/-- The running CRC over more bytes, and its end. -/
def crcMore (c : Nat) (l : List Byte) : Nat := l.foldl (crcByte 0x82F63B78) c

def crcStart : Nat := 0xFFFFFFFF

def crcEnd (c : Nat) : Nat := c ^^^ 0xFFFFFFFF

/-! ### LOAD (R458) -/

/-- The next page of the payload is read and written to the buffer. After the last one the CRC decides: the copy is good,
the partner is tried, with no tie any more since one of the two is not intact, or the pair reads as empty.
DEDUCED, log entry 127. -/
def State.loadPage (s : State) (p : PairId) (j : SkpJob) : State :=
  let n := min 256 (j.len - 256 * j.unit)
  let d := s.flashBytes (s.slotAddr p j.slot + 0x100 + 256 * j.unit) n
  let s1 := s.dmaWriteWords midKeeper (s.skpBuf + 256 * j.unit) (wordsOf ((n + 7) / 8) d)
  let c := crcMore j.crc d
  if 256 * (j.unit + 1) < j.len then s1.setJob { j with unit := j.unit + 1, crc := c }
  else if crcEnd c = j.pcrc then (s1.skpReport j).skpEnd skpOK
  else match (if j.fell then none else s1.slotHdr p (!j.slot)) with
    | none => s1.skpEnd skpEMPTY
    | some h =>
      if s1.bufOk ((h.len + 7) / 8 * 8) then
        s1.setJob { j with
          slot := !j.slot, gen := h.gen, len := h.len, pcrc := h.pcrc, fell := true, tie := false, unit := 0, crc := crcStart }
      else s1.skpEnd skpRANGE

/-- LOAD and LOAD_BOOT: the first step reads both first pages and chooses the current copy. -/
def State.loadUnit (s : State) (p : PairId) (j : SkpJob) : State :=
  if j.begun then s.loadPage p j
  else match s.currentCopy p false with
    | none => if s.skpBuf % 8 = 0 then s.skpEnd skpEMPTY else s.skpEnd skpRANGE
    | some (b, h, tie) =>
      if s.bufOk ((h.len + 7) / 8 * 8) then
        s.setJob { j with begun := true, slot := b, gen := h.gen, len := h.len, pcrc := h.pcrc, tie := tie, crc := crcStart }
      else s.skpEnd skpRANGE

/-! ### STORE (R459, R460) -/

/-- The 32 bytes of a header (R455). -/
def hdrBytes (p : PairId) (gen len pcrc flags : Nat) : List Byte :=
  let h := leBytes 4 (slotMagic p) ++ leBytes 4 (pairNumber p) ++ leBytes 4 gen ++ leBytes 4 len ++ leBytes 4 pcrc ++
    leBytes 4 flags ++ leBytes 4 0
  h ++ leBytes 4 (crc32c h)

/-- The generation after g. -/
def nextGen (g : Nat) : Nat := if (g + 1) % 2 ^ 32 = 0xFFFFFFFF ∨ (g + 1) % 2 ^ 32 = 0 then 1 else (g + 1) % 2 ^ 32

def State.skpStep (s : State) (n : Nat) : State := s.setFld SKP_STAT SKP_STAT_step n

/-- The flags word of the slot: bit 0 of a boot slot takes SKP_CMD.signed (R457). -/
def State.storeFlags (s : State) : PairId → Nat
  | .boot => s.fld SKP_CMD SKP_CMD_signed
  | .scene _ => 0

/-- The next act of a STORE, once its last flash operation is over. DEDUCED, log entry 125. -/
def State.storeUnit (s : State) (p : PairId) (j : SkpJob) : State :=
  let size := s.slotSize p
  if !j.begun then
    let len := s.skpLen
    if s.bufOk len && decide (1 ≤ len) && decide (len + 256 ≤ size) then
      let (slot, gen, tie) := match s.currentCopy p false with
        | none => (false, 1, false)
        | some (b, h, tie) => (!b, nextGen h.gen, tie)
      let j1 := { j with begun := true, slot := slot, gen := gen, len := len, tie := tie, unit := 1, crc := crcStart }
      (s.skpStep 1).skpAsk j1 (.erase (s.slotAddr p slot) s.sectorSize)
    else s.skpEnd skpRANGE
  else
    let a := s.slotAddr p j.slot
    match s.fld SKP_STAT SKP_STAT_step with
    | 1 | 2 =>
      if j.unit * s.sectorSize < 0x100 + j.len then
        (s.skpStep 2).skpAsk { j with unit := j.unit + 1 } (.erase (a + j.unit * s.sectorSize) s.sectorSize)
      else (s.skpStep 3).setJob { j with unit := 0 }
    | 3 =>
      if 256 * j.unit < j.len then
        match s.readBuf (s.skpBuf + 256 * j.unit) (min 256 (j.len - 256 * j.unit)) with
        | (none, s1) => s1.skpEnd skpECC
        | (some d, s1) =>
          s1.skpAsk { j with unit := j.unit + 1, crc := crcMore j.crc d } (.program (a + 0x100 + 256 * j.unit) d)
      else
        let pcrc := crcEnd j.crc
        (s.skpStep 4).skpAsk { j with pcrc := pcrc } (.program a (hdrBytes p j.gen j.len pcrc (s.storeFlags p)))
    | 4 => (s.skpStep 5).setJob { j with unit := 0, crc := crcStart }
    | 5 =>
      if 256 * j.unit < j.len then
        let d := s.flashBytes (a + 0x100 + 256 * j.unit) (min 256 (j.len - 256 * j.unit))
        s.setJob { j with unit := j.unit + 1, crc := crcMore j.crc d }
      else if hdrOf p size (s.flashBytes a 32) = none ∨ crcEnd j.crc ≠ j.pcrc then s.skpEnd skpCRC
      else (s.skpStep 6).skpAsk j (.program (a + 0xF8) (leBytes 4 j.gen ++ leBytes 4 (2 ^ 32 - 1 - j.gen)))
    | _ => (s.skpReport j).skpEnd skpOK

/-! ### SCAN, ERASE and HASH (R457, R464, R465) -/

/-- The entry of a pair in SCAN's table, as a 64-bit word. -/
def scanEntry (a b : Option SlotHdr) : Nat :=
  match pickCurrent a b with
  | none => 2 ^ (32 + 27)
  | some (slot, h, _) =>
    h.gen + (h.len % 2 ^ 24 + b2n slot * 2 ^ 24 + b2n a.isSome * 2 ^ 25 + b2n b.isSome * 2 ^ 26) * 2 ^ 32

def State.scanUnit (s : State) (j : SkpJob) : State :=
  if !j.begun then
    if s.bufOk (8 * s.scenePairs) then s.setJob { j with begun := true } else s.skpEnd skpRANGE
  else
    let deep := s.bit SKP_CMD SKP_CMD_deep
    let a := s.slotIntact (.scene j.unit) deep false
    let b := s.slotIntact (.scene j.unit) deep true
    let s1 := (s.dmaWrite midKeeper (s.skpBuf + 8 * j.unit) .b64 (scanEntry a b)).2
    let s2 := s1.setFldIf ((pickCurrent a b).any fun x => x.2.2) SKP_RES_INFO SKP_RES_INFO_tie 1
    if j.unit + 1 < s.scenePairs then s2.setJob { j with unit := j.unit + 1 } else s2.skpEnd skpOK

/-- ERASE: the older slot, or B when neither is current, and then the other. A tie is shown (R456). -/
def State.eraseUnit (s : State) (p : PairId) (j : SkpJob) : State :=
  if !j.begun then
    let (b, tie) := match s.currentCopy p false with
      | none => (true, false)
      | some (c, _, t) => (!c, t)
    (s.setFldIf tie SKP_RES_INFO SKP_RES_INFO_tie 1).skpAsk { j with begun := true, slot := b, unit := 1 } (.erase (s.slotAddr p b) s.sectorSize)
  else if j.unit = 1 then s.skpAsk { j with unit := 2 } (.erase (s.slotAddr p (!j.slot)) s.sectorSize)
  else s.skpEnd skpOK

/-- The digest in SKP_DIGEST0–7. -/
def State.setDigest (s : State) (d : List Byte) : State :=
  (List.range 8).foldl (fun t i => t.setReg (SKP_DIGEST i) (BitVec.ofNat 32 (leNat (slice d (4 * i) 4)))) s

def State.hashUnit (s : State) : State :=
  if s.bufOk s.skpLen then
    match s.readBuf s.skpBuf s.skpLen with
    | (none, s1) => s1.skpEnd skpECC
    | (some d, s1) => ((s1.setDigest (sha256 d)).setReg SKP_RES_CRC (BitVec.ofNat 32 (crc32c d))).skpEnd skpOK
  else s.skpEnd skpRANGE

/-! ### Running a command -/

/-- The scene pair that SKP_CMD names. -/
def State.cmdPair (s : State) : PairId := .scene (s.fld SKP_CMD SKP_CMD_pair)

/-- One page, pair or check of the running command. Nothing happens while the flash is busy or the RAM is closed (R327,
R453). -/
def State.skpUnit (s : State) : State :=
  match s.skp.job with
  | none => s
  | some j =>
    if j.op.isSome || !s.ramOpen then s
    else match s.fld SKP_CMD SKP_CMD_op with
      | 1 => s.loadUnit s.cmdPair j
      | 2 => s.storeUnit s.cmdPair j
      | 3 => s.scanUnit j
      | 4 => s.eraseUnit s.cmdPair j
      | 5 => s.loadUnit .boot j
      | 6 => s.storeUnit .boot j
      | _ => s.hashUnit

def State.skpWork (s : State) : Nat → State
  | 0 => s
  | n + 1 => s.skpUnit.skpWork n

/-- A write to SKP_CMD (R457, R461, R463, R479). DEDUCED, log entry 128. -/
def writeSkpCmd (v : Word) : WriteEff := fun s =>
  let op := SKP_CMD_op.get v
  if s.pins.pfailLow || s.inLight then (.slverr, s)
  else if s.bit SKP_STAT SKP_STAT_busy then
    if SKP_CMD_abort.get v = 1 then (.ok, s.skpStop skpABORTED) else (.slverr, s)
  else if op = 0 ∨ 8 ≤ op ∨ s.scenePairs ≤ SKP_CMD_pair.get v then (.slverr, s)
  else (.ok, ((s.setReg SKP_CMD (v &&& 0x1FFFF)).setFld SKP_STAT SKP_STAT_busy 1).setJob jobReset)

/-- A command of the Keeper: its issue, or work on it while it is the one that runs. DESIGN CHOICE, log entry 123. -/
def State.skpEvent (s : State) (op : Nat) : SkpEvt → State
  | .issue m v => s.writeReg m.val SKP_CMD ((v &&& 0x7FFFFFF0) ||| BitVec.ofNat 32 op) (writeSkpCmd ((v &&& 0x7FFFFFF0) ||| BitVec.ofNat 32 op))
  | .work n => if s.fld SKP_CMD SKP_CMD_op = op then s.skpWork n else s

/-- LOAD (R458). -/
def execLoad (e : SkpEvt) (s : State) : Host.Outcome State Fault Refusal := s.run fun s => s.skpEvent 1 e

/-- STORE (R459). -/
def execStore (e : SkpEvt) (s : State) : Host.Outcome State Fault Refusal := s.run fun s => s.skpEvent 2 e

/-- SCAN (R464). -/
def execScan (e : SkpEvt) (s : State) : Host.Outcome State Fault Refusal := s.run fun s => s.skpEvent 3 e

/-- ERASE (R465). -/
def execErase (e : SkpEvt) (s : State) : Host.Outcome State Fault Refusal := s.run fun s => s.skpEvent 4 e

/-- LOAD_BOOT (R458). -/
def execLoadBoot (e : SkpEvt) (s : State) : Host.Outcome State Fault Refusal := s.run fun s => s.skpEvent 5 e

/-- STORE_BOOT (R459). -/
def execStoreBoot (e : SkpEvt) (s : State) : Host.Outcome State Fault Refusal := s.run fun s => s.skpEvent 6 e

/-- HASH (R457). -/
def execHash (e : SkpEvt) (s : State) : Host.Outcome State Fault Refusal := s.run fun s => s.skpEvent 7 e

/-- SKP_ABORT (R463): a write of 1 to SKP_CMD.abort. -/
def execSkpAbort (m : Mid) (v : Word) (s : State) : Host.Outcome State Fault Refusal :=
  s.run fun s => s.writeReg m.val SKP_CMD (v ||| 0x80000000) (writeSkpCmd (v ||| 0x80000000))

/-- The limit of an operation in polls of 10 µs. DEDUCED, log entry 129. -/
def State.pollMax (s : State) : FlashOp → Nat
  | .erase _ _ => 100 * s.fld SKP_TIMING SKP_TIMING_erase_max
  | .program _ _ => 100 * s.fld SKP_TIMING SKP_TIMING_prog_max

/-- A poll of the flash (R453): an operation that is over takes effect and the command goes on; one that stays busy for
longer than its limit ends the command. -/
def State.flashPoll (s : State) (ready : Bool) : State :=
  match s.skp.job with
  | none => s
  | some j => match j.op with
    | none => s
    | some op =>
      if ready then
        let s1 := (s.flashApply op).setJob { j with op := none, polls := 0 }
        match j.stop with
        | some r => s1.skpEnd r
        | none => s1.skpUnit
      else if s.pollMax op < j.polls + 1 then (s.flashTorn op).skpEnd skpFLASH
      else s.setJob { j with polls := j.polls + 1 }

/-- FLASH_POLL (R453): whether the flash answers ready. -/
def execFlashPoll (ready : Bool) (s : State) : Host.Outcome State Fault Refusal := s.runXo fun s => s.flashPoll ready

/-- PFAIL (R461): PFAIL_N takes a level; as it falls it stops the Keeper. The pin is powered from VAON. -/
def execPfail (low : Bool) (s : State) : Host.Outcome State Fault Refusal :=
  s.runAon fun s =>
    let s1 := { s with pins := { s.pins with pfailLow := low } }
    if s.awake && low && !s.pins.pfailLow then (s1.setFld SKP_STAT SKP_STAT_pfail 1).skpStop skpPFAIL else s1

/-! ### The OTP (R469) -/

/-- The words that accept no programming. -/
def otpLocked (otp : Tab Word) (w : Nat) : Bool :=
  w ≤ 1 || (3 ≤ w && w ≤ 7) || (bitOf (tabGet zeroWord otp 2).toNat 31 && 2 ≤ w && w ≤ 39)

/-- A write to SKP_OTP_CTRL: done is W1C, go starts a program unless one is in progress. DEDUCED, log entry 130. -/
def writeOtpCtrl (v : Word) : WriteEff := fun s =>
  let w := s.fld SKP_OTP_ADDR SKP_OTP_ADDR_addr
  let s1 := s.plainWrite SKP_OTP_CTRL v
  if SKP_OTP_CTRL_go.get v = 1 && s.skp.otpProg.isNone then
    if otpLocked s.otp w then (.perm, s) else (.ok, s1.modSkp fun k => { k with otpProg := some (w, s.reg SKP_OTP_WDATA) })
  else (.ok, s1)

/-- OTP_PROGRAM (R469): a write of 1 to go. -/
def execOtpProgram (m : Mid) (v : Word) (s : State) : Host.Outcome State Fault Refusal :=
  s.run fun s => s.writeReg m.val SKP_OTP_CTRL (v ||| 1) (writeOtpCtrl (v ||| 1))

/-- The end of an OTP program: bits are set to 1 only. SKP_BOOT_STAT.secure shows secure_boot (R474). -/
def State.otpDone (s : State) (w : Nat) (d : Word) : State :=
  let s1 := ((s.setFld SKP_OTP_CTRL SKP_OTP_CTRL_go 0).setFld SKP_OTP_CTRL SKP_OTP_CTRL_done 1).setFldIf
    (decide (w = 2) && bitOf d.toNat 0) SKP_BOOT_STAT SKP_BOOT_STAT_secure 1
  { s1.modSkp fun k => { k with otpProg := none } with otp := tabSet zeroWord s.otp w (tabGet zeroWord s.otp w ||| d) }

/-- OTP_PROGRAM_DONE (R469): the one command that changes an OTP word. -/
def execOtpProgramDone (s : State) : Host.Outcome State Fault Refusal :=
  .next (match s.skp.otpProg with
    | none => s
    | some (w, d) => if s.awake && !s.pwr.xoLost then { s.otpDone w d with pending := s.pending } else s)

/-! ### Registers (R474) -/

/-- SKP_SCN_CFG permits the region (R454). -/
def State.scnOk (s : State) (v : Word) : Bool :=
  let base := SKP_SCN_CFG_base.get v * 0x10000
  let lg := SKP_SCN_CFG_slot_log2.get v
  16 ≤ lg && lg ≤ 20 && 0x400000 ≤ base && base % 2 ^ (lg + 1) = 0 &&
    decide (base + (SKP_SCN_CFG_pairs.get v + 1) * 2 ^ (lg + 1) ≤ s.flashSize)

/-- SKP_FLASH_CFG permits its value; the five bits of div hold 32 as 0 (R451). -/
def flashCfgOk (v : Word) : Bool :=
  SKP_FLASH_CFG_mode.get v != 3 && 4 ≤ SKP_FLASH_CFG_size_log2.get v &&
    SKP_FLASH_CFG_size_log2.get v ≤ 12

/-- A write to a register of the Keeper. -/
def skpWrite (a : Nat) (v : Word) : WriteEff := fun s =>
  let busy := s.bit SKP_STAT SKP_STAT_busy
  if a = SKP_CMD then writeSkpCmd v s
  else if a = SKP_OTP_CTRL then writeOtpCtrl v s
  else if busy && (a = SKP_FLASH_CFG || a = SKP_SCN_CFG || a = SKP_BUF || a = SKP_LEN || a = SKP_TIMING) then (.slverr, s)
  else if (a = SKP_FLASH_CFG && !flashCfgOk v) || (a = SKP_SCN_CFG && !s.scnOk v) ||
      (a = SKP_TIMING && SKP_TIMING_prog_max.get v = 0) then (.slverr, s)
  else (.ok, s.plainWrite a v)

/-- A read of a register of the Keeper, or of the identity, that shows an OTP word (R469, R473). -/
def State.otpRead (s : State) (a : Nat) : Option Word :=
  if SKP_OTP 0 ≤ a ∧ a < SKP_OTP 64 then some (tabGet zeroWord s.otp ((a - SKP_OTP 0) / 4))
  else if a = SYS_SERIAL_LO then some (tabGet zeroWord s.otp 0)
  else if a = SYS_SERIAL_HI then some (tabGet zeroWord s.otp 1)
  else none

/-- A system reset stops the Keeper through the flash's own reset (R452, R463). -/
def State.skpReset (s : State) : State :=
  let s1 := match s.skp.job.bind fun j => j.op with
    | none => s
    | some op => s.flashTorn op
  s1.modSkp fun k => ⟨k.flash, none, .idle, none⟩

end Sys2Proof.Machine
end

