-- ==== Sys2Proof/Machine/Ember.lean ====
section
/-! DEFINITION. Power states, resets and the Ember (18), and the loss of the XO (21 R558). -/

namespace Sys2Proof.Machine

def State.modPwr (s : State) (f : Pwr → Pwr) : State := { s with pwr := f s.pwr }

/-- The codes of EMB_CAUSE.cause. -/
abbrev causeVaon := 1
abbrev causeResetN := 2
abbrev causeSoftware := 3
abbrev causeThermal := 7
abbrev causePwrFail := 8

/-- States in the codes of EMB_CAUSE.from and SYS_PWR_CTRL.target. -/
abbrev lvLight := 1
abbrev lvStandby := 2
abbrev lvOff := 3

def State.pwrState (s : State) : Nat := s.fld SYS_PWR_STAT SYS_PWR_STAT_state

def State.setPwrState (s : State) (n : Nat) : State := s.setFld SYS_PWR_STAT SYS_PWR_STAT_state n

/-- The Ember records a wake or a reset (R496). DEDUCED, log entry 137. -/
def State.setCause (s : State) (cause entry from' : Nat) : State :=
  ((s.setReg EMB_CAUSE (BitVec.ofNat 32 (cause + entry * 2 ^ 4 + from' * 2 ^ 9 + 2 ^ 31))).setReg EMB_CAUSE_RTC_LO
    (BitVec.ofNat 32 s.pwr.rtc)).setReg EMB_CAUSE_RTC_HI (BitVec.ofNat 32 (s.pwr.rtc / 2 ^ 32))

/-- The engine's state as EMB_CAUSE.from gives it: RUN or LIGHT while it is powered. -/
def State.fromCode (s : State) : Nat := if s.powered then b2n s.inLight else s.pwr.level

/-! ### Resets (R12, R488) -/

/-- A register of the Ember. -/
def emberReg (a : Nat) : Bool := 0x02100000 ≤ a && a < 0x02110000

/-- A wide value of the Ember. -/
def emberWide (k : Nat) : Bool := k = wideKey .rtc || k = wideKey .causeRtc || k = wideKey .xpRatio ||
  k = wideKey .xpNow || k = alarmKey

/-- What a system reset leaves of a Hearth (R259): the reset of R258, at the reset values of its HRT registers. -/
def Hearth.systemReset (h : Hearth) : Hearth :=
  { h.afterReset 0 hearthReset.spill with pcFresh := true, paramIn := [], ctlIn := [], pace := hearthReset.pace }

/-- What a reset that keeps the RAMs leaves of a lane (R397). -/
def Lane.systemReset (o : Lane) : Lane :=
  { laneReset with
    prog := o.prog, data := o.data, keep := o.keep, progBad := o.progBad, dataBad := o.dataBad, keepBad := o.keepBad }

/-- Every Hearth's store buffer drains to its RAM (R258). -/
def State.drainEvery (s : State) : State := (List.range 192).foldl State.drainAll s

/-- The straps as they are sampled at the end of a system reset, and the bank supplies compared with them (R466, R540). The EVC
begins at the levels that its pins have then, so that no source is PENDING after it (R12, R450). DEDUCED, log entry 141. -/
def State.sampleStraps (s : State) : State :=
  let oct := s.pins.flashOct
  let cfg : Word := if oct then 0x10609 else 0x620
  (((s.setReg SKP_FLASH_CFG cfg).setReg SKP_BOOT_STAT
    (BitVec.ofNat 32 (s.pins.bootMode % 4 + b2n oct * 2 ^ 2 + b2n (bitOf (tabGet zeroWord s.otp 2).toNat 0) * 2 ^ 12))).setReg
    SAP_GLOBAL (BitVec.ofNat 32 (s.pins.sapv % 16))).compareBanks.seePins

/-- Everything below the Ember at its reset state. Flash, OTP, pins, the Ember and each MID's last reply stay.
DEDUCED, log entry 140. -/
def State.belowReset (s : State) : State :=
  { State.reset with
    regs := s.regs.filter fun e => emberReg e.1
    wide := s.wide.filter fun e => emberWide e.1
    replies := s.replies, skp := s.skpReset.skp, pwr := s.pwr, pins := { s.pins with pulses := [], tempAlarm := false },
    otp := s.otp, freeCtr := s.skpReset.freeCtr, now := s.now, pending := s.pending }

/-- At a reset, a Mantel word write of a Hearth whose tokens have all reached the memory station is applied whole; every other one
is lost (R560). -/
def State.moveLastWrites (s : State) : State :=
  s.flue.moves.foldl (fun s e => e.2.foldl (fun s o => match o.stage, o.acc.write with
    | .going 0, some v => if o.acc.addr < 0x00800000 && o.copy.isNone then (s.mantelWrite e.1 o.acc.addr (sizeBytes o.acc.size) v.toNat).2 else s
    | _, _ => s) s) s

/-- A system reset that keeps the RAMs: Mantel, tile RAMs and pending slots, and the Bellows RAMs (R397, R478, R488). -/
def State.keepReset (s : State) : State :=
  let d := s.moveLastWrites.drainEvery
  let t := { d.belowReset with
    mantel := d.mantel, flips := d.flips
    hearths := tabMap hearthDefault (fun _ h => h.systemReset) d.hearths
    bel := { State.reset.bel with lanes := tabMap laneDefault (fun _ o => o.systemReset) d.bel.lanes } }
  t.setReg MEMC_STATUS (s.reg MEMC_STATUS)

/-- The scrubber holds its place and its pass over STANDBY, to go on from there in RUN (R325); the reset of the other block
registers (R478) leaves them out. DEDUCED, log entry 160. -/
def State.keepScrub (s old : State) : State :=
  [MEMC_SCRUB_CTRL, MEMC_SCRUB_START, MEMC_SCRUB_END, MEMC_SCRUB_RATE, MEMC_SCRUB_POS].foldl
    (fun t a => t.setReg a (old.reg a)) { s with scrub := old.scrub }

/-- The reset of RSG_CTRL is a change of family or mult like any other (R497). -/
def State.xpRestartIf (s : State) (old : Word) : State :=
  if RSG_CTRL_family.get old != 0 || RSG_CTRL_mult.get old != 0 then s.xpRestart else s

/-- A system reset from RUN or LIGHT, with its cause (R489, R490, R496, R497). DEDUCED, log entry 139. -/
def State.sysReset (s : State) (cause : Nat) : State :=
  let t := s.keepReset.sampleStraps.xpRestartIf (s.reg RSG_CTRL)
  let u := t.modPwr fun p => { p with level := 0, due := false, hold := false, ports := [] }
  (u.setFld EMB_STAT EMB_STAT_state 0).setCause cause 0 s.fromCode

/-- RESET_N (R489): the pin falls, or has risen for 20 µs. In STANDBY and OFF an edge has no effect. -/
def execResetN (low : Bool) (s : State) : Host.Outcome State Fault Refusal :=
  s.runAon fun s =>
    if !s.powered then s
    else if low then (if s.pwr.pinReset then s else (s.sysReset causeResetN).modPwr fun p => { p with pinReset := true })
    else if s.pwr.pinReset then s.sampleStraps.modPwr fun p => { p with pinReset := false }
    else s

/-- A write to SYS_RST_CTRL (R490). -/
def writeRstCtrl (v : Word) : WriteEff := fun s =>
  if SYS_RST_CTRL_key.get v = 0xA5 then (.ok, if SYS_RST_CTRL_sys.get v = 1 then s.sysReset causeSoftware else s)
  else (.slverr, s)

/-- SOFTWARE_RESET (R490): the write, and the reset of 20 µs. -/
def execSoftwareReset (m : Mid) (v : Word) (s : State) : Host.Outcome State Fault Refusal :=
  s.run fun s => s.writeReg m.val SYS_RST_CTRL v (writeRstCtrl v)

/-! ### PWR_EN (R483, R484) -/

/-- The level of output i in a state. -/
def State.enLevel (s : State) (i lv : Nat) : Bool :=
  s.bit (EMB_PWR_EN i) (if lv = lvOff then EMB_PWR_EN_off else if lv = lvStandby then EMB_PWR_EN_standby else EMB_PWR_EN_run)

/-- The outputs that change on a move, in ascending order. -/
def State.enSeq (s : State) (a b : Nat) : List Nat :=
  (List.range 4).flatMap fun o => (List.range 4).filter fun i =>
    s.fld (EMB_PWR_EN i) EMB_PWR_EN_order = o && s.enLevel i a != s.enLevel i b

/-- The outputs at the levels of a state. -/
def State.enAll (s : State) (lv : Nat) : Nat := (List.range 4).foldl (fun acc i => acc + b2n (s.enLevel i lv) * 2 ^ i) 0

/-- A state is reached on the way down. -/
def State.pwrReached (s : State) : State :=
  (s.setFld EMB_STAT EMB_STAT_state s.pwr.target).modPwr fun p => { p with mode := .asleep, level := p.target }

/-- The rails step down to STANDBY or OFF. -/
def State.pwrDown (s : State) (target : Nat) : State :=
  let q := (s.enSeq s.fromCode target).reverse
  let t := s.modPwr fun p => { p with mode := .down, target := target, seq := q, due := false, hold := false }
  if q = [] then t.pwrReached else t

/-- The rails power up from the state the engine is in. -/
def State.pwrUp (s : State) (vaon : Bool) : State :=
  s.modPwr fun p => { p with mode := .up, target := 0, seq := s.enSeq p.level 0, hit := none, vaon := vaon }

/-- PWR_EN_STEP (R484): the next output changes after its delay. DESIGN CHOICE, log entry 138. -/
def execPwrEnStep (s : State) : Host.Outcome State Fault Refusal :=
  s.runAon fun s => match s.pwr.seq with
    | [] => s
    | i :: rest =>
      let on := s.enLevel i s.pwr.target
      let en := if on then s.pwr.en ||| 2 ^ i else s.pwr.en - (if bitOf s.pwr.en i then 2 ^ i else 0)
      let t := s.modPwr fun p => { p with seq := rest, en := en }
      if rest = [] ∧ s.pwr.mode = .down then t.pwrReached else t

/-- The last change up has been made. -/
def State.pwrWaits (s : State) : Bool := decide (s.pwr.mode = .up) && s.pwr.seq = []

/-- RAILS_GOOD (R484, R485, R487): VCORE, VMEM and the XO are good, and a system reset is released: from STANDBY with the RAMs
as they were, from OFF with the clear to come (R326). -/
def execRailsGood (s : State) : Host.Outcome State Fault Refusal :=
  s.runAon fun s =>
    if s.pwrWaits then
      let t := if s.pwr.level = lvStandby then (s.keepReset.keepScrub s).setReg MEMC_STATUS 1 else s.belowReset
      ((t.sampleStraps.setFld EMB_STAT EMB_STAT_state 0).xpRestartIf (s.reg RSG_CTRL)).modPwr fun p => { p with
        mode := .on, level := 0, due := false, hold := false, ports := [], pinReset := false, perstReset := false, xoLost := false }
    else s

/-- PWR_GOOD_TIMEOUT (R484): the rails are not good in 20 ms. -/
def execPwrGoodTimeout (s : State) : Host.Outcome State Fault Refusal :=
  s.runAon fun s =>
    if s.pwrWaits then
      ((s.setCause causePwrFail 0 s.pwr.level).setFld EMB_STAT EMB_STAT_pwr_fail 1).modPwr fun p => { p with
        mode := .asleep, target := p.level, en := s.enAll p.level }
    else s

/-- VAON_POWER_ON (R488): the Ember is reset, everything else was without power, and the rails come up. -/
def execVaonPowerOn (s : State) : Host.Outcome State Fault Refusal :=
  s.runAon fun s =>
    let t := { State.reset with
      replies := s.replies, skp := s.skpReset.skp, pins := { s.pins with pulses := [], tempAlarm := false }, otp := s.otp,
      freeCtr := s.skpReset.freeCtr, now := s.now, pending := s.pending }
    (t.modPwr fun p => { p with level := lvOff, en := t.enAll lvOff }).pwrUp true

/-! ### The watch list (R494, R495) -/

/-- The level of a watched pin, or alarm. In STANDBY and OFF the GPIO outputs are high-impedance (R521, R536). -/
def State.watchLevel (s : State) (src : Nat) : Bool :=
  if src < 16 then (if s.powered then s.gpioLevel src else bitOf s.pins.gpio.toNat src)
  else if src = 16 then !s.pins.perstLow
  else if src = 26 then !s.pins.pfailLow
  else s.bit EMB_STAT EMB_STAT_alarm

/-- The source of entry i is sensed by its level, and the level is as the entry asks. DEDUCED, log entry 144. -/
def State.watchTrue (s : State) (i : Nat) : Bool :=
  let src := s.fld (EMB_WATCH i) EMB_WATCH_src
  let sense := s.fld (EMB_WATCH i) EMB_WATCH_sense
  if src = 27 then s.watchLevel 27
  else (src ≤ 16 || src = 26) && ((sense = 3 && s.watchLevel src) || (sense = 4 && !s.watchLevel src))

/-- Entry i is sensed by a level. -/
def State.watchByLevel (s : State) (i : Nat) : Bool :=
  let src := s.fld (EMB_WATCH i) EMB_WATCH_src
  src = 27 || ((src ≤ 16 || src = 26) && 3 ≤ s.fld (EMB_WATCH i) EMB_WATCH_sense)

def State.watchOn (s : State) (i : Nat) : Bool := s.bit (EMB_WATCH i) EMB_WATCH_en

/-! ### LIGHT (R479 to R481) -/

/-- The port stops for LIGHT. -/
def State.portHalt (s : State) (k : Nat) : State :=
  let s1 := s.portStop k
  if 16 ≤ k && k < 32 then s1.loseLock k else s1

/-- The port restarts as though its en had just been set (R147). -/
def State.portRestart (s : State) (k : Nat) : State :=
  let s1 := s.portBegin k
  if k < 16 then
    s1.setFld (SAP_STAT k) stWaiting (s.fld (SAP_CTRL k) SAP_CTRL_master * s.fld (SAP_CTRL k) SAP_CTRL_start_mode)
  else if k < 40 then s1.setFld (portStat k) stRunning 1
  else s1

/-- Every port that runs. -/
def State.runningPorts (s : State) : List Nat := (List.range 42).filter s.portRuns

/-- The SerDes lanes power down: the Ethernet links are lost and every Chimney port goes DOWN. -/
def State.lanesDown (s : State) : State :=
  let net (t : State) (p : Nat) : State :=
    if t.bit (NET_MAC_STAT p) NET_MAC_STAT_link then
      (t.setFld (NET_MAC_STAT p) NET_MAC_STAT_link 0).setFld (NET_MAC_STAT p) NET_MAC_STAT_link_chg 1
    else t
  let chm (t : State) (p : Nat) : State :=
    (if t.chmState p = chmDown then t else t.chmGoDown p).modChmPort p fun c => { c with lock := false, run := 0, hdrs := [] }
  (List.range 4).foldl chm ((List.range 2).foldl net s)

/-- LIGHT_ENTRY (R479): at the first Rally instant after go. DESIGN CHOICE, log entry 135. -/
def execLightEntry (s : State) : Host.Outcome State Fault Refusal :=
  s.run fun s =>
    if s.pwrState = 4 ∧ s.pwr.target = lvLight ∧ s.pwr.due = true then
      let l := s.runningPorts
      let t := ((l.foldl State.portHalt s).lanesDown).belHaltAll
      ((t.setPwrState 1).setFld EMB_STAT EMB_STAT_state 1).modPwr fun p => { p with ports := l, hold := true, due := false }
    else s

/-- The end of LIGHT (R481), by watch entry i or by a source. -/
def State.lightExit (s : State) (entry : Option Nat) : State :=
  let fresh (r : Rsg) : Rsg := { r with
    cands := tabMap candDefault (fun _ c => { c with past := [], pres := 0 }) r.cands, wclk := [] }
  let t := (s.pwr.ports.foldl State.portRestart s).modRsg fresh
  let u := ((t.setPwrState 5).setFld EMB_STAT EMB_STAT_state 0).setCause (3 + lvLight) (entry.getD 0) lvLight
  u.modPwr fun p => { p with ports := [] }

/-- A source is deliverable to a target that ends LIGHT. -/
def State.lightWake (s : State) : Bool :=
  (List.range 8).any fun t => bitOf (s.reg SYS_PWR_LWAKE).toNat t && (s.claimable t).isSome

/-- LIGHT_EXIT (R481): a source has become deliverable. -/
def execLightExit (s : State) : Host.Outcome State Fault Refusal :=
  s.run fun s => if s.inLight && s.lightWake then s.lightExit none else s

/-- The exit from LIGHT is over within 50 µs (R481). -/
def State.exitTick (s : State) : State := if s.pwrState = 5 then s.setPwrState 0 else s

/-! ### Going to sleep and waking (R476, R477, R482, R485, R495) -/

/-- The Damper's commit queue is not empty. -/
def State.dmpBusy (s : State) : Bool := s.dmp.items != [] || s.dmp.closed != [] || s.dmp.delivery.isSome

/-- Why an entry is refused; 0 when it is not (R477). -/
def State.pwrRefusal (s : State) (target : Nat) : Nat :=
  if s.bit SKP_STAT SKP_STAT_busy || s.dmpBusy then 1
  else if (List.range 32).any fun i => s.watchOn i && s.watchTrue i then 2
  else if target = lvLight && s.lightWake then 3
  else 0

/-- A write to SYS_PWR_CTRL (R476, R477). DEDUCED, log entry 136. -/
def writePwrCtrl (v : Word) : WriteEff := fun s =>
  let target := SYS_PWR_CTRL_target.get v
  if SYS_PWR_CTRL_go.get v = 0 then (.ok, s.setReg SYS_PWR_CTRL (v &&& 3))
  else if target = 0 ∨ s.pwrState ≠ 0 then (.slverr, s)
  else
    let r := s.pwrRefusal target
    let t := s.setFld SYS_PWR_STAT SYS_PWR_STAT_result r
    (.ok, if r != 0 then t
      else ((t.setReg SYS_PWR_CTRL (v &&& 3)).setPwrState 4).modPwr fun p => { p with target := target, due := false, hit := none })

/-- PWR_GO (R476): a write of go. -/
def execPwrGo (m : Mid) (v : Word) (s : State) : Host.Outcome State Fault Refusal :=
  s.run fun s => s.writeReg m.val SYS_PWR_CTRL (v ||| 0x100) (writePwrCtrl (v ||| 0x100))

/-- STANDBY_ENTRY (R482, R498): ports, lanes and Hearths have stopped, posted writes are applied, the Ember takes its snapshot
at the Rally instant, and the enables begin to step down. -/
def execStandbyEntry (s : State) : Host.Outcome State Fault Refusal :=
  s.run fun s =>
    if s.pwrState = 4 ∧ lvStandby ≤ s.pwr.target ∧ s.pwr.due = true then
      let t := (((s.runningPorts.foldl State.portHalt s).lanesDown).belHaltAll).drainEvery
      let u := (List.range 192).foldl (fun x n => if x.running n then x.haltHearth n else x) t
      let w := (u.modPwr fun p => { p with
        xp := { p.xp with r0 := s.rallyCount, t0 := p.rtc * 65536 + p.rtcSub } }).setFld EMB_STAT EMB_STAT_xp_running 1
      w.pwrDown s.pwr.target
    else s

/-- WATCH_HIT (R494, R495): entry i finds its condition. -/
def execWatchHit (i : Fin 32) (s : State) : Host.Outcome State Fault Refusal :=
  s.runAon fun s =>
    let i := i.val
    let latch : State := s.modPwr fun p => { p with hit := some (min i (p.hit.getD i)) }
    let more : State := s.setFld EMB_CAUSE EMB_CAUSE_hits (min 255 (s.fld EMB_CAUSE EMB_CAUSE_hits + 1))
    if !s.watchOn i || (s.watchByLevel i && !s.watchTrue i) then s
    else match s.pwr.mode with
      | .on =>
        if s.pwr.pinReset || s.pwr.perstReset then s
        else if s.inLight then s.lightExit (some i)
        else if s.pwrState = 4 && lvStandby ≤ s.pwr.target then latch
        else if s.pwrState = 5 then more
        else s
      | .up => more
      | _ => latch

/-- WAKE (R485, R487, R495): at an RTC tick in STANDBY or OFF a latched hit starts the wake. -/
def execWake (s : State) : Host.Outcome State Fault Refusal :=
  s.runAon fun s => match s.pwr.mode, s.pwr.hit with
    | .asleep, some i => (s.setCause (3 + s.pwr.level) i s.pwr.level).pwrUp false
    | _, _ => s

/-- The clear starts (R326, R397): every RAM is written with zero. -/
def execClearOnWake (s : State) : Host.Outcome State Fault Refusal :=
  s.run fun s =>
    if s.ramOpen then s
    else
      let s1 := { s with
        mantel := [], flips := [], hearths := tabMap hearthDefault (fun _ h => h.cleared) s.hearths
        bel := { s.bel with lanes := tabMap laneDefault (fun _ o => o.cleared) s.bel.lanes } }
      s1.setFld MEMC_STATUS MEMC_STATUS_clearing 1

/-! ### Temperature (R500, R501, R503) -/

/-- TEMP_SAMPLE (R500, R503): each 1 ms, the sensor in 1/16 °C and the replica's rate in M steps/s.
DEDUCED, log entry 146. -/
def execTempSample (temp rate : BitVec 16) (s : State) : Host.Outcome State Fault Refusal :=
  s.runXo fun s =>
    let t := temp.toInt
    let alarm := signed 16 (s.fld SYS_TEMP_CFG SYS_TEMP_CFG_alarm)
    let on := if alarm ≤ t then true else if t ≤ alarm - 32 then false else s.pins.tempAlarm
    { (s.setReg SYS_TEMP (temp.zeroExtend 32)).setReg SYS_RATE (rate.zeroExtend 32) with
      pins := { s.pins with tempAlarm := on } }

/-- THERMAL_SHUTDOWN (R501): SYS_TEMP has stayed at or above crit for 1 ms. -/
def execThermalShutdown (s : State) : Host.Outcome State Fault Refusal :=
  s.runXo fun s =>
    if signed 16 (s.fld SYS_TEMP_CFG SYS_TEMP_CFG_crit) ≤ signed 16 (s.fld SYS_TEMP SYS_TEMP_temp) then
      let t := (List.range 192).foldl (fun x n => if x.running n then x.haltHearth n else x) s.belHaltAll
      ((t.setCause causeThermal 0 s.fromCode).modPwr fun p => { p with hit := none }).pwrDown lvOff
    else s

/-! ### The RTC and the extrapolator (R491, R492, R497, R498) -/

/-- q over the window of 2^n ticks, in units of 2^−32 per tick. -/
def xpRatio (n last first : Nat) : Nat := (last - first) * 2 ^ 24 / 2 ^ n

/-- The measurement at a tick: `phase` is the elapsed fraction of the Ts in 1/256 (R497). DEDUCED, log entry 142. -/
def State.xpTick (s : State) (phase : Nat) : State :=
  if s.awake && s.bit EMB_XP_CFG EMB_XP_CFG_en then
    let n := s.fld EMB_XP_CFG EMB_XP_CFG_win_log2
    let pos := s.pwr.xp.inst * 256 + phase
    let hist := (pos :: s.pwr.xp.hist).take (2 ^ n + 1)
    let t := s.modPwr fun p => { p with xp := { p.xp with hist := hist } }
    if hist.length = 2 ^ n + 1 then
      let q := xpRatio n pos (hist.getLastD pos)
      let code := RSG_CTRL_family.get (s.reg RSG_CTRL) * 4 + RSG_CTRL_mult.get (s.reg RSG_CTRL)
      (((t.setReg EMB_XP_RATIO_LO (BitVec.ofNat 32 q)).setReg EMB_XP_RATIO_HI (BitVec.ofNat 32 (q / 2 ^ 32 % 256))).setFld
        EMB_STAT EMB_STAT_xp_valid 1).modPwr fun p => { p with xp := { p.xp with fam := code } }
    else t
  else s.modPwr fun p => { p with xp := { p.xp with hist := [] } }

/-- The next value of the RTC: a pending load, or one more (R55, R58, R491). -/
def State.rtcNext (s : State) : State :=
  match s.takeLoad (wideKey .rtc) with
  | some (v, t) => t.modPwr fun p => { p with rtc := v % 2 ^ 48 }
  | none =>
    let r := (s.pwr.rtc + 1) % 2 ^ 48
    (s.setFldIf (r = 0) EMB_RTC_STAT EMB_RTC_STAT_wrapped 1).modPwr fun p => { p with rtc := r }

/-- The alarm's tick (R492). -/
def State.alarmTick (s : State) : State :=
  s.setFldIf (s.bit EMB_ALARM_HI EMB_ALARM_HI_en && decide (s.pwr.rtc = s.pwr.alarm)) EMB_STAT EMB_STAT_alarm 1

/-- The whole of an RTC tick. -/
def State.rtcTick (phase : Nat) (s : State) : State := (s.rtcNext.alarmTick).xpTick phase

/-- RTC_TICK (R491, R492, R497): a tick of the 32.768 kHz oscillator. -/
def execRtcTick (phase : BitVec 8) (s : State) : Host.Outcome State Fault Refusal := s.runAon (State.rtcTick phase.toNat)

/-- EMB_XP_NOW at an RTC time in 1/65536 tick (R498). DEDUCED, log entry 143. -/
def State.xpNowAt (s : State) (t : Nat) : Nat :=
  let q := (s.reg EMB_XP_RATIO_LO).toNat + (s.reg EMB_XP_RATIO_HI).toNat * 2 ^ 32
  if s.bit EMB_STAT EMB_STAT_xp_running then (s.pwr.xp.r0 + (t - s.pwr.xp.t0) * q / 2 ^ 48) % 2 ^ 48 else 0

/-- XO_LOSS (R558): nothing that runs on the XO happens any more; no register shows it. DEDUCED, log entry 147. -/
def execXoLoss (s : State) : Host.Outcome State Fault Refusal :=
  s.runAon fun s => s.modPwr fun p => { p with xoLost := true }

/-! ### Registers (R504) -/

/-- EMB_PWR_EN(i) keeps four different orders. -/
def State.orderOk (s : State) (i : Nat) (v : Word) : Bool :=
  (List.range 4).all fun j => j = i || s.fld (EMB_PWR_EN j) EMB_PWR_EN_order != EMB_PWR_EN_order.get v

/-- A write to a power register of the SYS block. -/
def sysPwrWrite (a : Nat) (v : Word) : WriteEff :=
  if a = SYS_PWR_CTRL then writePwrCtrl v
  else if a = SYS_RST_CTRL then writeRstCtrl v
  else if a = SYS_TEMP_CFG then
    let c := signed 16 (SYS_TEMP_CFG_crit.get v)
    acceptIf (960 ≤ c && c ≤ 2000) fun s => s.plainWrite a v
  else accept fun s => s.plainWrite a v

/-- A write to a register of the Ember other than the RTC's words. -/
def embWrite (a : Nat) (v : Word) : WriteEff := fun s =>
  let run := s.pwrState = 0
  let i := (a - EMB_PWR_EN 0) / 4
  if EMB_PWR_EN 0 ≤ a ∧ a < EMB_PWR_EN 4 then acceptIf (run && s.orderOk i v) (fun s => s.plainWrite a v) s
  else if a = EMB_PWR_SEQ then
    acceptIf (run && EMB_PWR_SEQ_up_dly.get v != 0 && EMB_PWR_SEQ_down_dly.get v != 0) (fun s => s.plainWrite a v) s
  else if a = EMB_XP_CFG then
    let n := EMB_XP_CFG_win_log2.get v
    acceptIf (run && 18 ≤ n && n ≤ 24)
      (fun s => (s.plainWrite a v).modPwr fun p => { p with
        xp := { p.xp with hist := if n = s.fld EMB_XP_CFG EMB_XP_CFG_win_log2 then p.xp.hist else [] } }) s
  else if EMB_WATCH 0 ≤ a ∧ a < EMB_WATCH 32 then
    acceptIf (EMB_WATCH_src.get v < 28 && EMB_WATCH_sense.get v ≤ 4) (fun s => s.plainWrite a v) s
  else if a = EMB_ALARM_LO then (.ok, s.setWide alarmKey { s.wideOf alarmKey with staged0 := v })
  else if a = EMB_ALARM_HI then
    let lo := (s.wideOf alarmKey).staged0
    (.ok, (((s.plainWrite a v).setReg EMB_ALARM_LO lo).setWide alarmKey (wideDefault 0)).modPwr fun p => { p with
      alarm := lo.toNat + EMB_ALARM_HI_alarm.get v * 2 ^ 32 })
  else (.ok, s.plainWrite a v)

end Sys2Proof.Machine
end

