-- ==== Sys2Proof/Machine/Sys.lean ====
section
/-! DEFINITION. Fences and balls (02 R60, R66 to R74). -/

namespace Sys2Proof.Machine

/-! ### The fence (R60) -/

/-- A read of SYS_FENCE once every earlier access of the reader has completed: the summary is the reader's own and clears. -/
def State.fenceRead (m : Nat) (s : State) : Resp × Word × State :=
  let f := tabGet fenceDefault s.fences m
  (.ok, BitVec.ofNat 32 (f.firstErr + f.errCount * 2 ^ 8),
    { s with fences := tabSet fenceDefault s.fences m ⟨0, 0⟩ })

/-! ### Balls (R66 to R74) -/

/-- A free ball. -/
def ballDefault (_ : Nat) : Ball := ⟨none, 0, 0⟩

def State.ball (s : State) (b : Nat) : Ball := tabGet ballDefault s.balls b

def State.setBall (s : State) (b : Nat) (v : Ball) : State := { s with balls := tabSet ballDefault s.balls b v }

/-- A read of SYS_BALL(b) by master m (R66, R71): a free ball is granted and its lease latched; the owner's lease
restarts; otherwise the owner is reported. -/
def State.ballRead (m b : Nat) (s : State) : Resp × Word × State :=
  let x := s.ball b
  match x.owner with
  | none => (.ok, BitVec.ofNat 32 (m + 2 ^ 31), s.setBall b ⟨some m, s.fld (SYS_BALL_LEASE b) SYS_BALL_LEASE_lease, 0⟩)
  | some o =>
    if o = m then (.ok, BitVec.ofNat 32 (m + 2 ^ 31), s.setBall b { x with count := 0 })
    else (.ok, BitVec.ofNat 32 o, s)

/-- A write of v to SYS_BALL(b) by master m (R68): judged on the whole value. -/
def writeBall (m b : Nat) (v : Word) : WriteEff := fun s =>
  if v ≠ 0 then (.slverr, s)
  else if (s.ball b).owner = some m then (.ok, s.setBall b ⟨none, 0, 0⟩)
  else (.perm, s)

/-- SYS_BALL_PEEK(b) as it reads (R69). -/
def State.ballPeek (s : State) (b : Nat) : Word :=
  match (s.ball b).owner with
  | none => 0
  | some o => BitVec.ofNat 32 (o + 2 ^ 31)

/-- A turnover of ball b with a cause: 1 lease, 2 forced (R73). Where SYS_BALL_TURNED0–7 lie: -/
def State.turnover (s : State) (b cause : Nat) : State :=
  match (s.ball b).owner with
  | none => s
  | some o =>
    let s1 := (s.setBall b ⟨none, 0, 0⟩).setReg (SYS_BALL_TURNED (b / 32))
      (s.reg (SYS_BALL_TURNED (b / 32)) ||| BitVec.ofNat 32 (2 ^ (b % 32)))
    if s1.bit SYS_BALL_TURN_INFO SYS_BALL_TURN_INFO_valid then s1
    else s1.setReg SYS_BALL_TURN_INFO (BitVec.ofNat 32 (b + o * 2 ^ 8 + cause * 2 ^ 18 + 2 ^ 31))

/-- A write to SYS_BALL_TURNOVER (R72): a Hearth owner must be halted, with its fence gated and drained. -/
def writeTurnover (v : Word) : WriteEff := fun s =>
  let b := SYS_BALL_TURNOVER_ball.get v
  match (s.ball b).owner with
  | none => (.ok, s)
  | some o =>
    if o < 192 && (s.running o || !s.bit (HRT_FENCE o) HRT_FENCE_gate || !s.drained o) then (.perm, s)
    else (.ok, s.turnover b 2)

/-- A Rally instant of the leases: an owned ball with a lease counts (R71). -/
def State.leaseTick (s : State) : State :=
  let tick (_ : Nat) (x : Ball) : Ball := if x.owner.isSome && x.lease != 0 then { x with count := x.count + 1 } else x
  { s with balls := tabMap ballDefault tick s.balls }

/-- BALL_ACQUIRE (R66). -/
def execBallAcquire (m : Mid) (b : Fin 256) (s : State) : Host.Outcome State Fault Refusal :=
  s.run fun s => s.readReg m.val (SYS_BALL b.val) (State.ballRead m.val b.val)

/-- BALL_RELEASE (R68): a write of v to SYS_BALL(b). -/
def execBallRelease (m : Mid) (b : Fin 256) (v : Word) (s : State) : Host.Outcome State Fault Refusal :=
  s.run fun s => s.writeReg m.val (SYS_BALL b.val) v (writeBall m.val b.val v)

/-- LEASE_EXPIRY (R71): the ball has counted its latched lease of Rally instants. -/
def execLeaseExpiry (b : Fin 256) (s : State) : Host.Outcome State Fault Refusal :=
  s.runXo fun s =>
    let x := s.ball b.val
    if x.lease != 0 && decide (x.lease ≤ x.count) then s.turnover b.val 1 else s

/-- FORCED_TURNOVER (R72). -/
def execForcedTurnover (m : Mid) (v : Word) (s : State) : Host.Outcome State Fault Refusal :=
  s.run fun s => s.writeReg m.val SYS_BALL_TURNOVER v (writeTurnover v)

end Sys2Proof.Machine
end

