-- ==== Sys2Proof/Machine/Rally.lean ====
section
/-! DEFINITION. The Rally instant (04 R123 to R127, R137), the firing of time triggers (R129 to R131), and the arrival of
tokens at output stations (01 R27). -/

namespace Sys2Proof.Machine

/-! ### The test against the schedule (R125, R126) -/

/-- The test of R126 at a Rally instant: an error beyond guard realigns at the next instant. The largest error is kept for the
loop's lock (R93). -/
def State.rallyTest (s : State) : State :=
  if s.rallySrc = 1 then
    let e := s.rallyErr.natAbs
    let s1 := s.modRsg fun r => { r with phase := max r.phase e }
    if s.fld TSU_RALLY_CFG TSU_RALLY_CFG_guard * tsUnits < e then s1.modTsu fun t => { t with realign := true } else s1
  else s

/-- A read of TSU_RALLY_ERR: in 1/256 Ts, rounded to either neighbour; 0 unless src is PTP (R125). -/
def State.rallyErrRead (s : State) : Resp × Word × State :=
  if s.rallySrc = 1 then
    let (r, s1) := s.roundFree (s.rallyErr * 256) tsUnits
    (.ok, BitVec.ofInt 32 (clampInt 32 r), s1)
  else (.ok, 0, s)

/-! ### The count (R123, R127, R415, R499) -/

/-- The increment, or a pending load of software in its place (R55, R123). -/
def State.rallyAdvance (s : State) : State :=
  match s.takeLoad (wideKey .rally) with
  | some (v, t) => { t with rallyCount := v % rallyMod }
  | none =>
    let n := (s.rallyCount + 1) % rallyMod
    { s.setFldIf (n = 0) TSU_RALLY_STAT TSU_RALLY_STAT_wrapped 1 with rallyCount := n }

/-- The load at wake (R499): `rtcSub` is the fraction of the RTC tick that has elapsed. -/
def State.rallyWake (s : State) (rtcSub : Nat) : State :=
  if s.bit EMB_STAT EMB_STAT_xp_running && s.bit RSG_CTRL RSG_CTRL_en then
    let same := s.fld RSG_CTRL RSG_CTRL_family * 4 + s.fld RSG_CTRL RSG_CTRL_mult = s.pwr.xp.fam
    let t := if same then { s with rallyCount := s.xpNowAt (s.pwr.rtc * 65536 + rtcSub) }
      else s.setFld EMB_STAT EMB_STAT_xp_mismatch 1
    t.setFld EMB_STAT EMB_STAT_xp_running 0
  else s

/-- The realign of R126: the load, its record, and the streams' restart (R193). -/
def State.rallyRealign (s : State) : State :=
  if s.tsu.realign then
    let n := s.scheduleCount
    let jump := clampInt 32 ((n : Int) - s.rallyCount)
    (((({ s with rallyCount := n }).setReg TSU_RALLY_JUMP (BitVec.ofInt 32 jump)).setFld TSU_STATUS TSU_STATUS_realign 1).modTsu
      fun t => { t with realign := false }).netJump
  else s

/-- The realign of a Chimney follower (R415). -/
def State.rallyChimney (s : State) : State := ({ s with rallyCount := s.realignCount s.rallyCount % rallyMod }).realignNote

/-- The count of the instant, loads first (R137). -/
def State.rallyLoad (s : State) (rtcSub : Nat) : State := ((s.rallyAdvance.rallyWake rtcSub).rallyRealign).rallyChimney

/-- A forward jump from the count that the increment would have given to n passes over k (R127). -/
def jumpedOver (next n k : Nat) : Bool :=
  let d := (n + rallyMod - next) % rallyMod
  decide (d < 2 ^ 47) && decide ((k + rallyMod - next) % rallyMod < d)

/-! ### What a Rally instant brings about -/

/-- A Hearth at a Rally instant: its latch (R241), an arrival of the Pace monitor in WAITS mode (R32, R34), the zero-crossing
window (R254) and the watchdog (R250). In LIGHT the latch takes no instant (R479). -/
def State.hearthRally (s : State) (n : Nat) : State :=
  let light := s.inLight
  let s1 := if light then s else (s.modHearth n fun h => { h with latch := some s.rallyCount })
  let s2 := if !light && s1.paceWaits n then s1.paceArrival n else s1
  (s2.modHearth n Hearth.zcTick).wdogTick n

/-- What fell due becomes late, since it acts only after LIGHT (R480). -/
def State.dueLate (s : State) : State :=
  let late (d : Option Bool) : Option Bool := d.map fun _ => true
  { s with
    flue := { s.flue with swapDue := late s.flue.swapDue }
    tsu := { s.tsu with trigs := tabMap trigDefault (fun _ t => { t with due := late t.due }) s.tsu.trigs }
    chm := { s.chm with mapDue := late s.chm.mapDue }
    mif := { s.mif with trans := tabMap transDefault (fun _ t => { t with genDue := late t.genDue }) s.mif.trans } }

/-- A PTP trigger whose time came in LIGHT fires late (R480). -/
def State.trigHeld (s : State) (n : Nat) : State :=
  match s.trigDue n with
  | some _ => s.setTrig n { s.trig n with late := true }
  | none => s

/-- Keyed actions and LIGHT (R480): they wait in it, and act from the first Rally instant after it. -/
def State.lightHold (s : State) : State :=
  if !s.pwr.hold then s
  else if s.inLight then s.dueLate
  else ((List.range 16).foldl State.trigHeld s).modPwr fun p => { p with hold := false }

/-- The keyed actions that fall due at the instant, judged against the loaded count (R137). -/
def State.keysDue (s : State) (passed : Nat → Bool) : State :=
  let s1 := (List.range 16).foldl (State.trigRally passed) (s.routeRally passed)
  (List.range 4).foldl State.ltcRally ((s1.mapRally passed).cueJump passed)

/-- The power states at the instant (R479, R481, R498). -/
def State.pwrRally (s : State) (rtcSub : Nat) : State :=
  let s1 := s.modPwr fun p => { p with xp := { p.xp with inst := p.xp.inst + 1 }, rtcSub := rtcSub }
  (if s1.pwrState = 4 then s1.modPwr fun p => { p with due := true } else s1).exitTick

/-- The whole of a Rally instant: the loads first, then what is judged against the loaded count (R137). -/
def State.rallyInstant (rtcSub : Nat) (s : State) : State :=
  let next := (s.rallyCount + 1) % rallyMod
  let s0 : State := { s with tsu := { s.tsu with frac := 0 } }
  let s1 := (s0.rallyLoad rtcSub).pwrRally rtcSub
  let s2 := (List.range 192).foldl State.hearthRally s1
  let s3 := (s2.leaseTick.keysDue (jumpedOver next s1.rallyCount)).lightHold
  let s4 := (s3.chmRally.rallyEmit.mifLatch).belRally
  let s5 := if s4.inLight then s4 else s4.cuePass
  s5.rallyTest

/-- RALLY_INSTANT (R123): the media-clock edge that begins a sample period; `rtcSub` is the elapsed fraction of the Ember's
RTC tick in 1/65536 (R498). -/
def execRallyInstant (rtcSub : BitVec 16) (s : State) : Host.Outcome State Fault Refusal :=
  s.runXo (State.rallyInstant rtcSub.toNat)

/-! ### The firing of a trigger (R129 to R131) -/

/-- The action of trigger n. -/
def State.trigAct (s : State) (n : Nat) : State :=
  let c := TSU_TTRIG_CTRL n
  let target := s.fld c TSU_TTRIG_CTRL_target
  match s.fld c TSU_TTRIG_CTRL_action with
  | 1 =>
    match s.sapTrigger target with
    | (true, t) => t
    | (false, t) => t.setFld (TSU_TTRIG_STAT n) TSU_TTRIG_STAT_noop 1
  | 2 => if target < 8 then s.belTick target else s
  | 3 => s.cueRequest
  | 4 => s.pulseStart (target % 32) (s.bit c TSU_TTRIG_CTRL_pol)
  | _ => s

/-- TTRIG_FIRE (R129, R130): a trigger that has reached its key acts and is recorded. -/
def execTtrigFire (n : Fin 16) (s : State) : Host.Outcome State Fault Refusal :=
  s.runKey fun s =>
    match s.trigDue n.val with
    | none => s
    | some late => (s.trigAct n.val).trigRecord n.val late

/-! ### Output stations (R27, R186, R218, R419) -/

/-- The output of a port's station. -/
def stationPort (st : Nat) : Nat := if st < 16 then st else 16 + st

/-- A token at station st. -/
def State.stationTake (s : State) (st : Nat) (t : Token) : State :=
  if st < 26 then s.portToken (stationPort st) t
  else match st with
    | 26 => s.netToken t
    | 29 => s.belToken t
    | 32 => s.chmToken 0 t
    | 33 => s.chmToken 1 t
    | 42 => s.chmToken 2 t
    | 43 => s.chmToken 3 t
    | _ => s.stationCount st .unmapped

/-- STATION_TOKEN_ARRIVAL (R27): the oldest token that reached an output station is judged there. -/
def execStationTokenArrival (st : Fin 44) (s : State) : Host.Outcome State Fault Refusal :=
  s.run fun s =>
    match s.inboxOf st.val with
    | [] => s
    | t :: rest => (s.setInbox st.val rest).stationTake st.val t

end Sys2Proof.Machine
end

