-- ==== Sys2Proof/Machine/Wide.lean ====
section
/-! DEFINITION. Values wider than 32 bits: snapshots, staged words and loads (02 R53 to R58). -/

namespace Sys2Proof.Machine

/-! ### Their words (R53) -/

/-- The LO word's address. The other words follow it. -/
def wideLo : WideVal → Nat
  | .tod => TSU_TOD_NS
  | .rally => TSU_RALLY_LO
  | .rtc => EMB_RTC_LO
  | .mifPos m => MIF_POS_LO m.val
  | .freq => RSG_FREQ_LO
  | .hold => RSG_HOLD_LO
  | .rallyOffset => TSU_RALLY_OFFSET_LO
  | .deuceOffset => TSU_DEUCE_OFFSET_LO
  | .srvOffs d => TSU_SRV_OFFS_LO d.val
  | .leadSerial => CHM_LEAD_SER_LO
  | .causeRtc => EMB_CAUSE_RTC_LO
  | .xpRatio => EMB_XP_RATIO_LO
  | .xpNow => EMB_XP_NOW_LO
  | .idxCap m => MIF_IDX_CAP_LO m.val
  | .idxLoad m => MIF_IDX_LOAD_LO m.val
  | .ltci m => MIF_LTCI_TC m.val

/-- How many words it has. -/
def wideWords : WideVal → Nat
  | .tod => 3
  | .ltci _ => 8
  | _ => 2

/-- Every wide value. -/
def wideAll : List WideVal :=
  [.tod, .rally, .rtc, .freq, .hold, .rallyOffset, .deuceOffset, .srvOffs 0, .srvOffs 1, .leadSerial, .causeRtc, .xpRatio,
    .xpNow] ++
  ([0, 1, 2, 3] : List (Fin 4)).flatMap fun m => [.mifPos m, .idxCap m, .idxLoad m, .ltci m]

/-- The wide value that has a word at an address. -/
def wideAt (a : Nat) : Option WideVal := wideAll.find? fun w => decide (wideLo w ≤ a ∧ a < wideLo w + 4 * wideWords w)

/-- Two registers as one value. -/
def State.regPair (s : State) (a : Nat) : Nat := (s.reg a).toNat + (s.reg (a + 4)).toNat * 2 ^ 32

/-- The value now, its LO word in [31:0]; a signed value is extended to its words. -/
def State.wideNow (s : State) : WideVal → Nat
  | .tod => s.todWord
  | .rally => s.rallyCount
  | .rtc => s.pwr.rtc
  | .mifPos m => wrapInt 64 (s.trans m.val).pos
  | .freq => wrapInt 64 s.rsg.w
  | .hold => wrapInt 64 s.rsg.wHold
  | .rallyOffset => wrapInt 64 s.tsu.rallyOffs
  | .deuceOffset => wrapInt 64 s.tsu.deuceOffs
  | .srvOffs d => wrapInt 64 (s.servo d.val).offs
  | .leadSerial => s.regPair CHM_LEAD_SER_LO
  | .causeRtc => s.regPair EMB_CAUSE_RTC_LO
  | .xpRatio => s.regPair EMB_XP_RATIO_LO
  | .xpNow => s.xpNowAt (s.pwr.rtc * 65536)
  | .idxCap m => s.regPair (MIF_IDX_CAP_LO m.val)
  | .idxLoad m => s.regPair (MIF_IDX_LOAD_LO m.val)
  | .ltci m => (s.trans m.val).ltc.foldr (fun w acc => w.toNat + acc * 2 ^ 32) 0

/-- A read of word i (R53): the LO word takes a snapshot into the shadow, the others return the shadow. -/
def State.wideRead (w : WideVal) (i : Nat) (s : State) : Resp × Word × State :=
  let k := wideKey w
  if i = 0 then (.ok, BitVec.ofNat 32 (s.wideNow w), s.setWide k { s.wideOf k with shadow := s.wideNow w })
  else (.ok, BitVec.ofNat 32 ((s.wideOf k).shadow / 2 ^ (32 * i)), s)

/-- COUNTER_LO_READ (R53, R104, R135, R358, R372). -/
def execCounterLoRead (m : Mid) (w : WideVal) (s : State) : Host.Outcome State Fault Refusal :=
  s.run fun s => s.readReg m.val (wideLo w) (State.wideRead w 0)

/-! ### Loads (R54, R55, R57) -/

/-- The value that a counter loads. -/
def ctrVal : WideCtr → WideVal
  | .tod => .tod
  | .rally => .rally
  | .rtc => .rtc
  | .mifPos m => .mifPos m

/-- The HI word's address. -/
def ctrHi (c : WideCtr) : Nat := wideLo (ctrVal c) + 4 * (wideWords (ctrVal c) - 1)

/-- The counter that a wide value is, if software loads it. -/
def ctrOf : WideVal → Option WideCtr
  | .tod => some .tod
  | .rally => some .rally
  | .rtc => some .rtc
  | .mifPos m => some (.mifPos m)
  | _ => none

/-- A load by software is refused: of TOD while the active servo steers (R111), of RALLY_COUNT while PTP gives it (R124). -/
def State.loadRefused (s : State) : WideCtr → Bool
  | .tod => s.srvState s.deuceActive = srvAcquiring || s.srvState s.deuceActive = srvLocked
  | .rally => s.rallySrc = 1
  | _ => false

/-- A write to the HI word (R54): its 16 bits and every staged word become the pending load, in the place of any other
(R57), and the staged words clear. DEDUCED, log entry 8. -/
def writeCtrHi (c : WideCtr) (v : Word) : WriteEff := fun s =>
  let k := wideKey (ctrVal c)
  let w := s.wideOf k
  let hi := v.toNat % 2 ^ 16
  let val := match c with
    | .tod => w.staged0.toNat + w.staged1.toNat * 2 ^ 32 + hi * 2 ^ 64
    | _ => w.staged0.toNat + hi * 2 ^ 32
  if s.loadRefused c then (.slverr, s) else (.ok, s.setWide k { w with staged0 := 0, staged1 := 0, load := some val })

/-- A write to another word is staged (R54); TSU_TOD_NS takes less than 1,000,000,000 (R111). -/
def writeCtrLow (c : WideCtr) (i : Nat) (v : Word) : WriteEff := fun s =>
  let k := wideKey (ctrVal c)
  if c = .tod ∧ i = 0 ∧ 1000000000 ≤ v.toNat then (.slverr, s)
  else (.ok, s.setWide k (if i = 0 then { s.wideOf k with staged0 := v } else { s.wideOf k with staged1 := v }))

/-- A write to word i of a wide value. -/
def writeWide (w : WideVal) (i : Nat) (v : Word) : WriteEff := fun s =>
  match ctrOf w with
  | some c => if i + 1 = wideWords w then writeCtrHi c v s else writeCtrLow c i v s
  | none => (.ok, s.plainWrite (wideLo w + 4 * i) v)

/-- COUNTER_HI_WRITE (R54). -/
def execCounterHiWrite (m : Mid) (c : WideCtr) (v : Word) (s : State) : Host.Outcome State Fault Refusal :=
  s.run fun s => s.writeReg m.val (ctrHi c) v (writeCtrHi c v)

/-- The counter whose status word lies at an address. -/
def statOf (a : Nat) : Option WideCtr :=
  if a = TSU_TOD_STAT then some .tod
  else if a = TSU_RALLY_STAT then some .rally
  else if a = EMB_RTC_STAT then some .rtc
  else ([0, 1, 2, 3] : List (Fin 4)).findSome? fun m => if a = MIF_POS_STAT m.val then some (.mifPos m) else none

/-- A load of the counter is pending. -/
def State.loadWaits (s : State) (c : WideCtr) : Bool := (s.wideOf (wideKey (ctrVal c))).load.isSome

/-- The status word as it reads. -/
def State.readCtrStat (s : State) (c : WideCtr) (a : Nat) : Word := TSU_RALLY_STAT_load_pending.set (s.reg a) (b2n (s.loadWaits c))

/-- A tick of the 400 MHz time base; every fourth one starts a 10 ns slot. -/
def State.tick (s : State) : State :=
  let s1 := (({ s with now := s.now + 1 }).tsuTick.wakeTick).exitTick
  if s1.now % 4 = 0 then s1.mifSlot.belSlot else s1

/-- The update event of a counter with a pending load (R55): the next tick of its time base, or the next 10 ns slot. `frac` is
what a Rally instant and an RTC tick carry: the elapsed fraction of the other one. -/
def State.ctrUpdate (s : State) (c : WideCtr) (frac : Nat) : State :=
  match c with
  | .tod => s.tick
  | .rally => s.rallyInstant frac
  | .rtc => s.rtcTick (frac % 256)
  | .mifPos m => s.posTake m

/-- COUNTER_LOAD (R55): the counter's update event while a load of it is pending. The RTC's runs in every power state. -/
def execCounterLoad (c : WideCtr) (frac : BitVec 16) (s : State) : Host.Outcome State Fault Refusal :=
  if c = .rtc then s.runAon fun s => if s.loadWaits c then s.ctrUpdate c frac.toNat else s
  else s.runXo fun s => if s.loadWaits c then s.ctrUpdate c frac.toNat else s

end Sys2Proof.Machine
end

