-- ==== Sys2Proof/Machine/Hif.lean ====
section
/-! DEFINITION. The host interfaces' own registers and pins: doorbells, UART, GPIO, MSI-X, and the PCIe endpoint's resets and
configuration (19 R508 to R511, R515, R520 to R522). -/

namespace Sys2Proof.Machine

def State.modHif (s : State) (f : Hif → Hif) : State := { s with hif := f s.hif }

/-! ### Doorbells (R511) -/

/-- A write to HIF_DB(i). -/
def writeDb (i : Nat) (v : Word) : WriteEff := accept fun s =>
  let full := s.fld HIF_DB_STAT HIF_DB_STAT_full
  let ovw := s.fld HIF_DB_STAT HIF_DB_STAT_ovw
  let s1 := s.setFld HIF_DB_STAT HIF_DB_STAT_full (full ||| 2 ^ i)
  ((s1.setFldIf (bitOf full i) HIF_DB_STAT HIF_DB_STAT_ovw (ovw ||| 2 ^ i)).setReg (HIF_DB i) v).raise (455 + i)

/-- HIF_DB_WRITE (R511). -/
def execHifDbWrite (m : Mid) (i : Fin 4) (v : Word) (s : State) : Host.Outcome State Fault Refusal :=
  s.run fun s => s.writeReg m.val (HIF_DB i.val) v (writeDb i.val v)

/-! ### Debug UART (R520) -/

def State.uartOn (s : State) : Bool := s.bit HIF_UART_CTRL HIF_UART_CTRL_en

/-- A write to HIF_UART_TX: a byte that finds the FIFO full is discarded. -/
def writeUartTx (v : Word) : WriteEff := accept fun s =>
  if 64 ≤ s.hif.uartTx.length then s
  else s.modHif fun h => { h with uartTx := h.uartTx ++ [BitVec.ofNat 8 (HIF_UART_TX_byte.get v)] }

/-- UART_TX (R520). -/
def execUartTx (m : Mid) (v : Word) (s : State) : Host.Outcome State Fault Refusal :=
  s.run fun s => s.writeReg m.val HIF_UART_TX v (writeUartTx v)

/-- UART_TX_BYTE_SENT (R520): the oldest byte has been sent. -/
def execUartTxByteSent (s : State) : Host.Outcome State Fault Refusal :=
  s.runXo fun s => match s.uartOn, s.hif.uartTx with
    | true, b :: rest => s.modHif fun h => { h with uartTx := rest, uartOut := h.uartOut ++ [b] }
    | _, _ => s

/-- UART_RX_BYTE (R520): a byte arrives; `stop` is the level of its stop bit. -/
def execUartRxByte (b : Byte) (stop : Bool) (s : State) : Host.Outcome State Fault Refusal :=
  s.runXo fun s =>
    if !s.uartOn then s
    else
      let s1 := s.setFldIf (!stop) HIF_UART_STAT HIF_UART_STAT_frame_err 1
      if 64 ≤ s.hif.uartRx.length then s1.setFld HIF_UART_STAT HIF_UART_STAT_rx_ovf 1
      else s1.modHif fun h => { h with uartRx := h.uartRx ++ [b] }

/-- A read of HIF_UART_RX pops the oldest byte. -/
def uartPop (s : State) : Resp × Word × State :=
  match s.hif.uartRx with
  | [] => (.ok, 0, s)
  | b :: rest => (.ok, BitVec.ofNat 32 (b.toNat + 2 ^ 8), s.modHif fun h => { h with uartRx := rest })

/-- UART_RX_POP (R520). -/
def execUartRxPop (m : Mid) (s : State) : Host.Outcome State Fault Refusal :=
  s.run fun s => s.readReg m.val HIF_UART_RX uartPop

/-- HIF_UART_STAT as it reads. -/
def State.uartStat (s : State) : Word :=
  HIF_UART_STAT_tx_fill.set (HIF_UART_STAT_rx_fill.set (s.reg HIF_UART_STAT) s.hif.uartRx.length) s.hif.uartTx.length

/-! ### GPIO (R521) -/

/-- A write to HIF_GPIO_OUT_SET. -/
def writeGpioSet (v : Word) : WriteEff := accept fun s => s.setReg HIF_GPIO_OUT (s.reg HIF_GPIO_OUT ||| v)

/-- A write to HIF_GPIO_OUT_CLR. -/
def writeGpioClr (v : Word) : WriteEff := accept fun s => s.setReg HIF_GPIO_OUT (s.reg HIF_GPIO_OUT &&& ~~~v)

/-- GPIO_OUT_SET (R521). -/
def execGpioOutSet (m : Mid) (v : Word) (s : State) : Host.Outcome State Fault Refusal :=
  s.run fun s => s.writeReg m.val HIF_GPIO_OUT_SET v (writeGpioSet v)

/-- GPIO_OUT_CLR (R521). -/
def execGpioOutClr (m : Mid) (v : Word) (s : State) : Host.Outcome State Fault Refusal :=
  s.run fun s => s.writeReg m.val HIF_GPIO_OUT_CLR v (writeGpioClr v)

/-- The functions that HIF_GPIO_FN(i) may name: 2 on GPIO 16 to 23 only, and never 3. -/
def gpioFnOk (i : Nat) (v : Word) : Bool :=
  (List.range 8).all fun k =>
    let f := v.toNat / 16 ^ k % 4
    f < 2 || (f = 2 && (i = 2))

/-- HIF_GPIO_IN: the level of every pin. -/
def State.gpioWord (s : State) : Word :=
  BitVec.ofNat 32 ((List.range 32).foldl (fun acc i => acc + b2n (s.gpioLevel i) * 2 ^ i) 0)

/-! ### MSI-X (R508, R510) -/

/-- Messages of a vector go to the host. DEDUCED, log entry 151. -/
def State.msixReady (s : State) (v : Nat) : Bool :=
  s.pcie.msixEn && s.pcie.busMaster && !s.pcie.funcMask && !s.pcie.d3hot && !s.bit (MSIX_CTRL v) MSIX_CTRL_mask

/-- A pending vector that is ready sends its message, and its PBA bit is cleared. -/
def State.msixFlush (s : State) (v : Nat) : State :=
  if bitOf s.evc.pba v && s.msixReady v then
    ({ s with evc := { s.evc with pba := s.evc.pba - 2 ^ v } }).sendMsix v
  else s

def State.msixFlushAll (s : State) : State := (List.range 64).foldl State.msixFlush s

/-- A write to a vector's control word. -/
def writeMsixCtrl (n : Nat) (v : Word) : WriteEff := accept fun s => (s.plainWrite (MSIX_CTRL n) v).msixFlush n

/-- MSIX_UNMASK (R510): a write of 0 to the mask bit of vector v. -/
def execMsixUnmask (m : Mid) (v : Fin 64) (s : State) : Host.Outcome State Fault Refusal :=
  s.run fun s => s.writeReg m.val (MSIX_CTRL v.val) 0 (writeMsixCtrl v.val 0)

/-! ### The endpoint (R508, R509) -/

/-- The register of the MSI-X table. -/
def msixReg (a : Nat) : Bool := 0x02111000 ≤ a && a < 0x02111400

/-- An endpoint reset: configuration space, MSI-X table and PBA; the data of reads under way is discarded. -/
def State.endpointReset (s : State) : State :=
  let drop (j : Job) : Job := match j.fin with
    | .pcie w st _ => { j with fin := .pcie w st true }
    | _ => j
  { s with
    regs := s.regs.filter fun e => !msixReg e.1
    pcie := ⟨false, false, false, false, false⟩, evc := { s.evc with pba := 0 }
    jobs := s.jobs.map drop, hif := { s.hif with resend := true } }

/-- The link is no longer up. -/
def State.linkLost (s : State) : State :=
  if s.bit HIF_PCIE_STAT HIF_PCIE_STAT_link_up then
    (s.setReg HIF_PCIE_STAT (s.reg HIF_PCIE_STAT &&& ~~~0x3F)).setFld HIF_PCIE_STAT HIF_PCIE_STAT_link_chg 1
  else s

/-- The system reset that PCIE_PERST_N raises while perst_sys is 1; the spec gives EMB_CAUSE no code for it, so its cause is
free. DESIGN CHOICE, log entry 148. -/
def State.perstSystem (s : State) : State :=
  let (c, s1) := s.fresh
  (s1.sysReset (c.toNat % 16)).modPwr fun p => { p with perstReset := true }

def State.setPerst (s : State) (low : Bool) : State := { s with pins := { s.pins with perstLow := low } }

/-- PCIE_RESET (R509): an edge of PCIE_PERST_N, a hot reset, or the link going down. DEDUCED, log entry 149. -/
def execPcieReset (r : PcieRst) (s : State) : Host.Outcome State Fault Refusal :=
  s.runAon fun s =>
    match r with
    | .perst true =>
      if s.pins.perstLow then s
      else if !s.awake then s.setPerst true
      else
        let s1 := ((s.setPerst true).endpointReset.linkLost).setFld HIF_PCIE_STAT HIF_PCIE_STAT_perst 1
        if s.bit HIF_PCIE_CTRL HIF_PCIE_CTRL_perst_sys then s1.perstSystem else s1
    | .perst false =>
      let s1 := (s.setPerst false).modPwr fun p => { p with perstReset := false }
      if s.pwr.perstReset then s1.sampleStraps else s1
    | .hot => if s.awake then s.endpointReset.setFld HIF_PCIE_STAT HIF_PCIE_STAT_hot_reset 1 else s
    | .linkDown =>
      if s.awake && s.bit HIF_PCIE_STAT HIF_PCIE_STAT_link_up then s.endpointReset.linkLost else s

/-- PCIE_LINK_UP (R509): the link trains up at a speed (1 to 3) and a width of 1, 2 or 4 lanes. -/
def execPcieLinkUp (speed width : Fin 8) (s : State) : Host.Outcome State Fault Refusal :=
  s.run fun s =>
    let fits : Bool := 1 ≤ speed.val && speed.val ≤ 3 && (width.val = 1 || width.val = 2 || width.val = 4)
    if fits && !s.pins.perstLow then
      let s1 := (s.setFld HIF_PCIE_STAT HIF_PCIE_STAT_link_up 1).setFld HIF_PCIE_STAT HIF_PCIE_STAT_speed speed.val
      (s1.setFld HIF_PCIE_STAT HIF_PCIE_STAT_width width.val).setFld HIF_PCIE_STAT HIF_PCIE_STAT_link_chg 1
    else s

/-- A target line that stayed asserted over an endpoint reset sends its message again (R510). -/
def State.msixResend (s : State) : State :=
  if s.hif.resend then
    ([4, 5, 6, 7].foldl (fun t i => if t.line i then t.tgtMessage i else t) s).modHif fun h => { h with resend := false }
  else s

/-- What a configuration request sets. -/
def Pcie.configure (p : Pcie) : PcieCfg → Pcie
  | .memEn b => { p with memEn := b }
  | .busMaster b => { p with busMaster := b }
  | .msixEn b => { p with msixEn := b }
  | .funcMask b => { p with funcMask := b }
  | .d3hot b => { p with d3hot := b }

/-- PCIE_CONFIG_REQUEST (R508 to R510): once MSI-X is enabled, a line asserted over a reset sends its message again, and
pending vectors that became ready send theirs. -/
def execPcieConfigRequest (c : PcieCfg) (s : State) : Host.Outcome State Fault Refusal :=
  s.run fun s =>
    if s.bit HIF_PCIE_STAT HIF_PCIE_STAT_link_up then
      let s1 := { s with pcie := s.pcie.configure c }
      (if s1.pcie.msixEn && !s.pcie.msixEn then s1.msixResend else s1).msixFlushAll
    else s

/-! ### The TAP (R515) -/

/-- JTAG_IR_UPDATE (R515): Update-IR with a code, or Test-Logic-Reset, which selects IDCODE. DESIGN CHOICE, log entry 157. -/
def execJtagIrUpdate (code : Option Byte) (s : State) : Host.Outcome State Fault Refusal :=
  s.run fun s => s.modHif fun h => { h with tapIr := match code with
    | some c => c.toNat
    | none => 2 }

/-- The data register that the TAP's instruction selects, as Capture-DR loads it: its length and its bits (R515, R516). None for
the boundary-scan chain, which the spec leaves to the BSDL description. -/
def State.tapCapture (s : State) : Option (Nat × Nat) :=
  if s.hif.tapIr = 0x00 ∨ s.hif.tapIr = 0x01 then none
  else if s.hif.tapIr = 0x02 then some (32, 0x1012856B)
  else if s.hif.tapIr = 0x10 then some (66, s.hif.dbgStat + s.hif.dbgResp * 2 ^ 2 + s.hif.dbgData.toNat * 2 ^ 34)
  else some (1, 0)

/-! ### The endpoint's identity (R505, R469) -/

abbrev pcieDeviceId : Nat := 0x0128
abbrev pcieRevisionId : Nat := 0x11
abbrev pcieClassCode : Nat := 0x040100

/-- The Vendor ID, from OTP word 3. -/
def State.pcieVendorId (s : State) : Nat := (tabGet zeroWord s.otp 3).toNat % 2 ^ 16

/-- The Subsystem Vendor ID and the Subsystem ID: OTP word 40, or where it is 0 the Vendor ID and the Device ID. -/
def State.pcieSubsystem (s : State) : Nat × Nat :=
  let w := (tabGet zeroWord s.otp 40).toNat
  if w = 0 then (s.pcieVendorId, pcieDeviceId) else (w % 2 ^ 16, w / 2 ^ 16)

/-! ### Registers (R522) -/

/-- QSPI accesses that wait. -/
def State.qspiBusy (s : State) : Bool := s.jobs.any fun j => j.mid = 0x301

/-- HIF_QSPI_STAT as it reads. -/
def State.qspiStat (s : State) : Word := HIF_QSPI_STAT_busy.set (s.reg HIF_QSPI_STAT) (b2n s.qspiBusy)

/-- A write to a register of the HIF. -/
def hifWrite (a : Nat) (v : Word) : WriteEff := fun s =>
  if HIF_DB 0 ≤ a ∧ a < HIF_DB 4 then writeDb ((a - HIF_DB 0) / 4) v s
  else if a = HIF_UART_TX then writeUartTx v s
  else if a = HIF_UART_CTRL then acceptIf (decide (16 ≤ HIF_UART_CTRL_div.get v)) (fun s => s.plainWrite a v) s
  else if a = HIF_GPIO_OUT_SET then writeGpioSet v s
  else if a = HIF_GPIO_OUT_CLR then writeGpioClr v s
  else if HIF_GPIO_FN 0 ≤ a ∧ a < HIF_GPIO_FN 4 then
    acceptIf (gpioFnOk ((a - HIF_GPIO_FN 0) / 4) v) (fun s => s.plainWrite a v) s
  else if a = HIF_PCIE_CTRL then
    let s1 := s.plainWrite a v
    (.ok, if s.pins.perstLow && s1.bit a HIF_PCIE_CTRL_perst_sys then s1.perstSystem else s1)
  else if msixReg a && a % 16 = 12 then writeMsixCtrl ((a - MSIX_CTRL 0) / 16) v s
  else (.ok, s.plainWrite a v)

/-- A read of a register of the HIF that is not held as a word. DEDUCED, log entry 155. -/
def State.hifRead (s : State) (a : Nat) : Option Word :=
  if a = HIF_UART_STAT then some s.uartStat
  else if a = HIF_QSPI_STAT then some s.qspiStat
  else if a = HIF_GPIO_IN then some s.gpioWord
  else if a = HIF_GPIO_OUT_SET ∨ a = HIF_GPIO_OUT_CLR then some (s.reg HIF_GPIO_OUT)
  else if a = MSIX_PBA 0 then some (BitVec.ofNat 32 s.evc.pba)
  else if a = MSIX_PBA 1 then some (BitVec.ofNat 32 (s.evc.pba / 2 ^ 32))
  else none

end Sys2Proof.Machine
end

