-- ==== Sys2Proof/Machine/Bus.lean ====
section
/-! DEFINITION. The accesses of masters: what each target does with them, and the accesses that do not complete as they are
issued (02 R41 to R60, 08 R230, R231, R260, 11 R309 to R315, R327, 20 R527). -/

namespace Sys2Proof.Machine

/-! ### Registers of a Hearth window -/

/-- A write to the register at offset o (from 0xC000) of Hearth n's window. -/
def hrtWrite (n o : Nat) (v : Word) : WriteEff := fun s =>
  let a := HRT_CTRL n + o
  if a = HRT_CTRL n then writeHrtCtrl n v s
  else if a = HRT_PC n then writeHrtPc n v s
  else if a = HRT_VEC n ∨ a = HRT_RESET_PC n ∨ (HRT_MPR_BASE n 0 ≤ a ∧ a < HRT_MPR_BASE n 4) then writeHalted n a v s
  else if a = HRT_SPILL_LIM n then writeSpillLim n v s
  else if a = HRT_WDOG n then (.ok, s.writeWdog n v)
  else if a = HRT_IRQ_SET n then (.ok, s.irqSet n v)
  else if a = HRT_PACE_CTRL n then (.ok, s.paceCtrl n v)
  else if a = HRT_PACE_STATUS n then (.ok, s.paceStatusWrite n v)
  else if HRT_SLOT_SH n 0 ≤ a ∧ a < HRT_SLOT_SH n 256 then (.ok, s.slotValue n ((a - HRT_SLOT_SH n 0) / 4) v false)
  else if a = HRT_DBG_CTRL n then (.ok, s.writeDbgCtrl n v)
  else if a = HRT_DBG_SEL n then writeDbgSel n v s
  else if a = HRT_DBG_DATA n then writeDbgData n v s
  else if HRT_ROUTE_SH n 0 ≤ a ∧ a < HRT_ROUTE_SH n 1024 then writeRouteSh n ((a - HRT_ROUTE_SH n 0) / 4) v s
  else (.ok, s.plainWrite a v)

/-- A read of a register of Hearth n that is not held as a word. -/
def State.hrtRead (s : State) (n o : Nat) : Option Word :=
  let a := HRT_CTRL n + o
  let h := s.hearth n
  if a = HRT_STAT n then some (s.readHrtStat n)
  else if a = HRT_PC n then some (s.readHrtPc n)
  else if a = HRT_FENCE n then some (s.readHrtFence n)
  else if a = HRT_IRQ_PEND n then some (s.irqPend n)
  else if a = HRT_PARAM_STAT n then some (s.readParamStat n)
  else if a = HRT_PARAM_ARM n then some (s.readParamArm n)
  else if a = HRT_PARAM_LAST n then some (s.readParamLast n)
  else if a = HRT_QSTAT n then some h.qstat
  else if HRT_SLOT_ACT n 0 ≤ a ∧ a < HRT_SLOT_ACT n 256 then some (tabGet slotDefault h.slots ((a - HRT_SLOT_ACT n 0) / 4)).act
  else if HRT_SLOT_SH n 0 ≤ a ∧ a < HRT_SLOT_SH n 256 then some (tabGet slotDefault h.slots ((a - HRT_SLOT_SH n 0) / 4)).sh
  else if HRT_ROUTE_SH n 0 ≤ a ∧ a < HRT_ROUTE_SH n 1024 then
    some (s.routeWord (!s.activeBank) n ((a - HRT_ROUTE_SH n 0) / 4))
  else if HRT_ROUTE_ACT n 0 ≤ a ∧ a < HRT_ROUTE_ACT n 1024 then
    some (s.routeWord s.activeBank n ((a - HRT_ROUTE_ACT n 0) / 4))
  else none

/-! ### Registers of SYS, EVC and FLUE -/

/-- A write to a register of SYS by master m. -/
def sysWriteReg (m a : Nat) (v : Word) : WriteEff := fun s =>
  if SYS_BALL 0 ≤ a ∧ a < SYS_BALL 256 then writeBall m ((a - SYS_BALL 0) / 4) v s
  else if a = SYS_BALL_TURNOVER then writeTurnover v s
  else if SYS_PACE_NEAR 0 ≤ a ∧ a < SYS_PACE_NEAR 6 then (.ok, s.paceNearWrite ((a - SYS_PACE_NEAR 0) / 4) v)
  else sysPwrWrite a v s

/-- A write to a register of the EVC. -/
def evcWriteReg (a : Nat) (v : Word) : WriteEff := fun s =>
  if EVC_SRC_CFG 0 ≤ a ∧ a < EVC_SRC_CFG 512 then writeSrcCfg ((a - EVC_SRC_CFG 0) / 4) v s
  else if EVC_PEND 0 ≤ a ∧ a < EVC_PEND 16 then (.ok, s.pendClear ((a - EVC_PEND 0) / 4) v)
  else if a = EVC_SOFT then (.ok, s.raiseIf (bitOf v.toNat 0) 472)
  else if tgtCfg 0 ≤ a ∧ a < tgtCfg 0 + 0x100 then
    let t := (a - tgtCfg 0) / 0x20
    if a = tgtCfg t then writeTgtCfg t v s
    else if a = EVC_COMPLETE t then (.ok, s.evcComplete t (EVC_COMPLETE_src.get v))
    else if a = EVC_STACK_RESET t then (.ok, if bitOf v.toNat 0 then s.stackReset t else s)
    else (.ok, s)
  else (.ok, s.plainWrite a v)

/-- A read of a register of the EVC that is not held as a word, and the state it leaves. -/
def State.evcReadReg (s : State) (a : Nat) : Option (Word × State) :=
  if EVC_SRC_CFG 0 ≤ a ∧ a < EVC_SRC_CFG 512 then some (s.readSrcCfg ((a - EVC_SRC_CFG 0) / 4), s)
  else if EVC_PEND 0 ≤ a ∧ a < EVC_PEND 16 then
    some (s.srcBits ((a - EVC_PEND 0) / 4) fun x => decide (x = .pending), s)
  else if EVC_ACTIVE 0 ≤ a ∧ a < EVC_ACTIVE 16 then
    some (s.srcBits ((a - EVC_ACTIVE 0) / 4) fun x => decide (x = .active ∨ x = .activeAgain), s)
  else if EVC_STACK 0 0 ≤ a ∧ a < EVC_STACK 8 0 then
    some (s.stackEntry ((a - EVC_STACK 0 0) / 0x40) ((a - EVC_STACK 0 0) / 4 % 16), s)
  else if a = EVC_MERGED then
    some (BitVec.ofNat 32 s.evc.merged, { s with evc := { s.evc with merged := 0 } })
  else if tgtCfg 0 ≤ a ∧ a < tgtCfg 0 + 0x100 then
    let t := (a - tgtCfg 0) / 0x20
    if a = EVC_CLAIM t then some (s.claim t)
    else if a = EVC_TGT_STAT t then some (s.tgtStat t, s)
    else none
  else none

/-- A write to a register of the Flue. -/
def flueWrite (a : Nat) (v : Word) : WriteEff := fun s =>
  if a = FLUE_RT_CTRL then writeRtCtrl v s
  else if a = FLUE_RT_KEY_LO then writeRtKey false v s
  else if a = FLUE_RT_KEY_HI then writeRtKey true v s
  else (.ok, s.plainWrite a v)

/-! ### Any register -/

/-- A write to a register of a block. -/
def blockWrite (m a : Nat) (v : Word) : WriteEff := fun s =>
  match a / 0x10000 with
  | 0x200 => sysWriteReg m a v s
  | 0x201 => evcWriteReg a v s
  | 0x202 => flueWrite a v s
  | 0x203 => memcWrite a v s
  | 0x204 =>
    let (r, s1) := rsgWrite a v s
    (r, if RSG_MED_NOM 0 ≤ a ∧ a < RSG_MED_NOM 4 then s1.mifNom ((a - RSG_MED_NOM 0) / 4) else s1)
  | 0x205 => tsuWrite a v s
  | 0x206 => sapWrite a v s
  | 0x207 => aesmWrite a v s
  | 0x208 => asrcWrite a v s
  | 0x209 => netWrite a v s
  | 0x20A => chmWrite m a v s
  | 0x20B => if a = DMP_KICK_AT_HI then (if s.inLight then (.slverr, s) else writeKick m v s) else dmpWrite m a v s
  | 0x20C => cueWrite a v s
  | 0x20D => mifWrite a v s
  | 0x20E => belWrite m a v s
  | 0x20F => skpWrite a v s
  | 0x210 => embWrite a v s
  | 0x211 => hifWrite a v s
  | _ => (.ok, s)

/-- What the target does with a 32-bit write of v to a register by master m. -/
def regWrite (m a : Nat) (v : Word) : WriteEff := fun s =>
  if a < 0x02000000 then hrtWrite ((a - 0x01000000) / 0x10000) (a % 0x10000 - 0xC000) v s
  else match wideAt a with
    | some w => if (ctrOf w).isSome then writeWide w ((a - wideLo w) / 4) v s else blockWrite m a v s
    | none => blockWrite m a v s

/-- A read of a register of a block that has a behaviour of its own. -/
def State.blockRead (s : State) (m a : Nat) : Option (Resp × Word × State) :=
  let held (v : Option Word) : Option (Resp × Word × State) := v.map fun w => (.ok, w, s)
  match a / 0x10000 with
  | 0x200 =>
    if a = SYS_FENCE then some (s.fenceRead m)
    else if SYS_BALL 0 ≤ a ∧ a < SYS_BALL 256 then some (s.ballRead m ((a - SYS_BALL 0) / 4))
    else if SYS_BALL_PEEK 0 ≤ a ∧ a < SYS_BALL_PEEK 256 then held (some (s.ballPeek ((a - SYS_BALL_PEEK 0) / 4)))
    else held (s.otpRead a)
  | 0x201 => (s.evcReadReg a).map fun x => (.ok, x.1, x.2)
  | 0x204 =>
    if a = RSG_STATE then held (some s.readRsgState)
    else if a = RSG_HIST_COUNT then held (some s.readHistCount)
    else if a = RSG_TEMP_NOW then held (some s.tempNow)
    else none
  | 0x205 =>
    let n := (a - TSU_TCAP_CTRL 0) / 32
    if a = TSU_RALLY_ERR then some s.rallyErrRead
    else if TSU_TCAP_CTRL 0 ≤ a ∧ a < TSU_TCAP_CTRL 8 ∧ a = TSU_TCAP_NS n then some (s.capPop n)
    else if TSU_TCAP_CTRL 0 ≤ a ∧ a < TSU_TCAP_CTRL 8 ∧ a = TSU_TCAP_STAT n then some (.ok, s.capStat n, (s.plainRead a).2)
    else held (s.tsuRead a)
  | 0x20A => (s.chmRead m a).map fun x => (x.1, x.2, s)
  | 0x20B => held (s.dmpRead m a)
  | 0x20C => if a = CUE_LOG then some (cuePop s) else held (s.cueRead a)
  | 0x20D => held (s.mifRead a)
  | 0x20E => s.belRead m a
  | 0x20F => held (s.otpRead a)
  | 0x211 => if a = HIF_UART_RX then some (uartPop s) else held (s.hifRead a)
  | _ => none

/-- What the target does with a 32-bit read of a register by master m. -/
def State.regRead (s : State) (m a : Nat) : Resp × Word × State :=
  let plain : Resp × Word × State := (.ok, s.plainRead a)
  if a < 0x02000000 then
    let n := (a - 0x01000000) / 0x10000
    if a = HRT_DBG_DATA n then readDbgData n s
    else match s.hrtRead n (a % 0x10000 - 0xC000) with
      | some w => (.ok, w, s)
      | none => plain
  else match statOf a, wideAt a with
    | some c, _ => (.ok, s.readCtrStat c a, s)
    | none, some w => s.wideRead w ((a - wideLo w) / 4)
    | none, none =>
      match s.blockRead m a with
      | some r => r
      | none => plain

/-! ### Tile RAM windows (R230, R231, R527) -/

/-- A read of n bytes at offset o of Hearth h's window. -/
def State.tileRead (s : State) (h o n : Nat) : Reply × State :=
  if o < 0x8000 then
    match s.ramCheck h o with
    | (true, s1) => (⟨.ok, BitVec.ofNat 64 ((s1.hearth h).ramBytes o n)⟩, s1)
    | (false, s1) => (⟨.ecc, 0⟩, s1)
  else
    let w := (o - 0x8000) / 4
    if tabGet falseAt (s.hearth h).progBad w then (⟨.ecc, 0⟩, s.tileUnc h w true)
    else (⟨.ok, (tabGet zeroWord (s.hearth h).prog w).zeroExtend 64⟩, s)

/-- A write of n bytes at offset o of Hearth h's window. -/
def State.tileWrite (s : State) (h o n v : Nat) : Reply × State :=
  if o < 0x8000 then
    if n = 4 then (⟨.ok, 0⟩, s.modHearth h fun t => (t.ramPut o 4 v).setWordErr o 0)
    else match s.ramCheck h o with
      | (true, s1) => (⟨.ok, 0⟩, s1.modHearth h fun t => t.ramPut o n v)
      | (false, s1) => (⟨.ecc, 0⟩, s1)
  else
    let w := (o - 0x8000) / 4
    (⟨.ok, 0⟩, s.modHearth h fun t => { t with
      prog := tabSet zeroWord t.prog w (BitVec.ofNat 32 v), progBad := tabSet falseAt t.progBad w false })

/-! ### One access -/

/-- What the target of an access answers, with the state it leaves. -/
def State.target (s : State) (m : Nat) (x : Access) : Reply × State :=
  let a := x.addr
  let n := sizeBytes x.size
  let h := (a - 0x01000000) / 0x10000
  if a < 0x00800000 then
    match x.write with
    | none =>
      match s.mantelRead m a n with
      | (none, s1) => (⟨.ecc, 0⟩, s1)
      | (some v, s1) => (⟨.ok, BitVec.ofNat 64 v⟩, s1)
    | some v =>
      match s.mantelWrite m a n v.toNat with
      | (true, s1) => (⟨.ok, 0⟩, s1)
      | (false, s1) => (⟨.ecc, 0⟩, s1)
  else if a < 0x02000000 && decide (a % 0x10000 < 0xC000) then
    match x.write with
    | none => s.tileRead h (a % 0x10000) n
    | some v => s.tileWrite h (a % 0x10000) n v.toNat
  else
    match x.write with
    | none => (⟨(s.regRead m a).1, (s.regRead m a).2.1.zeroExtend 64⟩, (s.regRead m a).2.2)
    | some v => (⟨(regWrite m a (v.truncate 32) s).1, 0⟩, (regWrite m a (v.truncate 32) s).2)

/-- The register at which a 32-bit access does not complete as it is issued: the remote access registers (R425) and
DMP_WR_VALUE (R335). -/
def deferredAt (x : Access) : Bool :=
  decide (x.size = .b32) && x.full &&
  (match x.write with
   | some _ => x.addr = DMP_WR_VALUE || x.addr = CHM_RA_WDATA
   | none => x.addr = CHM_RA_RDATA)

/-- Master m issues an access, and `who` takes its answer. -/
def State.issue (s : State) (m : Nat) (x : Access) (who : Waiter) : State :=
  let done (t : State) (r : Reply) : State := (t.complete m x.addr x.size x.write.isSome r).answer who r
  if deferredAt x then
    match x.write with
    | some v => if x.addr = DMP_WR_VALUE then s.dmpDirect m (v.truncate 32) who else s.raAccess m (some (v.truncate 32)) who
    | none => s.raAccess m none who
  else match s.checkAccess m x with
    | .ok => done (s.target m x).2 (s.target m x).1
    | r => done s ⟨r, 0⟩

/-! ### Rows of accesses -/

/-- Who takes the answers of a job. -/
def Job.who (j : Job) : Waiter :=
  match j.fin with
  | .plain => .nobody
  | .pcie _ _ _ => .pcie
  | .qspiRead _ => .qspi
  | .qspiWrite => .nobody
  | .jtag => .jtag
  | .remote _ e t => .remote e t

/-- The job goes on only with the answer of this access: PCIe and QSPI writes are posted (R49, R513). -/
def Job.awaits (j : Job) (x : Access) : Bool :=
  match j.fin with
  | .plain => false
  | .pcie _ _ _ => x.write.isNone
  | .qspiRead _ => true
  | .qspiWrite => false
  | .jtag => true
  | .remote _ _ _ => true

/-- A job goes on as far as it can. -/
def State.jobRun (s : State) (j : Job) : Nat → State × Job
  | 0 => (s, j)
  | k + 1 =>
    match j.left with
    | [] => (s, j)
    | x :: rest =>
      if j.out then
        match s.takeAnswer j.who with
        | none => (s, j)
        | some (r, s1) => s1.jobRun { j with left := rest, out := false, got := (x.size, r) :: j.got } k
      else if s.mustWait j.mid x then (s, j)
      else if j.awaits x then (s.issue j.mid x j.who).jobRun { j with out := true } k
      else (s.issue j.mid x .nobody).jobRun { j with left := rest } k

/-- The first answer that is not OK; they are kept newest first. -/
def firstBad (got : List (AccSize × Reply)) : Option Resp := (got.reverse.find? fun r => r.2.resp != .ok).map fun r => r.2.resp

/-- The low n bytes of a value, lowest first. -/
def wordBytes (n v : Nat) : List Byte := (List.range n).map fun j => BitVec.ofNat 8 (v / 256 ^ j)

/-- The words of a QSPI READ: a failed access and every word after it read 0 (R514). -/
def qspiWords : List Reply → List Byte
  | [] => []
  | r :: rest => if r.resp = .ok then wordBytes 4 r.data.toNat ++ qspiWords rest else List.replicate (4 * (rest.length + 1)) 0

/-- A PCIe request completes (R49, R506): 0 successful, 1 Unsupported Request, 2 Completer Abort. The endpoint records the
completions that are not successful. -/
def State.pcieDone (s : State) (write : Bool) (status : Nat) (data : List Byte) : State :=
  let s1 := (s.setFldIf (status = 1) HIF_PCIE_STAT HIF_PCIE_STAT_ur 1).setFldIf (status = 2) HIF_PCIE_STAT HIF_PCIE_STAT_ca 1
  if write then s1 else s1.modHif fun h => { h with cpls := h.cpls ++ [⟨status, data⟩] }

/-- The end of a job. -/
def State.jobDone (s : State) (j : Job) : State :=
  match j.fin with
  | .plain => s
  | .qspiWrite => s
  | .pcie w st discard =>
    if discard then s
    else if st != 0 then s.pcieDone w st []
    else match firstBad j.got with
      | none => s.pcieDone w 0 (j.got.reverse.flatMap fun r => wordBytes (sizeBytes r.1) r.2.data.toNat)
      | some r => s.pcieDone w (if r = .decerr then 1 else 2) []
  | .qspiRead abandoned =>
    if abandoned then s
    else
      let status := ((firstBad j.got).map respCode).getD 0
      s.modHif fun h => { h with
        qspiOut := h.qspiOut ++ [0x5A :: qspiWords (j.got.reverse.map fun r => r.2) ++ [BitVec.ofNat 8 status]] }
  | .jtag =>
    let r := (j.got.headD (.b32, ⟨.ok, 0⟩)).2
    s.modHif fun h => { h with
      dbgStat := if r.resp = .ok || r.resp = .superseded then 0 else 2, dbgResp := respCode r.resp, dbgData := r.data.truncate 32 }
  | .remote _ e t =>
    let r := (j.got.headD (.b32, ⟨.ok, 0⟩)).2
    (s.chmUnicast (mkCtrl kindCompletion e s.chmId t false (respCode r.resp) (r.data.toNat % 2 ^ 32))).2

/-- Every job goes on as far as it can, each master's in order. A system reset that one of them raises loses the others
(R490). -/
def State.pumpGo (s : State) : List Job → List Job → State
  | kept, [] => { s with jobs := kept }
  | kept, j :: rest =>
    if kept.any fun k => k.mid = j.mid && k.blocks then s.pumpGo (kept ++ [j]) rest
    else
      let (s1, j1) := s.jobRun j (2 * j.left.length + 1)
      if s1.jobs = [] then s1
      else if j1.left = [] then (s1.jobDone j1).pumpGo kept rest
      else s1.pumpGo (kept ++ [j1]) rest

/-- Jobs go on until none can. -/
def State.pumpN (s : State) : Nat → State
  | 0 => s
  | k + 1 => if s.jobs = [] then s else (s.pumpGo [] s.jobs).pumpN k

def State.pump (s : State) : State := s.pumpN (s.jobs.length + 1)

/-- A master's row of accesses enters and goes on as far as it can. -/
def State.addJob (s : State) (j : Job) : State := ({ s with jobs := s.jobs ++ [j] }).pump

/-- A single access of master m with nobody waiting: at once where it can be, and after what the master still waits with. -/
def State.access (s : State) (m : Nat) (x : Access) : State :=
  if s.waitsTurn m x then (s.queueJob m x).pump
  else s.issue m x .nobody

end Sys2Proof.Machine
end

