-- ==== Sys2Proof/Machine/HearthBus.lean ====
section
/-! DEFINITION. The Hearth's instructions on engine addresses: LDM, STM, ROTM, MOVE and BALL (R233, R257, R276 to R278,
R296). -/

namespace Sys2Proof.Machine

/-! ### One access of an instruction -/

/-- HRT_FENCE gates Hearth n: no access of it enters the Flue (R217, R257). DEDUCED, log entry 18. -/
def State.gated (s : State) (n : Nat) : Bool := s.bit (HRT_FENCE n) HRT_FENCE_gate

def State.setSent (s : State) (n : Nat) (b : Bool) : State := s.modHearth n fun h => { h with sent := b }

/-- An access of Hearth n waits in its tile: at its gate, for the clear, as a fence, or for room at the move plane's L input while
tokens of an earlier access wait there (R217, R276). -/
def State.tileWaits (s : State) (n : Nat) (x : Access) : Bool := s.gated n || s.mustWait n x || s.moutOf n != []

/-- An access that an instruction waits for (R237): it is sent once, and the instruction goes on with the reply. An error
response is a precise BUS trap at its address (R247). -/
def opAccess (n : Nat) (s : State) (x : Access) (fin : State → BitVec 64 → HRes) : HRes :=
  if (s.hearth n).sent then
    match s.takeAnswer (.load n) with
    | none => .stall s
    | some (r, t) =>
      let u := t.setSent n false
      if respErr r.resp then .trap u causeBUS (BitVec.ofNat 32 x.addr) (respCode r.resp) else fin u r.data
  else if s.tileWaits n x then .stall s
  else .stall ((s.setSent n true).moveSend n x none true)

/-- A posted access: it retires once its tokens have entered the move plane, and its error waits for a later boundary (R247,
R276). -/
def opPost (n : Nat) (s : State) (x : Access) : HRes :=
  if s.tileWaits n x then .stall s else .ok (s.moveSend n x none false)

/-! ### The region check (R233) -/

/-- The bytes [lo, hi] of the Mantel fail the region check of Hearth n. -/
def State.regionFails (s : State) (n lo hi : Nat) (write : Bool) : Bool :=
  decide (lo < 0x00800000) && !s.isSup n && !s.inRegion n lo hi write

/-- An access that is refused before it leaves the tile: it is logged, a write counts in the summary of SYS_FENCE, and it traps
(R50, R60, R233, R278). DEDUCED, log entry 9. -/
def tileTrap (n : Nat) (s : State) (a : Nat) (sz : AccSize) (write : Bool) (r : Resp) : HRes :=
  .trap ((s.logViolation n a sz write r).noteWriteError n write r) causeBUS (BitVec.ofNat 32 a) (respCode r)

/-- The check of an LDM or STM, whose bytes lie in the aligned word of its address (R309), as it is issued.
DEDUCED, log entry 14. -/
def State.wordFails (s : State) (n a : Nat) (write : Bool) : Bool :=
  !(s.hearth n).sent && !s.gated n && s.regionFails n (a / 8 * 8) (a / 8 * 8 + 7) write

/-! ### LDM, STM, ROTM -/

/-- The operands of LDM form no reserved encoding (R261, R276). -/
def ldmOk (rd : GReg) (sz : AccSize) (u : Bool) : Bool :=
  match sz with
  | .b8 => true
  | .b16 => true
  | .b32 => !u
  | .b64 => !u && rd.val % 2 = 0

/-- The operands of STM form no reserved encoding. -/
def stmOk (rd : GReg) (sz : AccSize) : Bool := sz != .b64 || rd.val % 2 = 0

/-- The operands of ROTM form no reserved encoding. -/
def rotmOk (rd : GReg) (sz : AccSize) : Bool := sz != .b8 && stmOk rd sz

/-- The value that LDM writes to rd: 8- and 16-bit data are extended (R276). -/
def ldmValue (sz : AccSize) (u : Bool) (v : BitVec 64) : Word :=
  match sz with
  | .b8 => extend .b u (v.toNat % 2 ^ 8)
  | .b16 => extend .h u (v.toNat % 2 ^ 16)
  | .b32 => v.truncate 32
  | .b64 => v.truncate 32

/-- Writes a value to rd, and of a 64-bit one the upper word to its pair partner. -/
def State.wrPair (s : State) (n : Nat) (rd : GReg) (sz : AccSize) (lo hi : Word) : State :=
  if sz = .b64 then (s.wrG n rd lo).modHearth n fun h => h.setG (pairOf rd) hi else s.wrG n rd lo

/-- The value in rd, or in its pair. -/
def Hearth.readPair (h : Hearth) (rd : GReg) (sz : AccSize) : BitVec 64 :=
  if sz = .b64 then h.getG (pairOf rd) ++ h.getG rd.val else (h.getG rd.val).zeroExtend 64

/-- LDM (R276): it waits for its data and has no load delay. -/
def doLdm (h : HearthId) (rd ra : GReg) (off : BitVec 13) (sz : AccSize) (u : Bool) (s : State) : State :=
  s.hInstr h.val (.ldm h rd ra off sz u) (ldmOk rd sz u) false false fun o s =>
    let a := (o.addrOf ra off).toNat
    if s.wordFails h.val a false then tileTrap h.val s a sz false .perm
    else opAccess h.val s ⟨a, sz, none, true⟩ fun t v =>
      .ok (t.wrPair h.val rd sz (ldmValue sz u v) (v.extractLsb' 32 32))

/-- STM (R276). -/
def doStm (h : HearthId) (rd ra : GReg) (off : BitVec 13) (sz : AccSize) (s : State) : State :=
  s.hInstr h.val (.stm h rd ra off sz) (stmOk rd sz) false false fun o s =>
    let a := (o.addrOf ra off).toNat
    if s.wordFails h.val a true then tileTrap h.val s a sz true .perm
    else opPost h.val s ⟨a, sz, some (o.readPair rd sz), true⟩

/-- Byte j of the n bytes that ROTM completes comes from the second read where j ≥ 8 − r; every other byte of rd stays
(R277). -/
def rotmMerge (r n : Nat) (old new : BitVec 64) : BitVec 64 :=
  let keep := 2 ^ (8 * (8 - r))
  let all := 2 ^ (8 * n)
  BitVec.ofNat 64 (old.toNat % keep + new.toNat % all / keep * keep + old.toNat / all * all)

/-- ROTM (R277): checked as a read of bytes a to a + S − 1, it reads at a + 8 where the bytes run over the word. -/
def doRotm (h : HearthId) (rd ra : GReg) (off : BitVec 13) (sz : AccSize) (s : State) : State :=
  s.hInstr h.val (.rotm h rd ra off sz) (rotmOk rd sz) false false fun o s =>
    let n := h.val
    let a := o.addrOf ra off
    let r := a.toNat % 8
    if !o.sent && s.regionFails n a.toNat (a.toNat + sizeBytes sz - 1) false then tileTrap n s a.toNat sz false .perm
    else if r + sizeBytes sz ≤ 8 then .ok s
    else opAccess n s ⟨(a + 8).toNat, sz, none, true⟩ fun t v =>
      let m := rotmMerge r (sizeBytes sz) (o.readPair rd sz) v
      .ok (t.wrPair n rd sz (m.truncate 32) (m.extractLsb' 32 32))

/-! ### MOVE (R278) -/

/-- A side of a MOVE of k words is not aligned, or leaves the Mantel. -/
def moveBad (a k : Nat) : Bool := a % 8 != 0 || decide (0x00800000 < a + 8 * k)

/-- The first side of a MOVE that fails a check: its address, and whether it is the destination. -/
def moveFails (bad : Nat → Bool → Bool) (src dst : Nat) : Option (Nat × Bool) :=
  if bad src false then some (src, false) else if bad dst true then some (dst, true) else none

/-- MOVE of k words: the region check comes before the alignment and range check (R233, R278, R559), and then it is posted. -/
def opMoveWords (n : Nat) (s : State) (src dst k : Nat) : HRes :=
  if s.gated n then .stall s
  else match moveFails (fun a w => s.regionFails n a (a + 8 * k - 1) w) src dst with
    | some (a, w) => tileTrap n s a .b64 w .perm
    | none =>
      match moveFails (fun a _ => moveBad a k) src dst with
      | some (a, w) => tileTrap n s a .b64 w .slverr
      | none =>
        let x : Access := ⟨src, .b64, none, true⟩
        if !s.ramOpen || s.moutOf n != [] then .stall s else .ok (s.moveSend n x (some (dst, k)) false)

/-- MOVE (R278) of w + 1 words. -/
def doMove (h : HearthId) (rd ra : GReg) (w : Fin 256) (s : State) : State :=
  s.hPlain h.val (.move h rd ra w) fun o s =>
    opMoveWords h.val s (o.getG ra.val).toNat (o.getG rd.val).toNat (w.val + 1)

/-! ### BALL (R296) -/

/-- SYS_BALL of the ball that BALL names. -/
def Hearth.ballReg (h : Hearth) (rs : GReg) (k : Byte) : Nat := SYS_BALL (((h.getG rs.val).toNat + k.toNat) % 256)

/-- BALL: z = 1 when the ball was not granted (R66). -/
def doBall (h : HearthId) (rd rs : GReg) (k : Byte) (s : State) : State :=
  s.hPlain h.val (.ball h rd rs k) fun o s =>
    opAccess h.val s ⟨o.ballReg rs k, .b32, none, true⟩ fun t v =>
      hWrite h.val t rd (v.truncate 32) fun f => { f with z := !v.getLsbD 31 }

/-- BALL.r: the release of R68. -/
def doBallR (h : HearthId) (rs : GReg) (k : Byte) (s : State) : State :=
  s.hPlain h.val (.ballR h rs k) fun o s =>
    opAccess h.val s ⟨o.ballReg rs k, .b32, some 0, true⟩ fun t _ => .ok t

end Sys2Proof.Machine
end

