-- ==== Sys2Proof/Machine/HearthDecode.lean ====
section
/-! DEFINITION. The words of the Hearth's instructions (R261 to R263 and the encoding tables of 09): decoding, which gives
nothing for a reserved encoding, and encoding. A debug step (R517) fetches words from the program RAM. -/

namespace Sys2Proof.Machine

/-! ### Fields -/

/-- A 5-bit field at bit lo of a word. -/
def field5 (w lo : Nat) : Fin 32 := ⟨w / 2 ^ lo % 32, Nat.mod_lt _ (by decide)⟩

/-- A 3-bit field at bit lo. -/
def field3 (w lo : Nat) : Fin 8 := ⟨w / 2 ^ lo % 8, Nat.mod_lt _ (by decide)⟩

/-- A 2-bit field at bit lo. -/
def field2 (w lo : Nat) : Fin 4 := ⟨w / 2 ^ lo % 4, Nat.mod_lt _ (by decide)⟩

/-- A 4-bit field at bit lo. -/
def field4 (w lo : Nat) : Fin 16 := ⟨w / 2 ^ lo % 16, Nat.mod_lt _ (by decide)⟩

/-- A 12-bit field at bit lo. -/
def field12 (w lo : Nat) : Fin 4096 := ⟨w / 2 ^ lo % 4096, Nat.mod_lt _ (by decide)⟩

/-- The fields that must be 0 are 0. -/
def whenOk (c : Bool) (i : Instr) : Option Instr := if c then some i else none

/-- The condition of a code (R263). -/
def condOf (k : Nat) : Cond :=
  match k % 16 with
  | 0 => .al
  | 1 => .eq
  | 2 => .ne
  | 3 => .lt
  | 4 => .ge
  | 5 => .gt
  | 6 => .le
  | 7 => .ltu
  | 8 => .geu
  | 9 => .gtu
  | 10 => .leu
  | 11 => .mi
  | 12 => .pl
  | 13 => .vs
  | 14 => .vc
  | _ => .sat

/-- The code of a condition. -/
def condCode : Cond → Nat
  | .al => 0
  | .eq => 1
  | .ne => 2
  | .lt => 3
  | .ge => 4
  | .gt => 5
  | .le => 6
  | .ltu => 7
  | .geu => 8
  | .gtu => 9
  | .leu => 10
  | .mi => 11
  | .pl => 12
  | .vs => 13
  | .vc => 14
  | .sat => 15

/-- The local size of an sz code; 3 is reserved (R273). -/
def locSizeOf (k : Nat) : Option LocSize :=
  match k with
  | 0 => some .b
  | 1 => some .h
  | 2 => some .w
  | _ => none

def locSizeCode : LocSize → Nat
  | .b => 0
  | .h => 1
  | .w => 2

/-- The access size of an sz code (R262). -/
def accSizeOf (k : Nat) : AccSize :=
  match k % 4 with
  | 0 => .b8
  | 1 => .b16
  | 2 => .b32
  | _ => .b64

/-! ### Decoding -/

/-- The ALU register group (R266 to R269): aop fn[10:6], s or u fn[5], i fn[4], cond fn[3:0]. -/
def decodeAlu (h : HearthId) (w : Nat) : Option Instr :=
  let rd := field5 w 21
  let rs := field5 w 16
  let rt := field5 w 11
  let s := bitOf w 5
  let i := bitOf w 4
  let c := w % 16
  let k : ShiftCount := if i then .imm rt else .reg rt
  match w / 64 % 32 with
  | 0 => whenOk (!i && c = 0) (.add h rd rs rt s)
  | 1 => whenOk (!i && c = 0) (.sub h rd rs rt s)
  | 2 => whenOk (!s && !i && c = 0) (.and h rd rs rt)
  | 3 => whenOk (!s && !i && c = 0) (.or h rd rs rt)
  | 4 => whenOk (!s && !i && c = 0) (.xor h rd rs rt)
  | 5 => whenOk (!s && !i && c = 0 && rt = 0) (.not h rd rs)
  | 6 => whenOk (c = 0) (.shl h rd rs k s)
  | 7 => whenOk (!s && c = 0) (.shr h rd rs k)
  | 8 => whenOk (!s && c = 0) (.sar h rd rs k)
  | 9 => whenOk (!s && c = 0) (.rol h rd rs k)
  | 10 => whenOk (!i && c = 0) (.min h rd rs rt s)
  | 11 => whenOk (!i && c = 0) (.max h rd rs rt s)
  | 12 => whenOk (!i && c = 0 && rt = 0) (.abs h rd rs s)
  | 13 => whenOk (!i && c = 0 && rt = 0) (.neg h rd rs s)
  | 14 => whenOk (!s && !i && c = 0 && rt = 0) (.clz h rd rs)
  | 15 => whenOk (!s && !i && c = 0 && rt = 0) (.cls h rd rs)
  | 16 => whenOk (!s && !i) (.sel h rd rs rt (condOf c))
  | 17 => whenOk (!s && !i && c = 0 && rd = 0) (.cmp h rs rt)
  | 18 =>
    if s || i || rt != 0 then none
    else match c with
      | 0 => some (.mov h (.gg rd rs))
      | 1 => some (.mov h (.fromPtr rd rs))
      | 2 => some (.mov h (.toPtr rd rs))
      | _ => none
  | _ => none

/-- The MAC group (R270 to R272): mop fn[10:7], x fn[6:5], f fn[4], n or d fn[3], part or y fn[2:1]. -/
def decodeMac (h : HearthId) (w : Nat) : Option Instr :=
  let rd := field5 w 21
  let rs := field5 w 16
  let rt := field5 w 11
  let x := field2 w 5
  let f := bitOf w 4
  let c := w % 16
  let y := field2 w 1
  match w / 128 % 16 with
  | 0 => whenOk (rd = 0 && c = 0) (.mac h x rs rt f)
  | 1 => whenOk (rd = 0 && c = 0) (.msu h x rs rt f)
  | 2 => whenOk (rd = 0 && c = 0) (.mul h x rs rt f)
  | 3 => whenOk (rd = 0 && c = 0 && macPairOk x rs rt) (.macx h x rs rt f)
  | 4 => whenOk (rd = 0 && c = 0 && macPairOk x rs rt) (.macd h x rs rt f)
  | 5 => whenOk (rd = 0 && rs = 0 && rt = 0 && x = 0 && !f) (.clra h (BitVec.ofNat 4 c))
  | 6 =>
    if rt != 0 || f || bitOf w 0 || y.val = 3 then none
    else if bitOf w 3 then whenOk (rd = 0) (.mova h (.write x rs y))
    else whenOk (rs = 0) (.mova h (.read rd x y))
  | 7 => whenOk (rs = 0 && rt = 0 && !f && c = 0) (.movar h rd x)
  | 8 => whenOk (rs = 0 && rt = 0 && !f && c = 0) (.movas h rd x)
  | 9 => whenOk (rd = 0 && rs = 0 && !f && c = 0) (.sha h x (BitVec.ofNat 5 rt.val))
  | 10 => whenOk (rd = 0 && rs = 0 && rt = 0 && !f && !bitOf w 0) (.adda h x y (bitOf w 3))
  | _ => none

/-- The pointer forms of format M: [20:19] = 0 (R261). -/
def ptrFormOk (w : Nat) : Bool := w / 2 ^ 19 % 4 = 0

/-- Format M (R273, R276 to R278): rd, ra, sz [15:14], u [13], off [12:0]. -/
def decodeMem (h : HearthId) (op w : Nat) : Option Instr :=
  let rd := field5 w 21
  let ra := field5 w 16
  let i := field3 w 16
  let sz := w / 2 ^ 14 % 4
  let u := bitOf w 13
  let off := BitVec.ofNat 13 w
  let plain := ptrFormOk w && w % 2 ^ 13 = 0
  match op with
  | 0x10 =>
    (match sz with
     | 0 => some (.ldb h rd ra off u)
     | 1 => some (.ldh h rd ra off u)
     | 2 => whenOk (!u) (.ldw h rd ra off)
     | _ => none)
  | 0x11 =>
    (match sz with
     | 0 => whenOk (!u) (.stb h rd ra off)
     | 1 => whenOk (!u) (.sth h rd ra off)
     | 2 => whenOk (!u) (.stw h rd ra off)
     | _ => none)
  | 0x12 => (locSizeOf sz).bind fun z => whenOk (plain && !(u && z = .w)) (.ldp h rd i z u)
  | 0x13 => (locSizeOf sz).bind fun z => whenOk (plain && !u) (.stp h rd i z)
  | 0x14 => whenOk (ldmOk rd (accSizeOf sz) u) (.ldm h rd ra off (accSizeOf sz) u)
  | 0x15 => whenOk (stmOk rd (accSizeOf sz) && !u) (.stm h rd ra off (accSizeOf sz))
  | 0x16 => whenOk (rotmOk rd (accSizeOf sz) && !u) (.rotm h rd ra off (accSizeOf sz))
  | 0x17 => whenOk (w / 2 ^ 8 % 2 ^ 8 = 0) (.move h rd ra ⟨w % 256, Nat.mod_lt _ (by decide)⟩)
  | 0x28 => whenOk (rd = 0 && ptrFormOk w && w % 2 ^ 16 = 0) (.pushl h i)
  | 0x29 => whenOk (rd = 0 && ptrFormOk w && w % 2 ^ 16 = 0) (.popl h i)
  | _ => none

/-- Format B (R279 to R282): q [25], p [24], cond [23:20], r [19:15], [14:12] 0, target [11:0]. -/
def decodeBranch (h : HearthId) (op w : Nat) : Option Instr :=
  let q := bitOf w 25
  let p := bitOf w 24
  let c := w / 2 ^ 20 % 16
  let r := field5 w 15
  let gap := w / 2 ^ 12 % 8 = 0
  let t := field12 w 0
  match op with
  | 0x20 => whenOk (gap && c = 0 && r = 0) (.b h q p t)
  | 0x21 => whenOk (gap && r = 0) (.bc h q p (condOf c) t)
  | 0x22 => whenOk (gap && c = 0) (.bal h q p r t)
  | 0x23 => whenOk (gap && c = 0 && r = 0 && !p) (.call h q t)
  | 0x24 => whenOk (gap && c = 0 && r = 0 && t = 0) (.ret h q p)
  | 0x25 => whenOk (gap && c = 0 && t = 0) (.jmp h q p r)
  | 0x26 => whenOk (gap && c = 0 && !q && !p) (.loop h r t)
  | 0x27 => whenOk (!q && !p) (.loopi h (field12 w 12) t)
  | _ => none

/-- Format F (R286, R287): r1, r2, k [15:12], ctag [11:0]. -/
def decodeFlue (h : HearthId) (op w : Nat) : Option Instr :=
  let r1 := field5 w 21
  let r2 := field5 w 16
  let k := field4 w 12
  let t := field12 w 0
  let q := field2 w 12
  let ok := (r1 != r2 || r1 = 0) && t = 0
  match op with
  | 0x30 => whenOk (r2 = 0) (.send h r1 t k)
  | 0x31 => some (.sendt h r1 r2 t k)
  | 0x32 => whenOk (ok && k.val < 4) (.recv h r1 r2 q)
  | 0x33 => whenOk (ok && k.val < 8) (.peek h r1 r2 q (bitOf w 14))
  | 0x34 => whenOk (w % 2 ^ 21 = 0) (.qstat h r1)
  | _ => none

/-- The Assist group (R289): sub [10:6], imm6[0] the i bit of DIV. -/
def decodeAssist (h : HearthId) (w : Nat) : Option Instr :=
  let rd := field5 w 21
  let rs := field5 w 16
  let one := rd = 0 && w % 64 = 0 && field5 w 11 = 0
  match w / 64 % 32 with
  | 0 => whenOk (rd = 0 && w % 64 < 2) (.div h (bitOf w 0) rs (field5 w 11))
  | 1 => whenOk one (.rcp h rs)
  | 2 => whenOk one (.sqrt h rs)
  | 3 => whenOk one (.rsq h rs)
  | 4 => whenOk one (.log2 h rs)
  | 5 => whenOk one (.exp2 h rs)
  | 6 => whenOk (rs = 0 && w % 64 = 0 && field5 w 11 = 0) (.asrd h rd)
  | _ => none

/-- The transform group (R291 to R293). -/
def decodeTransform (h : HearthId) (w : Nat) : Option Instr :=
  match w / 64 % 32 with
  | 0 => whenOk (ptrFormOk w && w % 64 = 0) (.bexp h (field5 w 21) (field3 w 16) (field5 w 11))
  | 1 =>
    let pa := field3 w 21
    let pb := field3 w 16
    let k := field2 w 0
    whenOk (w / 2 ^ 24 % 4 = 0 && ptrFormOk w && w / 2 ^ 14 % 4 = 0 && w / 4 % 16 = 0 && pa != pb && k.val != 3)
      (.bfly h pa pb (field3 w 11) k)
  | 2 => whenOk (field5 w 11 = 0 && !bitOf w 5) (.scl h (field5 w 21) (field5 w 16) (BitVec.ofNat 5 w))
  | _ => none

/-- SYSW (R295); with g0 as its register, the actions 19 to 22 are WSTOW, WFETCH, DOORBELL and WDKICK (R228). -/
def decodeSysw (h : HearthId) (nr : Fin 32) (rs : GReg) : Instr :=
  if rs = 0 then
    match nr.val with
    | 19 => .wstow h
    | 20 => .wfetch h
    | 21 => .doorbell h
    | 22 => .wdkick h
    | _ => .sysw h nr rs
  else .sysw h nr rs

/-- Format X outside the two groups (R246, R285, R294, R295). -/
def decodeX (h : HearthId) (op w : Nat) : Option Instr :=
  let rd := field5 w 21
  let rs := field5 w 16
  let low := w % 2 ^ 16
  match op with
  | 0x2B => whenOk (w % 2 ^ 26 = 0) (.rett h)
  | 0x2C => whenOk (w % 2 ^ 26 = 0) (.reti h)
  | 0x2D => whenOk (w % 2 ^ 21 = 0) (.waits h rd)
  | 0x2E => whenOk (w % 2 ^ 26 = 0) (.fence h)
  | 0x2F => whenOk (w % 2 ^ 26 = 0) (.nop h)
  | 0x3A => whenOk (rd = 0 && low < 16) (.zapply h rs (field4 w 0))
  | 0x3B => whenOk (rs = 0 && low < 32) (.sysr h rd (field5 w 0))
  | 0x3C => whenOk (rd = 0 && low < 32) (decodeSysw h (field5 w 0) rs)
  | _ => none

/-- Format I (R266, R269, R296, TRAP). -/
def decodeImm (h : HearthId) (op w : Nat) : Option Instr :=
  let rd := field5 w 21
  let rs := field5 w 16
  let imm := BitVec.ofNat 16 w
  match op with
  | 0x02 => some (.addi h rd rs imm)
  | 0x03 => some (.subi h rd rs imm)
  | 0x04 => whenOk (rd = 0) (.cmpi h rs imm)
  | 0x05 => whenOk (rs = 0) (.movi h rd imm)
  | 0x06 => whenOk (rs = 0) (.movhi h rd imm)
  | 0x07 => whenOk (rs = 0) (.moviPointer h rd imm)
  | 0x2A => whenOk (rd = 0 && rs = 0) (.trap h imm)
  | 0x3D =>
    if w / 2 ^ 8 % 2 ^ 7 != 0 then none
    else if bitOf w 15 then whenOk (rd = 0) (.ballR h rs (BitVec.ofNat 8 w))
    else some (.ball h rd rs (BitVec.ofNat 8 w))
  | _ => none

/-- The instruction of a word for Hearth h, by the opcode map; none for a reserved encoding. -/
def decodeHearth (h : HearthId) (v : Word) : Option Instr :=
  let w := v.toNat
  let op := w / 2 ^ 26
  if op = 0x01 then decodeAlu h w
  else if op = 0x08 then decodeMac h w
  else if op = 0x38 then decodeAssist h w
  else if op = 0x39 then decodeTransform h w
  else if (0x02 ≤ op && op ≤ 0x07) || op = 0x2A || op = 0x3D then decodeImm h op w
  else if (0x10 ≤ op && op ≤ 0x17) || op = 0x28 || op = 0x29 then decodeMem h op w
  else if 0x20 ≤ op && op ≤ 0x27 then decodeBranch h op w
  else if 0x30 ≤ op && op ≤ 0x34 then decodeFlue h op w
  else decodeX h op w

/-! ### Encoding -/

/-- Formats A, I, M, F and X: opcode, [25:21], [20:16] and the rest. -/
def packWord (op rd rs low : Nat) : Word := BitVec.ofNat 32 (op * 2 ^ 26 + rd * 2 ^ 21 + rs * 2 ^ 16 + low)

/-- The low half of formats A and X. -/
def packLow (rt fn : Nat) : Nat := rt * 2 ^ 11 + fn

/-- Format B. -/
def packBranch (op : Nat) (q p : Bool) (cond r target : Nat) : Word :=
  BitVec.ofNat 32 (op * 2 ^ 26 + b2n q * 2 ^ 25 + b2n p * 2 ^ 24 + cond * 2 ^ 20 + r * 2 ^ 15 + target)

/-- The low half of format M. -/
def packMem (sz : Nat) (u : Bool) (off : Nat) : Nat := sz * 2 ^ 14 + b2n u * 2 ^ 13 + off

/-- An ALU word. -/
def packAlu (rd rs rt aop : Nat) (s i : Bool) (cond : Nat) : Word :=
  packWord 0x01 rd rs (packLow rt (aop * 64 + b2n s * 32 + b2n i * 16 + cond))

/-- A shift's word. -/
def packShift (rd rs : Nat) (k : ShiftCount) (aop : Nat) (s : Bool) : Word :=
  match k with
  | .reg rt => packAlu rd rs rt.val aop s false 0
  | .imm c => packAlu rd rs c.val aop s true 0

/-- A MAC group word: x, f and fn[3:0]. -/
def packMac (rd rs rt mop x : Nat) (f : Bool) (low : Nat) : Word :=
  packWord 0x08 rd rs (packLow rt (mop * 128 + x * 32 + b2n f * 16 + low))

/-- A word of format X with a sub-code. -/
def packX (op rd rs rt sub imm : Nat) : Word := packWord op rd rs (packLow rt (sub * 64 + imm))

/-- The word of a Hearth instruction; none for a command that is not one. -/
def encodeHearth : Instr → Option Word
  | .add _ rd rs rt s => some (packAlu rd.val rs.val rt.val 0 s false 0)
  | .sub _ rd rs rt s => some (packAlu rd.val rs.val rt.val 1 s false 0)
  | .and _ rd rs rt => some (packAlu rd.val rs.val rt.val 2 false false 0)
  | .or _ rd rs rt => some (packAlu rd.val rs.val rt.val 3 false false 0)
  | .xor _ rd rs rt => some (packAlu rd.val rs.val rt.val 4 false false 0)
  | .not _ rd rs => some (packAlu rd.val rs.val 0 5 false false 0)
  | .shl _ rd rs k s => some (packShift rd.val rs.val k 6 s)
  | .shr _ rd rs k => some (packShift rd.val rs.val k 7 false)
  | .sar _ rd rs k => some (packShift rd.val rs.val k 8 false)
  | .rol _ rd rs k => some (packShift rd.val rs.val k 9 false)
  | .min _ rd rs rt u => some (packAlu rd.val rs.val rt.val 10 u false 0)
  | .max _ rd rs rt u => some (packAlu rd.val rs.val rt.val 11 u false 0)
  | .abs _ rd rs s => some (packAlu rd.val rs.val 0 12 s false 0)
  | .neg _ rd rs s => some (packAlu rd.val rs.val 0 13 s false 0)
  | .clz _ rd rs => some (packAlu rd.val rs.val 0 14 false false 0)
  | .cls _ rd rs => some (packAlu rd.val rs.val 0 15 false false 0)
  | .sel _ rd rs rt c => some (packAlu rd.val rs.val rt.val 16 false false (condCode c))
  | .cmp _ rs rt => some (packAlu 0 rs.val rt.val 17 false false 0)
  | .mov _ (.gg rd rs) => some (packAlu rd.val rs.val 0 18 false false 0)
  | .mov _ (.fromPtr rd x) => some (packAlu rd.val x.val 0 18 false false 1)
  | .mov _ (.toPtr x rs) => some (packAlu x.val rs.val 0 18 false false 2)
  | .addi _ rd rs imm => some (packWord 0x02 rd.val rs.val imm.toNat)
  | .subi _ rd rs imm => some (packWord 0x03 rd.val rs.val imm.toNat)
  | .cmpi _ rs imm => some (packWord 0x04 0 rs.val imm.toNat)
  | .movi _ rd imm => some (packWord 0x05 rd.val 0 imm.toNat)
  | .movhi _ rd imm => some (packWord 0x06 rd.val 0 imm.toNat)
  | .moviPointer _ x imm => some (packWord 0x07 x.val 0 imm.toNat)
  | .mac _ x rs rt f => some (packMac 0 rs.val rt.val 0 x.val f 0)
  | .msu _ x rs rt f => some (packMac 0 rs.val rt.val 1 x.val f 0)
  | .mul _ x rs rt f => some (packMac 0 rs.val rt.val 2 x.val f 0)
  | .macx _ x rs rt f => some (packMac 0 rs.val rt.val 3 x.val f 0)
  | .macd _ x rs rt f => some (packMac 0 rs.val rt.val 4 x.val f 0)
  | .clra _ mask => some (packMac 0 0 0 5 0 false mask.toNat)
  | .mova _ (.read rd x part) => some (packMac rd.val 0 0 6 x.val false (2 * part.val))
  | .mova _ (.write x rs part) => some (packMac 0 rs.val 0 6 x.val false (8 + 2 * part.val))
  | .movar _ rd x => some (packMac rd.val 0 0 7 x.val false 0)
  | .movas _ rd x => some (packMac rd.val 0 0 8 x.val false 0)
  | .sha _ x k => some (packMac 0 0 k.toNat 9 x.val false 0)
  | .adda _ x y neg => some (packMac 0 0 0 10 x.val false (8 * b2n neg + 2 * y.val))
  | .ldb _ rd ra off u => some (packWord 0x10 rd.val ra.val (packMem 0 u off.toNat))
  | .ldh _ rd ra off u => some (packWord 0x10 rd.val ra.val (packMem 1 u off.toNat))
  | .ldw _ rd ra off => some (packWord 0x10 rd.val ra.val (packMem 2 false off.toNat))
  | .stb _ rd ra off => some (packWord 0x11 rd.val ra.val (packMem 0 false off.toNat))
  | .sth _ rd ra off => some (packWord 0x11 rd.val ra.val (packMem 1 false off.toNat))
  | .stw _ rd ra off => some (packWord 0x11 rd.val ra.val (packMem 2 false off.toNat))
  | .ldp _ rd i sz u => some (packWord 0x12 rd.val i.val (packMem (locSizeCode sz) u 0))
  | .stp _ rd i sz => some (packWord 0x13 rd.val i.val (packMem (locSizeCode sz) false 0))
  | .ldm _ rd ra off sz u => some (packWord 0x14 rd.val ra.val (packMem (sizeCode sz) u off.toNat))
  | .stm _ rd ra off sz => some (packWord 0x15 rd.val ra.val (packMem (sizeCode sz) false off.toNat))
  | .rotm _ rd ra off sz => some (packWord 0x16 rd.val ra.val (packMem (sizeCode sz) false off.toNat))
  | .move _ rd ra w => some (packWord 0x17 rd.val ra.val w.val)
  | .b _ q p t => some (packBranch 0x20 q p 0 0 t.val)
  | .bc _ q p c t => some (packBranch 0x21 q p (condCode c) 0 t.val)
  | .bal _ q p rd t => some (packBranch 0x22 q p 0 rd.val t.val)
  | .call _ q t => some (packBranch 0x23 q false 0 0 t.val)
  | .ret _ q p => some (packBranch 0x24 q p 0 0 0)
  | .jmp _ q p rs => some (packBranch 0x25 q p 0 rs.val 0)
  | .loop _ rs stop => some (packBranch 0x26 false false 0 rs.val stop.val)
  | .loopi _ count stop => some (packWord 0x27 0 0 (count.val * 2 ^ 12 + stop.val))
  | .pushl _ i => some (packWord 0x28 0 i.val 0)
  | .popl _ i => some (packWord 0x29 0 i.val 0)
  | .trap _ imm => some (packWord 0x2A 0 0 imm.toNat)
  | .rett _ => some (packWord 0x2B 0 0 0)
  | .reti _ => some (packWord 0x2C 0 0 0)
  | .waits _ rd => some (packWord 0x2D rd.val 0 0)
  | .fence _ => some (packWord 0x2E 0 0 0)
  | .nop _ => some (packWord 0x2F 0 0 0)
  | .send _ rs ctag kind => some (packWord 0x30 rs.val 0 (kind.val * 2 ^ 12 + ctag.val))
  | .sendt _ rs rt ctag kind => some (packWord 0x31 rs.val rt.val (kind.val * 2 ^ 12 + ctag.val))
  | .recv _ rd rm q => some (packWord 0x32 rd.val rm.val (q.val * 2 ^ 12))
  | .peek _ rd rm q w => some (packWord 0x33 rd.val rm.val (b2n w * 2 ^ 14 + q.val * 2 ^ 12))
  | .qstat _ rd => some (packWord 0x34 rd.val 0 0)
  | .div _ int rs rt => some (packX 0x38 0 rs.val rt.val 0 (b2n int))
  | .rcp _ rs => some (packX 0x38 0 rs.val 0 1 0)
  | .sqrt _ rs => some (packX 0x38 0 rs.val 0 2 0)
  | .rsq _ rs => some (packX 0x38 0 rs.val 0 3 0)
  | .log2 _ rs => some (packX 0x38 0 rs.val 0 4 0)
  | .exp2 _ rs => some (packX 0x38 0 rs.val 0 5 0)
  | .asrd _ rd => some (packX 0x38 rd.val 0 0 6 0)
  | .bexp _ rd i rt => some (packX 0x39 rd.val i.val rt.val 0 0)
  | .bfly _ pa pb pw k => some (packX 0x39 pa.val pb.val pw.val 1 k.val)
  | .scl _ rd rs k => some (packX 0x39 rd.val rs.val 0 2 k.toNat)
  | .zapply _ rs g => some (packX 0x3A 0 rs.val 0 0 g.val)
  | .sysr _ rd nr => some (packX 0x3B rd.val 0 0 0 nr.val)
  | .sysw _ nr rs => some (packX 0x3C 0 rs.val 0 0 nr.val)
  | .wstow _ => some (packX 0x3C 0 0 0 0 19)
  | .wfetch _ => some (packX 0x3C 0 0 0 0 20)
  | .doorbell _ => some (packX 0x3C 0 0 0 0 21)
  | .wdkick _ => some (packX 0x3C 0 0 0 0 22)
  | .ball _ rd rs k => some (packWord 0x3D rd.val rs.val k.toNat)
  | .ballR _ rs k => some (packWord 0x3D 0 rs.val (2 ^ 15 + k.toNat))
  | _ => none

end Sys2Proof.Machine
end

