-- ==== Sys2Proof/Machine/HearthDo.lean ====
section
/-! DEFINITION. A Hearth executes an instruction: the one it is stalled on, or the word it fetches (R237, R261, R517). -/

namespace Sys2Proof.Machine

/-- The Hearth that an instruction names executes it. A command that is no Hearth instruction does nothing here. -/
def hearthDo (i : Instr) (s : State) : State :=
  match i with
  | .add h rd rs rt sat => doAdd h rd rs rt sat s
  | .sub h rd rs rt sat => doSub h rd rs rt sat s
  | .and h rd rs rt => doAnd h rd rs rt s
  | .or h rd rs rt => doOr h rd rs rt s
  | .xor h rd rs rt => doXor h rd rs rt s
  | .not h rd rs => doNot h rd rs s
  | .shl h rd rs k sat => doShl h rd rs k sat s
  | .shr h rd rs k => doShr h rd rs k s
  | .sar h rd rs k => doSar h rd rs k s
  | .rol h rd rs k => doRol h rd rs k s
  | .min h rd rs rt u => doMin h rd rs rt u s
  | .max h rd rs rt u => doMax h rd rs rt u s
  | .abs h rd rs sat => doAbs h rd rs sat s
  | .neg h rd rs sat => doNeg h rd rs sat s
  | .clz h rd rs => doClz h rd rs s
  | .cls h rd rs => doCls h rd rs s
  | .sel h rd rs rt c => doSel h rd rs rt c s
  | .cmp h rs rt => doCmp h rs rt s
  | .mov h f => doMov h f s
  | .addi h rd rs imm => doAddi h rd rs imm s
  | .subi h rd rs imm => doSubi h rd rs imm s
  | .cmpi h rs imm => doCmpi h rs imm s
  | .movi h rd imm => doMovi h rd imm s
  | .movhi h rd imm => doMovhi h rd imm s
  | .moviPointer h x imm => doMoviPointer h x imm s
  | .mac h x rs rt f => doMac h x rs rt f s
  | .msu h x rs rt f => doMsu h x rs rt f s
  | .mul h x rs rt f => doMul h x rs rt f s
  | .macx h x rs rt f => doMacx h x rs rt f s
  | .macd h x rs rt f => doMacd h x rs rt f s
  | .clra h mask => doClra h mask s
  | .mova h f => doMova h f s
  | .movar h rd x => doMovar h rd x s
  | .movas h rd x => doMovas h rd x s
  | .sha h x k => doSha h x k s
  | .adda h x y neg => doAdda h x y neg s
  | .ldb h rd ra off u => doLdb h rd ra off u s
  | .ldh h rd ra off u => doLdh h rd ra off u s
  | .ldw h rd ra off => doLdw h rd ra off s
  | .stb h rd ra off => doStb h rd ra off s
  | .sth h rd ra off => doSth h rd ra off s
  | .stw h rd ra off => doStw h rd ra off s
  | .ldp h rd i sz u => doLdp h rd i sz u s
  | .stp h rd i sz => doStp h rd i sz s
  | .ldm h rd ra off sz u => doLdm h rd ra off sz u s
  | .stm h rd ra off sz => doStm h rd ra off sz s
  | .rotm h rd ra off sz => doRotm h rd ra off sz s
  | .move h rd ra w => doMove h rd ra w s
  | .b h q p target => doB h q p target s
  | .bc h q p c target => doBc h q p c target s
  | .bal h q p rd target => doBal h q p rd target s
  | .call h q target => doCall h q target s
  | .ret h q p => doRet h q p s
  | .jmp h q p rs => doJmp h q p rs s
  | .loop h rs stop => doLoop h rs stop s
  | .loopi h count stop => doLoopi h count stop s
  | .pushl h i => doPushl h i s
  | .popl h i => doPopl h i s
  | .trap h imm => doTrap h imm s
  | .rett h => doRett h s
  | .reti h => doReti h s
  | .waits h rd => doWaits h rd s
  | .fence h => doFence h s
  | .nop h => doNop h s
  | .send h rs ctag kind => doSend h rs ctag kind s
  | .sendt h rs rt ctag kind => doSendt h rs rt ctag kind s
  | .recv h rd rm q => doRecv h rd rm q s
  | .peek h rd rm q w => doPeek h rd rm q w s
  | .qstat h rd => doQstat h rd s
  | .div h int rs rt => doDiv h int rs rt s
  | .rcp h rs => doRcp h rs s
  | .sqrt h rs => doSqrt h rs s
  | .rsq h rs => doRsq h rs s
  | .log2 h rs => doLog2 h rs s
  | .exp2 h rs => doExp2 h rs s
  | .asrd h rd => doAsrd h rd s
  | .bexp h rd i rt => doBexp h rd i rt s
  | .bfly h pa pb pw k => doBfly h pa pb pw k s
  | .scl h rd rs k => doScl h rd rs k s
  | .zapply h rs g => doZapply h rs g s
  | .sysr h rd nr => doSysr h rd nr s
  | .sysw h nr rs => doSysw h nr rs s
  | .wstow h => doWstow h s
  | .wfetch h => doWfetch h s
  | .doorbell h => doDoorbell h s
  | .wdkick h => doWdkick h s
  | .ball h rd rs k => doBall h rd rs k s
  | .ballR h rs k => doBallR h rs k s
  | _ => s

/-- Hearth h fetches a reserved encoding (R261): it takes trap ILLEGAL, unless its slot is annulled. NOP, on which
no Hearth is ever stalled, stands for the word. -/
def State.hReserved (s : State) (h : HearthId) : State := s.hInstr h.val (.nop h) false false false fun _ t => .ok t

/-- The word at PC of Hearth n. -/
def State.fetchWord (s : State) (n : Nat) : Word := tabGet zeroWord (s.hearth n).prog (s.hearth n).pc

/-- Hearth h executes the instruction at its PC. -/
def State.hFetch (s : State) (h : HearthId) : State :=
  match decodeHearth h (s.fetchWord h.val) with
  | some i => hearthDo i s
  | none => s.hReserved h

/-- The instruction ends the work of a sample as it stalls: its wait for the next sample adds no step (R34). -/
def State.paceWait (s : State) (n : Nat) : Instr → Bool
  | .waits .. => s.paceWaits n
  | .recv _ _ _ q => s.paceQueue n q.val
  | _ => false

/-- Hearth h goes on with the instruction it is stalled on, after steps that its stall has lasted (R234, R237). -/
def State.hRetry (s : State) (h : HearthId) (steps : Nat) : State :=
  match (s.hearth h.val).stalled with
  | none => s
  | some i => if s.executes h.val then hearthDo i (if s.paceWait h.val i then s else s.paceSteps h.val steps) else s

/-- The debug steps that have been asked for are executed (R517). -/
def State.debugSteps (s : State) : State :=
  (List.finRange 192).foldl (fun s h =>
    if (s.hearth h.val).stepping && (s.hearth h.val).stalled.isNone then s.hFetch h else s) s

end Sys2Proof.Machine
end

