-- ==== Sys2Proof/Machine/Boot.lean ====
section
/-! DEFINITION. The boot ROM of Hearth 0 (17 R466 to R472, 18 R486). Its accesses go out under MID 0. -/

namespace Sys2Proof.Machine

abbrev stagePage : Nat := 0x005FFF00
abbrev stageBase : Nat := 0x00600000

/-- The codes of SKP_BOOT_STAT.result. -/
abbrev bootNoImage := 1
abbrev bootKey := 2
abbrev bootSig := 3
abbrev bootRecord := 4
abbrev bootFlash := 5

def State.setRom (s : State) (r : RomSt) : State := s.modSkp fun k => { k with rom := r }

/-- The ROM writes a register. -/
def State.romWrite (s : State) (a : Nat) (v : Word) : State := s.issue 0 ⟨a, .b32, some (v.zeroExtend 64), true⟩ .nobody

/-! ### The Keeper's commands (R457, R468, R470) -/

/-- The Keeper takes commands of the ROM. -/
def State.romKeeper (s : State) : Bool := !s.bit SKP_STAT SKP_STAT_busy && !s.pins.pfailLow && !s.inLight

def State.skpResult (s : State) : Nat := s.fld SKP_STAT SKP_STAT_result

/-- The ROM runs HASH over n bytes of the staged payload. -/
def State.romHash (s : State) (n : Nat) : State :=
  (((s.romWrite SKP_BUF (BitVec.ofNat 32 stageBase)).romWrite SKP_LEN (BitVec.ofNat 32 n)).romWrite SKP_CMD 7).skpWork 1

/-- The steps of a load of a boot slot: both first pages, and each page of both copies. -/
abbrev bootSteps : Nat := 16400

/-- The ROM runs LOAD_BOOT to the stage. -/
def State.romLoad (s : State) : State :=
  ((s.romWrite SKP_BUF (BitVec.ofNat 32 stageBase)).romWrite SKP_CMD 5).skpWork bootSteps

/-- The partner of the copy that was loaded, as the Keeper would fall back to it (R458). -/
def State.romLoadPartner (s : State) (b : Bool) (h : SlotHdr) : State :=
  let j : SkpJob := { jobReset with begun := true, slot := b, gen := h.gen, len := h.len, pcrc := h.pcrc, fell := true, crc := crcStart }
  (((s.setReg SKP_CMD 5).setFld SKP_STAT SKP_STAT_busy 1).setJob j).skpWork bootSteps

/-! ### Verification (R468) -/

/-- The digest in SKP_DIGEST0–7, as a number. -/
def State.digestNat (s : State) : Nat :=
  beNat ((List.range 8).flatMap fun i => leBytes 4 (s.reg (SKP_DIGEST i)).toNat)

/-- A key slot of the OTP holds the hash of a public key, and is neither empty nor revoked. -/
def otpKey (otp : Tab Word) (hash : List Byte) (k : Nat) : Bool :=
  let w := fun j => tabGet zeroWord otp (8 + 8 * k + j)
  ((List.range 8).any fun j => w j != 0) && !bitOf (tabGet zeroWord otp 2).toNat (2 + k) &&
    (List.range 8).all fun j => (w j).toNat = leNat (slice hash (4 * j) 4)

/-- What a failed read or command of the ROM leaves as the result: the spec names no code. -/
def State.freeResult (s : State) : Nat × State := (s.fresh.1.toNat % 15 + 1, s.fresh.2)

/-- The staged image of a header: its records' bytes and 0, or the result of the failure. DEDUCED, log entry 133. -/
def State.romVerify (s : State) (h : SlotHdr) : (List Byte × Nat) × State :=
  match s.skpWords 0 stageBase ((h.len + 7) / 8) with
  | (none, s1) => (([], s1.freeResult.1), s1.freeResult.2)
  | (some l, s1) =>
    let d := l.take h.len
    if h.flags % 2 = 0 then
      if bitOf (tabGet zeroWord s1.otp 2).toNat 0 then (([], bootSig), s1) else ((d, 0), s1)
    else if h.len < 128 then (([], bootSig), s1)
    else
      let s2 := s1.romHash (h.len - 128)
      let t := d.drop (h.len - 128)
      if s2.skpResult != skpOK then (([], s2.freeResult.1), s2.freeResult.2)
      else if !(List.range 4).any (otpKey s2.otp (sha256 (t.take 64))) then (([], bootKey), s2)
      else if ecdsaVerify (beAt t 0 32) (beAt t 32 32) (beAt t 64 32) (beAt t 96 32) s2.digestNat then
        ((d.take (h.len - 128), 0), s2)
      else (([], bootSig), s2)

/-! ### Load records (R467) -/

/-- A load record: address, kind, count, and the words that follow. -/
structure LoadRec where
  dst : Nat
  kind : Nat
  count : Nat
  words : List Word
deriving DecidableEq, Repr

/-- The little-endian words of a string whose length is a multiple of 4. -/
def leWords : Nat → List Byte → List Word
  | 0, _ => []
  | n + 1, l => BitVec.ofNat 32 (leNat (l.take 4)) :: leWords n (l.drop 4)

/-- The range of a record touches the stage. -/
def touchesStage (dst count : Nat) : Bool :=
  count != 0 && decide (dst ≤ 0x007FFFFF) && decide (0x005FFF00 < dst + 4 * count)

/-- The records of an image; none when its structure is rejected. -/
def loadRecs : Nat → List Word → Option (List LoadRec)
  | 0, _ => none
  | n + 1, d :: c :: rest =>
    let dst := d.toNat
    let count := c.toNat % 2 ^ 24
    let kind := c.toNat / 2 ^ 24 % 16
    let follow := if kind = 0 then count else 1
    if kind = 15 then (if rest = [] then some [⟨dst, 15, 0, []⟩] else none)
    else if 2 ≤ kind ∨ rest.length < follow ∨ touchesStage dst count = true then none
    else (loadRecs n (rest.drop follow)).map fun l => ⟨dst, kind, count, rest.take follow⟩ :: l
  | _, _ => none

/-- The records of a string of bytes. -/
def recordsOf (d : List Byte) : Option (List LoadRec) :=
  if d.length % 4 = 0 then loadRecs (d.length / 4) (leWords (d.length / 4) d) else none

/-- The writes of words from an address on. -/
def wordsAt : Nat → List Word → List (Nat × Word)
  | _, [] => []
  | a, w :: rest => (a, w) :: wordsAt (a + 4) rest

/-- The writes of a record. -/
def LoadRec.writes (r : LoadRec) : List (Nat × Word) :=
  wordsAt r.dst (if r.kind = 0 then r.words else List.replicate r.count (r.words.headD 0))

/-- The entry address of the END record. -/
def recEntry (l : List LoadRec) : Nat := ((l.map LoadRec.dst).getLastD 0) % 4096

/-! ### Handover and failure (R470 to R472) -/

def State.bootResult (s : State) (r : Nat) : State := s.setFld SKP_BOOT_STAT SKP_BOOT_STAT_result r

/-- Hearth 0 continues at a word address (R472). -/
def State.handover (s : State) (source entry : Nat) : State :=
  let s1 := ((s.setFld SKP_BOOT_STAT SKP_BOOT_STAT_source source).bootResult 0).setFld SKP_BOOT_STAT SKP_BOOT_STAT_done 1
  (((s1.setReg (CHM_RA_ALLOW 0) 0).setReg (CHM_RA_ALLOW 1) 0).modHearth 0 fun h => { h with
    pc := entry, npc := (entry + 1) % 4096, pcFresh := false }).setRom .done

/-- A FLASH boot fails: fail_action halts Hearth 0, or the ROM waits as in HOST_PCIE (R470). -/
def State.bootFail (s : State) (r : Nat) : State :=
  let s1 := s.bootResult r
  if bitOf (tabGet zeroWord s1.otp 2).toNat 1 then s1.setRom .waiting else (s1.haltHearth 0).setRom .halted

/-- A staged image fails: its result, go cleared, and the ROM waits again (R471). -/
def State.stagedFail (s : State) (r : Nat) : State := ((s.bootResult r).setFld SKP_BOOT_GO SKP_BOOT_GO_go 0).setRom .waiting

/-- A write of a load record has been answered with an error: the boot stops with RECORD (R467). -/
def State.romStop (s : State) (source : Nat) : State := if source = 3 then s.stagedFail bootRecord else s.bootFail bootRecord

/-- The writes of the load records go out in order, each after the answer to the one before, and the handover follows (R467). A
write that raised a system reset ends the boot. -/
def State.romApply (s : State) (source entry : Nat) : List (Nat × Word) → State
  | [] => s.handover source entry
  | (a, w) :: rest =>
    let s1 := (s.setRom (.applying source entry rest)).issue 0 ⟨a, .b32, some (w.zeroExtend 64), true⟩ .rom
    match s1.takeAnswer .rom with
    | none => s1
    | some (r, s2) =>
      if s2.skp.rom = .idle then s2
      else if respErr r.resp then s2.romStop source
      else s2.romApply source entry rest

/-- The ROM goes on with the answer to a write that did not complete as it was issued. -/
def State.romResume (s : State) : State :=
  match s.skp.rom with
  | .applying source entry rest =>
    match s.takeAnswer .rom with
    | none => s
    | some (r, s1) => if respErr r.resp then s1.romStop source else s1.romApply source entry rest
  | _ => s

/-! ### The sources (R466, R470, R471) -/

/-- A staged image is checked and applied (R471). DESIGN CHOICE, log entry 132. -/
def State.romStaged (s : State) : State :=
  match s.skpWords 0 stagePage 32 with
  | (none, s1) => s1.freeResult.2.stagedFail s1.freeResult.1
  | (some page, s1) =>
    match hdrOf .boot 0x200000 (page.take 32) with
    | none => s1.stagedFail bootNoImage
    | some h =>
      let s2 := s1.romHash h.len
      if s2.skpResult != skpOK then s2.freeResult.2.stagedFail s2.freeResult.1
      else if (s2.reg SKP_RES_CRC).toNat ≠ h.pcrc then s2.stagedFail bootNoImage
      else
        match s2.romVerify h with
        | ((_, r + 1), s3) => s3.stagedFail (r + 1)
        | ((d, 0), s3) =>
          match recordsOf d with
          | none => s3.stagedFail bootRecord
          | some l => s3.romApply 3 (recEntry l) (l.flatMap LoadRec.writes)

/-- The ROM acts on a go, or on an answer, that it waits for. -/
def State.romWatch (s : State) : State :=
  if decide (s.skp.rom = .waiting) && s.bit SKP_BOOT_GO SKP_BOOT_GO_go && s.ramOpen && s.running 0 && s.romKeeper then
    s.romStaged
  else s.romResume

/-- The records of the copy that is staged, or the result of its failure. -/
def State.flashTry (s : State) (h : SlotHdr) : Except Nat (List LoadRec) × State :=
  match s.romVerify h with
  | ((_, r + 1), s1) => (.error (r + 1), s1)
  | ((d, 0), s1) =>
    match recordsOf d with
    | none => (.error bootRecord, s1)
    | some l => (.ok l, s1)

/-- The copy in slot b is applied. -/
def State.flashApplyImage (s : State) (b : Bool) (l : List LoadRec) : State :=
  s.romApply (1 + b2n b) (recEntry l) (l.flatMap LoadRec.writes)

/-- The header of a slot of the boot pair; the ROM reads its first page. -/
def State.bootHdr (s : State) (b : Bool) : SlotHdr := (s.slotHdr .boot b).getD ⟨0, 0, 0, 0⟩

/-- FLASH boot (R470): the current copy, and if it does not pass its partner. -/
def State.romFlash (s : State) : State :=
  let s1 := s.romLoad
  if s1.skpResult = skpEMPTY then s1.bootFail bootNoImage
  else if s1.skpResult != skpOK then s1.bootFail bootFlash
  else
    let b := s1.fld SKP_RES_INFO SKP_RES_INFO_slot = 1
    let fell := s1.fld SKP_RES_INFO SKP_RES_INFO_fallback = 1
    match s1.flashTry (s1.bootHdr b) with
    | (.ok l, s2) => s2.flashApplyImage b l
    | (.error r, s2) =>
      match (if fell then none else s2.slotIntact .boot true (!b)) with
      | none => s2.bootFail r
      | some h =>
        let s3 := s2.romLoadPartner (!b) h
        match s3.flashTry h with
        | (.ok l, s4) => s4.flashApplyImage (!b) l
        | (.error r2, s4) => s4.bootFail r2

/-- CHIMNEY mode: the Chimney and its ports with the topology of OTP word 2 and id_mode 1, and every remote engine allowed (R471).
DEDUCED, log entry 134. -/
def State.romChimney (s : State) : State :=
  let w := (tabGet zeroWord s.otp 2).toNat
  let v := 1 + 2 ^ 2 + w / 2 ^ 6 % 4 * 2 ^ 4 + w / 2 ^ 8 % 2 ^ 6 * 2 ^ 16 + w / 2 ^ 14 % 2 ^ 3 * 2 ^ 24 +
    s.fld CHM_CTRL CHM_CTRL_lead_prio * 2 ^ 8
  let s1 := (List.range 4).foldl (fun t p => t.romWrite (CHM_P_CTRL p) 1) (s.romWrite CHM_CTRL (BitVec.ofNat 32 v))
  (s1.romWrite (CHM_RA_ALLOW 0) 0xFFFFFFFF).romWrite (CHM_RA_ALLOW 1) 0xFFFFFFFF

/-- The ROM resumes a retained program (R486). -/
def State.resumes (s : State) : Bool := s.bit EMB_RESUME EMB_RESUME_en && s.fld EMB_CAUSE EMB_CAUSE_cause = 5 && s.fld EMB_CAUSE EMB_CAUSE_from = 2

/-- The boot ROM begins (R466, R486). DESIGN CHOICE, log entry 131. -/
def State.romStart (s : State) : State :=
  let s1 := s.setRom .waiting
  if s.resumes then s1.handover 0 (s.fld EMB_RESUME EMB_RESUME_pc)
  else
    let s2 := s1.romWrite SKP_FLASH_CFG (if s.bit SKP_BOOT_STAT SKP_BOOT_STAT_flash_oct then 0x10609 else 0x620)
    match s.fld SKP_BOOT_STAT SKP_BOOT_STAT_boot_mode with
    | 0 => s2.romFlash
    | 3 => s2.romChimney.romWatch
    | _ => s2.romWatch

/-- BOOT_ROM_START (R466): after the clear, Hearth 0 begins the boot ROM, or goes on with it. DESIGN CHOICE, log entry 4. -/
def execBootRomStart (s : State) : Host.Outcome State Fault Refusal :=
  s.runXo fun s =>
    if decide (s.skp.rom = .idle) && s.ramOpen && s.running 0 && s.romKeeper then s.romStart.pump else s.romResume

/-- A meaning that accesses registers by way of the bus: what waits goes on, the debug steps asked for are executed, and the
ROM acts on a go. -/
def State.runBus (s : State) (f : State → State) : Host.Outcome State Fault Refusal :=
  s.run fun s => (f s).pump.debugSteps.pump.romWatch

/-- BOOT_GO (R471): a write of 1 to SKP_BOOT_GO.go. -/
def execBootGo (m : Mid) (v : Word) (s : State) : Host.Outcome State Fault Refusal :=
  s.runBus fun s => s.writeReg m.val SKP_BOOT_GO (v ||| 1) (accept fun s => s.plainWrite SKP_BOOT_GO (v ||| 1))

end Sys2Proof.Machine
end

