-- ==== Sys2Proof/Machine/HearthRun.lean ====
section
/-! DEFINITION. The Hearth's instructions on engine addresses as commands, the end of a stall, a debug step, and a reserved
encoding (R237, R261, R276 to R278, R296, R517). -/

namespace Sys2Proof.Machine

/-- LDM (R276). -/
def execLdm (h : HearthId) (rd ra : GReg) (off : BitVec 13) (sz : AccSize) (u : Bool) (s : State) :
    Host.Outcome State Fault Refusal := s.runBus (doLdm h rd ra off sz u)

/-- STM (R276). -/
def execStm (h : HearthId) (rd ra : GReg) (off : BitVec 13) (sz : AccSize) (s : State) :
    Host.Outcome State Fault Refusal := s.runBus (doStm h rd ra off sz)

/-- ROTM (R277). -/
def execRotm (h : HearthId) (rd ra : GReg) (off : BitVec 13) (sz : AccSize) (s : State) :
    Host.Outcome State Fault Refusal := s.runBus (doRotm h rd ra off sz)

/-- MOVE (R278). -/
def execMove (h : HearthId) (rd ra : GReg) (w : Fin 256) (s : State) : Host.Outcome State Fault Refusal :=
  s.runBus (doMove h rd ra w)

/-- BALL (R296). -/
def execBall (h : HearthId) (rd rs : GReg) (k : Byte) (s : State) : Host.Outcome State Fault Refusal :=
  s.runBus (doBall h rd rs k)

/-- BALL_R (R296). -/
def execBallR (h : HearthId) (rs : GReg) (k : Byte) (s : State) : Host.Outcome State Fault Refusal :=
  s.runBus (doBallR h rs k)

/-- STALL_CLEAR (R237): the instruction that Hearth h is stalled on is tried again, after the steps that the stall has lasted.
It retires if what it waits for has come. -/
def execStallClear (h : HearthId) (steps : BitVec 16) (s : State) : Host.Outcome State Fault Refusal :=
  s.runBus fun s => s.hRetry h steps.toNat

/-- HRT_DBG_STEP (R517): a write to HRT_DBG_CTRL with step at 1. -/
def execHrtDbgStep (m : Mid) (h : HearthId) (v : Word) (s : State) : Host.Outcome State Fault Refusal :=
  s.runBus fun s => s.writeReg m.val (HRT_DBG_CTRL h.val) (v ||| 1) (accept fun s => s.writeDbgCtrl h.val (v ||| 1))

/-- RESERVED_ENCODING (R261): Hearth h fetches the word w. A word that is an instruction is none of this row's. -/
def execReservedEncoding (h : HearthId) (w : Word) (s : State) : Host.Outcome State Fault Refusal :=
  s.runBus fun s => if (decodeHearth h w).isNone then s.hReserved h else s

end Sys2Proof.Machine
end

