-- ==== Sys2Proof/Machine/Host.lean ====
section
/-! DEFINITION. Commands that access the engine by way of the bus, the hosts' requests, and what completes late (02 R42 to
R60, 11 R327, 12 R335 to R338, 15 R425 to R429, 19 R505 to R516). -/

namespace Sys2Proof.Machine

/-! ### Registers and the fence -/

/-- REGISTER_WRITE (R9, R10). -/
def execRegisterWrite (m : Mid) (a v : Word) (s : State) : Host.Outcome State Fault Refusal :=
  s.runBus fun s => s.access m.val ⟨a.toNat, .b32, some (v.zeroExtend 64), true⟩

/-- BUS_ACCESS (R47): a read, or a write of the data given. DEDUCED, log entry 7. -/
def execBusAccess (m : Mid) (a : Word) (sz : AccSize) (w : Option (BitVec 64)) (s : State) :
    Host.Outcome State Fault Refusal := s.runBus fun s => s.access m.val ⟨a.toNat, sz, w, true⟩

/-- FENCE_READ (R60): at once when every earlier access of the master has completed, else as soon as they have; no later access
of the master comes before it. -/
def execFenceRead (m : Mid) (s : State) : Host.Outcome State Fault Refusal :=
  s.run fun s => s.readReg m.val SYS_FENCE (State.fenceRead m.val)

/-- HEARTH_RESUME (R249, R256): a write of 1 to HRT_CTRL.run. -/
def execHearthResume (m : Mid) (h : HearthId) (s : State) : Host.Outcome State Fault Refusal :=
  s.runBus fun s => s.writeReg m.val (HRT_CTRL h.val) 1 (writeHrtCtrl h.val 1)

/-- CLEAR_DONE (R326, R327): the clear ends, and what it held goes on. -/
def execClearDone (s : State) : Host.Outcome State Fault Refusal :=
  s.runXo fun s =>
    if s.bit MEMC_STATUS MEMC_STATUS_clearing && !s.ramOpen then
      ((s.setFld MEMC_STATUS MEMC_STATUS_clearing 0).setFld MEMC_STATUS MEMC_STATUS_clear_done 1).pump.romWatch
    else s

/-! ### The Damper's groups (R335 to R338, R429) -/

/-- GROUP_CLOSE (R338): a group whose close has come closes. -/
def execGroupClose (s : State) : Host.Outcome State Fault Refusal :=
  s.runXo fun s => (match s.dmpNextDue with
    | none => s
    | some n => s.dmpClose n).pump

/-- DMP_WR_VALUE (R334, R335). -/
def execDmpWrValue (m : Mid) (v : Word) (s : State) : Host.Outcome State Fault Refusal :=
  s.run fun s => (s.access m.val ⟨DMP_WR_VALUE, .b32, some (v.zeroExtend 64), true⟩).pump

/-- DMP_KICK (R336). -/
def execDmpKick (m : Mid) (v : Word) (s : State) : Host.Outcome State Fault Refusal :=
  s.run fun s => (s.access m.val ⟨DMP_KICK_AT_HI, .b32, some (v.zeroExtend 64), true⟩).pump

/-- A broadcast Kickoff goes to this engine's Damper and on along the issuer's tree; a refusing engine reports at once. -/
def State.kickIn (s : State) (k : ChmPacket) : State :=
  let w := k.word
  let report := bitOf w 52
  let seq := w / 2 ^ 53 % 256
  let (done, s1) := s.dmpKick (w / 2 ^ 48 % 16) (w % 2 ^ 48) (if report then some (k.src, seq) else none) (0x320 + k.src)
  let s2 := if !done && report then s1.sendReport k.src seq 3 0 else s1
  s2.chmBroadcast k.src (mkCtrl kindKickoff k.src k.src 0 false 0 w)

/-- KICKOFF_RECEIVE (R429, R345): the oldest broadcast Kickoff that has arrived. -/
def execKickoffReceive (s : State) : Host.Outcome State Fault Refusal :=
  s.run fun s => match s.takeCtrl kindKickoff with
    | none => s
    | some ((_, k), s1) => (s1.kickIn k).pump

/-! ### Remote access (R425 to R428) -/

/-- RA_READ (R425). -/
def execRaRead (m : Mid) (s : State) : Host.Outcome State Fault Refusal := s.run fun s => s.access m.val ⟨CHM_RA_RDATA, .b32, none, true⟩

/-- RA_WRITE (R425). -/
def execRaWrite (m : Mid) (v : Word) (s : State) : Host.Outcome State Fault Refusal :=
  s.run fun s => s.access m.val ⟨CHM_RA_WDATA, .b32, some (v.zeroExtend 64), true⟩

/-- A completion frees its tag and ends its access; one for a tag with nothing outstanding is counted (R428). -/
def State.completionIn (s : State) (k : ChmPacket) : State :=
  match s.tagOf k.tag with
  | .busy mid write who =>
    ((s.setTag k.tag .free).raDone mid write who ⟨respOf (k.field 39 37), BitVec.ofNat 64 (k.word % 2 ^ 32)⟩).raPump 256
  | _ => (s.bump CHM_LATE_CPL whole).setFld CHM_STAT CHM_STAT_late_cpl 1

/-- REMOTE_COMPLETION (R428): the oldest completion that has arrived. -/
def execRemoteCompletion (s : State) : Host.Outcome State Fault Refusal :=
  s.run fun s => match s.takeCtrl kindCompletion with
    | none => s
    | some ((_, k), s1) => (s1.completionIn k).pump

/-- RT_TIMEOUT (R427, R428): the timer of a tag expires. -/
def execRtTimeout (t : Fin 256) (s : State) : Host.Outcome State Fault Refusal :=
  s.runXo fun s => match s.tagOf t.val with
    | .busy mid write who => ((s.setTag t.val .quarantined).raDone mid write who ⟨.timeout, 0⟩).pump
    | _ => s

/-- QUARANTINE_EXPIRY (R428). -/
def execQuarantineExpiry (t : Fin 256) (s : State) : Host.Outcome State Fault Refusal :=
  s.runXo fun s => if s.tagOf t.val = .quarantined then ((s.setTag t.val .free).raPump 256).pump else s

/-- The access that a request names: its address, its direction, and the word of a write. -/
def requestAccess (k : ChmPacket) : Access :=
  ⟨k.word % 2 ^ 32, .b32, if k.field 36 36 = 1 then some (BitVec.ofNat 64 (k.word / 2 ^ 32)) else none, true⟩

/-- A request that has arrived is made under the MID of its engine and answered with a completion. While two engines claim this
ID it is answered with DECERR (R410). -/
def State.requestIn (s : State) (p : Nat) (k : ChmPacket) : State :=
  if s.bit CHM_ID CHM_ID_dup then
    (s.chmUnicast (mkCtrl kindCompletion k.src s.chmId k.tag false (respCode .decerr) 0)).2
  else s.addJob ⟨0x320 + k.src, [requestAccess k], false, [], .remote p k.src k.tag⟩

/-- REMOTE_REQUEST (R425): the oldest request that has arrived. -/
def execRemoteRequest (s : State) : Host.Outcome State Fault Refusal :=
  s.runBus fun s => match s.takeCtrl kindRequest with
    | none => s
    | some ((p, k), s1) => s1.requestIn p k

/-! ### PCIe memory requests (R42, R49, R505, R506) -/

/-- A byte of a request: its engine address, its enable, its value. -/
abbrev ReqByte := Nat × Bool × Byte

/-- The bytes of a request. -/
def reqBytes (r : PcieReq) : List ReqByte :=
  let base := r.offset.toNat / 4 * 4 + (if r.bar2 then 0 else 0x01000000)
  r.bytes.zipIdx.map fun x => (base + x.2, x.1.1, x.1.2)

/-- An access that covers bytes. -/
def coverAcc (write : Bool) (a : Nat) (sz : AccSize) (l : List ReqByte) (full : Bool) : Access :=
  ⟨a, sz, if write then some (BitVec.ofNat 64 (leNat (l.map fun x => x.2.2))) else none, full⟩

/-- Byte accesses. -/
def byteAccs (write : Bool) (l : List ReqByte) : List Access := l.map fun x => coverAcc write x.1 .b8 [x] true

/-- The largest size that is naturally aligned at a and has no more than n bytes. -/
def largestAt (a n : Nat) : AccSize :=
  if a % 8 = 0 ∧ 8 ≤ n then .b64 else if a % 4 = 0 ∧ 4 ≤ n then .b32 else if a % 2 = 0 ∧ 2 ≤ n then .b16 else .b8

/-- The accesses that cover a run of bytes of the Mantel. -/
def coverRun (write : Bool) : Nat → List ReqByte → List Access
  | 0, _ => []
  | _, [] => []
  | k + 1, x :: t =>
    let sz := largestAt x.1 (t.length + 1)
    let n := sizeBytes sz
    coverAcc write x.1 sz ((x :: t).take n) true :: coverRun write k ((x :: t).drop n)

/-- Runs of bytes that follow each other. -/
def runsOf (l : List ReqByte) : List (List ReqByte) := l.splitBy fun a b => a.1 + 1 == b.1

/-- A piece of 8 bytes of the Mantel. -/
def mantelPiece (write : Bool) (l : List ReqByte) : List Access :=
  match runsOf l with
  | [run] => coverRun write 8 run
  | _ => byteAccs write l

/-- A request to the Mantel, split at 8-byte boundaries (R312). -/
def mantelAccs (write : Bool) (l : List ReqByte) : List Access :=
  ((l.filter fun x => x.2.1).splitBy fun a b => a.1 / 8 == b.1 / 8).flatMap (mantelPiece write)

/-- A run within a DW of a data RAM. -/
def tileRun (write : Bool) (l : List ReqByte) : List Access :=
  let a := (l.headD (0, false, 0)).1
  if l.length = 1 then [coverAcc write a .b8 l true]
  else if l.length = 2 ∧ a % 2 = 0 then [coverAcc write a .b16 l true]
  else if l.length = 4 ∧ a % 4 = 0 then [coverAcc write a .b32 l true]
  else byteAccs write l

/-- A DW of BAR0: of a data RAM, or one 32-bit access. -/
def dwAccs (write : Bool) (l : List ReqByte) : List Access :=
  let a := (l.headD (0, false, 0)).1
  if 0x01000000 ≤ a ∧ a < 0x01C00000 ∧ a % 0x10000 < 0x8000 then
    (runsOf (l.filter fun x => x.2.1)).flatMap (tileRun write)
  else [coverAcc write a .b32 l (l.all fun x => x.2.1)]

/-- The engine accesses of a request, in ascending address order (R506). DEDUCED, log entry 152. -/
def reqAccesses (r : PcieReq) : List Access :=
  if r.bar2 then mantelAccs r.write (reqBytes r)
  else ((reqBytes r).splitBy fun a b => a.1 / 4 == b.1 / 4).flatMap (dwAccs r.write)

/-- A request that makes no access: unsupported (R505, R508, R509), or turned away on the way to sleep (R482).
DEDUCED, log entry 150. -/
def State.pcieTurnAway (s : State) (r : PcieReq) : Nat :=
  if !r.plain || !s.pcie.memEn || s.pcie.d3hot || (r.bar2 && decide (0x00800000 ≤ r.offset.toNat)) then 1
  else if s.pwrState = 4 ∧ lvStandby ≤ s.pwr.target then 2
  else 0

/-- PCIE_REQUEST (R506, R507): a memory request, made and completed in the order of arrival. DESIGN CHOICE, log entry 156. -/
def execPcieRequest (r : PcieReq) (s : State) : Host.Outcome State Fault Refusal :=
  s.runBus fun s =>
    if s.bit HIF_PCIE_STAT HIF_PCIE_STAT_link_up then
      let st := s.pcieTurnAway r
      s.addJob ⟨0x300, if st = 0 then reqAccesses r else [], false, [], .pcie r.write st false⟩
    else s

/-! ### QSPI frames (R512 to R514) -/

/-- A frame that set an error bit: it is counted and raises SRC_QSPI. -/
def State.qspiErr (s : State) (bad : Bool) : State :=
  if bad then (s.bump HIF_QSPI_ERRS whole).raise 459 else s

def State.qspiOn (s : State) : Bool := s.bit HIF_QSPI_CFG HIF_QSPI_CFG_en

/-- Words of WRITE frames that have not been accepted. -/
def State.qspiHeld (s : State) : Nat := s.jobs.countP fun j => j.fin = .qspiWrite

/-- A word of a WRITE frame; false when the port has no place for it. -/
def State.qspiWord (s : State) (a : Nat) (w : Word) : Bool × State :=
  if 16 ≤ s.qspiHeld then (false, s)
  else (true, s.addJob ⟨0x301, [⟨a % 2 ^ 32, .b32, some (w.zeroExtend 64), true⟩], false, [], .qspiWrite⟩)

/-- The words of a WRITE frame: whether one was dropped. -/
def State.qspiWords (s : State) (a : Nat) : List Word → Bool × State
  | [] => (false, s)
  | w :: rest =>
    let (took, s1) := s.qspiWord a w
    let (drop, s2) := s1.qspiWords (a + 4) rest
    (!took || drop, s2)

/-- QSPI_WRITE (R513). DEDUCED, log entry 153. -/
def execQspiWrite (f : QspiWr) (s : State) : Host.Outcome State Fault Refusal :=
  s.runBus fun s =>
    if !s.qspiOn then s
    else match f.addr with
      | none => (s.setFld HIF_QSPI_STAT HIF_QSPI_STAT_frame_err 1).qspiErr true
      | some a =>
        if a.toNat % 4 ≠ 0 then (s.setFld HIF_QSPI_STAT HIF_QSPI_STAT_frame_err 1).qspiErr true
        else
          let (drop, s1) := s.qspiWords a.toNat f.words
          let s2 := s1.setFldIf drop HIF_QSPI_STAT HIF_QSPI_STAT_word_drop 1
          (s2.setFldIf f.rest HIF_QSPI_STAT HIF_QSPI_STAT_frame_err 1).qspiErr (drop || f.rest)

/-- QSPI_READ (R514): the address (none when the frame ends inside it), the count byte (none when it ends before it is whole),
and whether CS_N rises before the marker. -/
def execQspiRead (addr : Option Word) (count : Option (Fin 64)) (cut : Bool) (s : State) :
    Host.Outcome State Fault Refusal :=
  s.runBus fun s =>
    if !s.qspiOn then s
    else match addr with
      | none => (s.setFld HIF_QSPI_STAT HIF_QSPI_STAT_frame_err 1).qspiErr true
      | some a =>
        if a.toNat % 4 ≠ 0 then (s.setFld HIF_QSPI_STAT HIF_QSPI_STAT_frame_err 1).qspiErr true
        else
          let gone := cut || count.isNone
          let s1 := (s.setFldIf gone HIF_QSPI_STAT HIF_QSPI_STAT_abandoned 1).qspiErr gone
          match count with
          | none => s1
          | some c =>
            let l := (List.range (c.val + 1)).map fun i => (⟨(a.toNat + 4 * i) % 2 ^ 32, .b32, none, true⟩ : Access)
            s1.addJob ⟨0x301, l, false, [], .qspiRead cut⟩

/-- The byte of a STATUS frame: writes pending, HIF_QSPI_STAT has a bit set, RUN. -/
def State.qspiStatusByte (s : State) : Byte :=
  BitVec.ofNat 8 (b2n (s.qspiHeld != 0) + b2n (s.qspiStat != 0) * 2 + b2n s.inRun * 4)

/-- QSPI_STATUS (R512). -/
def execQspiStatus (s : State) : Host.Outcome State Fault Refusal :=
  s.run fun s => if s.qspiOn then s.modHif fun h => { h with qspiOut := h.qspiOut ++ [[s.qspiStatusByte]] } else s

/-- QSPI_UNKNOWN_OPCODE (R514). -/
def execQspiUnknownOpcode (op : Byte) (s : State) : Host.Outcome State Fault Refusal :=
  s.run fun s =>
    if s.qspiOn && op != 0x02 && op != 0x0B && op != 0x05 then
      (s.setFld HIF_QSPI_STAT HIF_QSPI_STAT_frame_err 1).qspiErr true
    else s

/-! ### The TAP's debug access (R516) -/

/-- JTAG_DBG_UPDATE (R516): Update-DR of DBG. DEDUCED, log entry 154. -/
def execJtagDbgUpdate (op : Fin 4) (a v : Word) (s : State) : Host.Outcome State Fault Refusal :=
  s.runBus fun s =>
    if s.hif.tapIr = 0x10 ∧ s.hif.dbgStat ≠ 1 ∧ (op.val = 1 ∨ op.val = 2) then
      (s.modHif fun h => { h with dbgStat := 1 }).addJob
        ⟨0x302, [⟨a.toNat, .b32, if op.val = 2 then some (v.zeroExtend 64) else none, true⟩], false, [], .jtag⟩
    else s

end Sys2Proof.Machine
end

