-- ==== Sys2Proof/Machine/MovePlane.lean ====
section
/-! DEFINITION. The move plane's ends: what memory stations do with the accesses of Hearths, and the answers (07 R195, R196,
R229, R560; 09 R276 to R278). -/

namespace Sys2Proof.Machine

/-- The target of an access (R59): the Mantel, a Hearth window or a block register window. -/
def targetOf (a : Nat) : Nat := if a < 0x00800000 then 0 else a / 0x10000

/-- The first access whose tokens have all reached its memory station and that comes after no unmade access to the same target
(R59); `earlier` lists the targets of unmade ones before it. -/
def nextMade : List Nat → List MoveOp → Option MoveOp
  | _, [] => none
  | earlier, o :: rest =>
    match o.stage with
    | .back _ _ => nextMade earlier rest
    | .held => nextMade earlier rest
    | .going 0 =>
      if earlier.contains (targetOf o.acc.addr) then nextMade earlier rest else some o
    | _ => nextMade (targetOf o.acc.addr :: earlier) rest

/-- Changes access k of Hearth n. -/
def State.modMove (s : State) (n k : Nat) (f : MoveOp → MoveOp) : State :=
  s.setMoves n (modFirst (fun o => if o.id = k then some (f o) else none) (s.moves n))

/-- A MOVE goes on at a source word, with `left` words to copy (R278): a sound word travels to the station of its destination; one
that is uncorrectable is logged, left out, and the first of them is the imprecise trap's. -/
def State.moveCopy (s : State) (n k src dst : Nat) (bad : Option Nat) : Nat → State
  | 0 => s.moveAnswer n k ⟨.ok, 0⟩
  | left + 1 =>
    match s.mantelRead n src 8 with
    | (some v, s1) =>
      let w := BitVec.ofNat 64 v
      let s2 := s1.modMove n k fun o => { o with
        acc := { o.acc with addr := src }, copy := some (dst, left + 1, bad), stage := .copying w }
      s2.stationSend (memStation src) (moveTok n (memStation dst) moveSubWord (w.truncate 32))
    | (none, s1) =>
      let s2 := s1.logViolation n src .b64 false .ecc
      let b := bad.getD src
      if left = 0 then
        (s2.modMove n k fun o => { o with copy := some (dst, 0, some b) }).moveAnswer n k ⟨.ecc, 0⟩
      else s2.moveCopy n k (src + 8) (dst + 8) (some b) left

/-- A memory station makes an access of Hearth n: on the Mantel at once, elsewhere as its target answers. -/
def State.moveMake (s : State) (n : Nat) (o : MoveOp) : State :=
  match o.copy with
  | some (dst, left, bad) => s.moveCopy n o.id o.acc.addr dst bad left
  | none =>
    if o.acc.addr < 0x00800000 then
      let (r, s1) := s.target n o.acc
      (s1.complete n o.acc.addr o.acc.size o.acc.write.isSome r).answer (.move n o.id) r
    else (s.modMove n o.id fun o => { o with stage := .held }).issue n o.acc (.move n o.id)

/-- Every access of Hearth n that can be made is made. -/
def State.moveServe (s : State) (n : Nat) : Nat → State
  | 0 => s
  | fuel + 1 =>
    match nextMade [] (s.moves n) with
    | none => s
    | some o => (s.moveMake n o).moveServe n fuel

/-- A word of a MOVE has reached its destination's station: it is written, and the MOVE goes on. -/
def State.moveLand (s : State) (n : Nat) (o : MoveOp) : State :=
  match o.copy, o.stage with
  | some (dst, left, bad), .copying v =>
    let s1 := (s.mantelWrite n dst 8 v.toNat).2
    if left ≤ 1 then
      (s1.modMove n o.id fun o => { o with copy := some (dst, 0, bad) }).moveAnswer n o.id ⟨if bad.isSome then .ecc else .ok, 0⟩
    else s1.moveCopy n o.id (o.acc.addr + 8) (dst + 8) bad (left - 1)
  | _, _ => s

/-- The access of which memory station st awaits a token. -/
def MoveOp.awaits (st : Nat) (o : MoveOp) : Option MoveOp :=
  match o.stage with
  | .going (k + 1) => if memStation o.acc.addr = st then some { o with stage := .going k } else none
  | _ => none

/-- A memory station takes a token that has reached it. -/
def State.memTake (s : State) (st : Nat) : State :=
  match s.inboxOf st with
  | [] => s
  | t :: rest =>
    let n := t.stag
    let s1 := s.setInbox st rest
    let s2 :=
      if t.ctag / 256 = moveSubAccess then s1.setMoves n (modFirst (MoveOp.awaits st) (s1.moves n))
      else match (s1.moves n).find? fun o => match o.stage with
          | .copying _ => true
          | _ => false with
        | none => s1
        | some o => s1.moveLand n o
    s2.moveServe n ((s2.moves n).length + 1)

/-- The access has its whole answer. -/
def MoveOp.home (o : MoveOp) : Option Reply :=
  match o.stage with
  | .back 0 r => some r
  | _ => none

/-- An answered access ends: the instruction that waits for it takes the reply, and the error of a posted one waits for the next
boundary (R247), at the address that failed (R278). -/
def State.moveEnd (n : Nat) (s : State) (o : MoveOp) : State :=
  match o.home with
  | none => s
  | some r =>
    if o.waits then { s with answers := s.answers ++ [(.load n, r)] }
    else if respErr r.resp then
      s.noteImprecise n (match o.copy with
        | some (_, _, some b) => b
        | _ => o.acc.addr) (some r.resp)
    else s

/-- The accesses of Hearth n that have their whole answer end. -/
def State.moveHome (s : State) (n : Nat) : State :=
  ((s.moves n).foldl (State.moveEnd n) s).setMoves n ((s.moves n).filter fun o => o.home.isNone)

/-- What the ends of the move plane do with a token that a router has delivered. -/
def State.moveEnds (s : State) (r : Nat) : State :=
  (((List.range 56).filter (planeStation true)).foldl State.memTake s).moveHome r

/-- TOKEN_HOP (R201 to R205, R213 to R217): input p of router r is served, on the sample plane or the move plane. -/
def execTokenHop (r : Router) (p : FPort) (s : State) : Host.Outcome State Fault Refusal :=
  s.runBus fun s => if r.mv then (s.hop true r.node.val p).moveEnds r.node.val else s.hop false r.node.val p

end Sys2Proof.Machine
end

