-- ==== Sys2Proof/Machine/Dispatch.lean ====
section
/-! DEFINITION. exec: one arm for each command, each a direct call of its meaning. -/

namespace Sys2Proof.Machine

def exec (i : Instr) (s : State) : Host.Outcome State Fault Refusal :=
  match i with
  | .registerWrite m a v => Sys2Proof.Machine.execRegisterWrite m a v s
  | .busAccess m a sz w => Sys2Proof.Machine.execBusAccess m a sz w s
  | .counterLoRead m w => Sys2Proof.Machine.execCounterLoRead m w s
  | .counterHiWrite m c v => Sys2Proof.Machine.execCounterHiWrite m c v s
  | .counterLoad c frac => Sys2Proof.Machine.execCounterLoad c frac s
  | .fenceRead m => Sys2Proof.Machine.execFenceRead m s
  | .ballAcquire m b => Sys2Proof.Machine.execBallAcquire m b s
  | .ballRelease m b v => Sys2Proof.Machine.execBallRelease m b v s
  | .leaseExpiry b => Sys2Proof.Machine.execLeaseExpiry b s
  | .forcedTurnover m v => Sys2Proof.Machine.execForcedTurnover m v s
  | .inputSlotEnd p j w => Sys2Proof.Machine.execInputSlotEnd p j w s
  | .tokenHop r p => Sys2Proof.Machine.execTokenHop r p s
  | .stationTokenArrival st => Sys2Proof.Machine.execStationTokenArrival st s
  | .loadPoint o => Sys2Proof.Machine.execLoadPoint o s
  | .paceWindowEnd h => Sys2Proof.Machine.execPaceWindowEnd h s
  | .paceLateNotice h => Sys2Proof.Machine.execPaceLateNotice h s
  | .paceEnable m h v => Sys2Proof.Machine.execPaceEnable m h v s
  | .paceNearClear m r v => Sys2Proof.Machine.execPaceNearClear m r v s
  | .dcoUpdate us => Sys2Proof.Machine.execDcoUpdate us s
  | .rsgEvaluation meas phase => Sys2Proof.Machine.execRsgEvaluation meas phase s
  | .historyAppend w temp d => Sys2Proof.Machine.execHistoryAppend w temp d s
  | .holdoverRecompute up => Sys2Proof.Machine.execHoldoverRecompute up s
  | .holdElapsedTick => Sys2Proof.Machine.execHoldElapsedTick s
  | .rsgEnableWrite m v => Sys2Proof.Machine.execRsgEnableWrite m v s
  | .rsgPrioWrite m e v => Sys2Proof.Machine.execRsgPrioWrite m e v s
  | .tempExtWrite m v => Sys2Proof.Machine.execTempExtWrite m v s
  | .tempExtStale => Sys2Proof.Machine.execTempExtStale s
  | .sync d twoStep seq origin corr => Sys2Proof.Machine.execSync d twoStep seq origin corr s
  | .followUp d seq origin corr => Sys2Proof.Machine.execFollowUp d seq origin corr s
  | .delayResp d seq recv corr => Sys2Proof.Machine.execDelayResp d seq recv corr s
  | .pdelayResp d followUp twoStep seq time corr => Sys2Proof.Machine.execPdelayResp d followUp twoStep seq time corr s
  | .pdelayReq p domain seq req => Sys2Proof.Machine.execPdelayReq p domain seq req s
  | .delayReqSend d => Sys2Proof.Machine.execDelayReqSend d s
  | .syncTimeout d => Sys2Proof.Machine.execSyncTimeout d s
  | .parentWrite m d v => Sys2Proof.Machine.execParentWrite m d v s
  | .deuceRevert => Sys2Proof.Machine.execDeuceRevert s
  | .deuceActiveWrite m v => Sys2Proof.Machine.execDeuceActiveWrite m v s
  | .slewComplete => Sys2Proof.Machine.execSlewComplete s
  | .rebase m v => Sys2Proof.Machine.execRebase m v s
  | .rebaseComplete => Sys2Proof.Machine.execRebaseComplete s
  | .rallyInstant rtcSub => Sys2Proof.Machine.execRallyInstant rtcSub s
  | .ttrigArm m n v => Sys2Proof.Machine.execTtrigArm m n v s
  | .ttrigDisarm m n v => Sys2Proof.Machine.execTtrigDisarm m n v s
  | .ttrigFire n => Sys2Proof.Machine.execTtrigFire n s
  | .gpioPulseEnd idx low => Sys2Proof.Machine.execGpioPulseEnd idx low s
  | .tcapEdge n rising phase => Sys2Proof.Machine.execTcapEdge n rising phase s
  | .tcapPop m n => Sys2Proof.Machine.execTcapPop m n s
  | .sapEnable m p v => Sys2Proof.Machine.execSapEnable m p v s
  | .sapDisable m p v => Sys2Proof.Machine.execSapDisable m p v s
  | .sapStop p => Sys2Proof.Machine.execSapStop p s
  | .frameStart p frac meas => Sys2Proof.Machine.execFrameStart p frac meas s
  | .mapWrite m p out j v => Sys2Proof.Machine.execMapWrite m p out j v s
  | .aesSubframeReceive idx b preOk z viol audio v u c parityOk => Sys2Proof.Machine.execAesSubframeReceive idx b preOk z viol audio v u c parityOk s
  | .csCommit m r v => Sys2Proof.Machine.execCsCommit m r v s
  | .madiChannelReceive m c start audio v u cs parityOk => Sys2Proof.Machine.execMadiChannelReceive m c start audio v u cs parityOk s
  | .madiTxFrame m sent => Sys2Proof.Machine.execMadiTxFrame m sent s
  | .asrcEmit p => Sys2Proof.Machine.execAsrcEmit p s
  | .steeringReadout p => Sys2Proof.Machine.execSteeringReadout p s
  | .asrcAllocWrite m idx v => Sys2Proof.Machine.execAsrcAllocWrite m idx v s
  | .asrcLock p out ratio => Sys2Proof.Machine.execAsrcLock p out ratio s
  | .asrcLockLoss p out => Sys2Proof.Machine.execAsrcLockLoss p out s
  | .dmaFrameWrite p => Sys2Proof.Machine.execDmaFrameWrite p s
  | .dmaFrameRead p => Sys2Proof.Machine.execDmaFrameRead p s
  | .ethFrameReceive p bytes fcsOk => Sys2Proof.Machine.execEthFrameReceive p bytes fcsOk s
  | .streamReadout idx => Sys2Proof.Machine.execStreamReadout idx s
  | .txPacketQueue idx => Sys2Proof.Machine.execTxPacketQueue idx s
  | .macTransmit p => Sys2Proof.Machine.execMacTransmit p s
  | .hostTxSend => Sys2Proof.Machine.execHostTxSend s
  | .netLinkChange p lane => Sys2Proof.Machine.execNetLinkChange p lane s
  | .routeShadowWrite m h w v => Sys2Proof.Machine.execRouteShadowWrite m h w v s
  | .routeSwapArm m v => Sys2Proof.Machine.execRouteSwapArm m v s
  | .routeSwapCancel m => Sys2Proof.Machine.execRouteSwapCancel m s
  | .routeSwap => Sys2Proof.Machine.execRouteSwap s
  | .routeCopyComplete => Sys2Proof.Machine.execRouteCopyComplete s
  | .flueStall mv r out inp tag => Sys2Proof.Machine.execFlueStall mv r out inp tag s
  | .add h rd rs rt sat => Sys2Proof.Machine.execAdd h rd rs rt sat s
  | .sub h rd rs rt sat => Sys2Proof.Machine.execSub h rd rs rt sat s
  | .and h rd rs rt => Sys2Proof.Machine.execAnd h rd rs rt s
  | .or h rd rs rt => Sys2Proof.Machine.execOr h rd rs rt s
  | .xor h rd rs rt => Sys2Proof.Machine.execXor h rd rs rt s
  | .not h rd rs => Sys2Proof.Machine.execNot h rd rs s
  | .shl h rd rs k sat => Sys2Proof.Machine.execShl h rd rs k sat s
  | .shr h rd rs k => Sys2Proof.Machine.execShr h rd rs k s
  | .sar h rd rs k => Sys2Proof.Machine.execSar h rd rs k s
  | .rol h rd rs k => Sys2Proof.Machine.execRol h rd rs k s
  | .min h rd rs rt u => Sys2Proof.Machine.execMin h rd rs rt u s
  | .max h rd rs rt u => Sys2Proof.Machine.execMax h rd rs rt u s
  | .abs h rd rs sat => Sys2Proof.Machine.execAbs h rd rs sat s
  | .neg h rd rs sat => Sys2Proof.Machine.execNeg h rd rs sat s
  | .clz h rd rs => Sys2Proof.Machine.execClz h rd rs s
  | .cls h rd rs => Sys2Proof.Machine.execCls h rd rs s
  | .sel h rd rs rt c => Sys2Proof.Machine.execSel h rd rs rt c s
  | .cmp h rs rt => Sys2Proof.Machine.execCmp h rs rt s
  | .mov h f => Sys2Proof.Machine.execMov h f s
  | .addi h rd rs imm => Sys2Proof.Machine.execAddi h rd rs imm s
  | .subi h rd rs imm => Sys2Proof.Machine.execSubi h rd rs imm s
  | .cmpi h rs imm => Sys2Proof.Machine.execCmpi h rs imm s
  | .movi h rd imm => Sys2Proof.Machine.execMovi h rd imm s
  | .movhi h rd imm => Sys2Proof.Machine.execMovhi h rd imm s
  | .moviPointer h x imm => Sys2Proof.Machine.execMoviPointer h x imm s
  | .mac h x rs rt f => Sys2Proof.Machine.execMac h x rs rt f s
  | .msu h x rs rt f => Sys2Proof.Machine.execMsu h x rs rt f s
  | .mul h x rs rt f => Sys2Proof.Machine.execMul h x rs rt f s
  | .macx h x rs rt f => Sys2Proof.Machine.execMacx h x rs rt f s
  | .macd h x rs rt f => Sys2Proof.Machine.execMacd h x rs rt f s
  | .clra h mask => Sys2Proof.Machine.execClra h mask s
  | .mova h f => Sys2Proof.Machine.execMova h f s
  | .movar h rd x => Sys2Proof.Machine.execMovar h rd x s
  | .movas h rd x => Sys2Proof.Machine.execMovas h rd x s
  | .sha h x k => Sys2Proof.Machine.execSha h x k s
  | .adda h x y neg => Sys2Proof.Machine.execAdda h x y neg s
  | .ldb h rd ra off u => Sys2Proof.Machine.execLdb h rd ra off u s
  | .ldh h rd ra off u => Sys2Proof.Machine.execLdh h rd ra off u s
  | .ldw h rd ra off => Sys2Proof.Machine.execLdw h rd ra off s
  | .stb h rd ra off => Sys2Proof.Machine.execStb h rd ra off s
  | .sth h rd ra off => Sys2Proof.Machine.execSth h rd ra off s
  | .stw h rd ra off => Sys2Proof.Machine.execStw h rd ra off s
  | .ldp h rd idx sz u => Sys2Proof.Machine.execLdp h rd idx sz u s
  | .stp h rd idx sz => Sys2Proof.Machine.execStp h rd idx sz s
  | .ldm h rd ra off sz u => Sys2Proof.Machine.execLdm h rd ra off sz u s
  | .stm h rd ra off sz => Sys2Proof.Machine.execStm h rd ra off sz s
  | .rotm h rd ra off sz => Sys2Proof.Machine.execRotm h rd ra off sz s
  | .move h rd ra w => Sys2Proof.Machine.execMove h rd ra w s
  | .b h q p target => Sys2Proof.Machine.execB h q p target s
  | .bc h q p c target => Sys2Proof.Machine.execBc h q p c target s
  | .bal h q p rd target => Sys2Proof.Machine.execBal h q p rd target s
  | .call h q target => Sys2Proof.Machine.execCall h q target s
  | .ret h q p => Sys2Proof.Machine.execRet h q p s
  | .jmp h q p rs => Sys2Proof.Machine.execJmp h q p rs s
  | .loop h rs stop => Sys2Proof.Machine.execLoop h rs stop s
  | .loopi h count stop => Sys2Proof.Machine.execLoopi h count stop s
  | .pushl h idx => Sys2Proof.Machine.execPushl h idx s
  | .popl h idx => Sys2Proof.Machine.execPopl h idx s
  | .trap h imm => Sys2Proof.Machine.execTrap h imm s
  | .rett h => Sys2Proof.Machine.execRett h s
  | .reti h => Sys2Proof.Machine.execReti h s
  | .waits h rd => Sys2Proof.Machine.execWaits h rd s
  | .fence h => Sys2Proof.Machine.execFence h s
  | .nop h => Sys2Proof.Machine.execNop h s
  | .send h rs ctag kind => Sys2Proof.Machine.execSend h rs ctag kind s
  | .sendt h rs rt ctag kind => Sys2Proof.Machine.execSendt h rs rt ctag kind s
  | .recv h rd rm q => Sys2Proof.Machine.execRecv h rd rm q s
  | .peek h rd rm q w => Sys2Proof.Machine.execPeek h rd rm q w s
  | .qstat h rd => Sys2Proof.Machine.execQstat h rd s
  | .div h int rs rt => Sys2Proof.Machine.execDiv h int rs rt s
  | .rcp h rs => Sys2Proof.Machine.execRcp h rs s
  | .sqrt h rs => Sys2Proof.Machine.execSqrt h rs s
  | .rsq h rs => Sys2Proof.Machine.execRsq h rs s
  | .log2 h rs => Sys2Proof.Machine.execLog2 h rs s
  | .exp2 h rs => Sys2Proof.Machine.execExp2 h rs s
  | .asrd h rd => Sys2Proof.Machine.execAsrd h rd s
  | .assistComplete h => Sys2Proof.Machine.execAssistComplete h s
  | .bexp h rd idx rt => Sys2Proof.Machine.execBexp h rd idx rt s
  | .bfly h pa pb pw k => Sys2Proof.Machine.execBfly h pa pb pw k s
  | .scl h rd rs k => Sys2Proof.Machine.execScl h rd rs k s
  | .zapply h rs g => Sys2Proof.Machine.execZapply h rs g s
  | .sysr h rd nr => Sys2Proof.Machine.execSysr h rd nr s
  | .sysw h nr rs => Sys2Proof.Machine.execSysw h nr rs s
  | .wstow h => Sys2Proof.Machine.execWstow h s
  | .wfetch h => Sys2Proof.Machine.execWfetch h s
  | .doorbell h => Sys2Proof.Machine.execDoorbell h s
  | .wdkick h => Sys2Proof.Machine.execWdkick h s
  | .ball h rd rs k => Sys2Proof.Machine.execBall h rd rs k s
  | .ballR h rs k => Sys2Proof.Machine.execBallR h rs k s
  | .stallClear h steps => Sys2Proof.Machine.execStallClear h steps s
  | .storeDrain h => Sys2Proof.Machine.execStoreDrain h s
  | .impreciseTrap h => Sys2Proof.Machine.execImpreciseTrap h s
  | .interruptEntry h squash => Sys2Proof.Machine.execInterruptEntry h squash s
  | .watchdogExpiry h => Sys2Proof.Machine.execWatchdogExpiry h s
  | .paramValue h => Sys2Proof.Machine.execParamValue h s
  | .paramValueZc h => Sys2Proof.Machine.execParamValueZc h s
  | .paramArm h => Sys2Proof.Machine.execParamArm h s
  | .paramCancel h => Sys2Proof.Machine.execParamCancel h s
  | .zcWindowExpiry h => Sys2Proof.Machine.execZcWindowExpiry h s
  | .slotShadowWrite m h idx v => Sys2Proof.Machine.execSlotShadowWrite m h idx v s
  | .hearthHalt m h => Sys2Proof.Machine.execHearthHalt m h s
  | .hearthResume m h => Sys2Proof.Machine.execHearthResume m h s
  | .hearthReset m h run => Sys2Proof.Machine.execHearthReset m h run s
  | .fenceGate m h v => Sys2Proof.Machine.execFenceGate m h v s
  | .irqSet m h v => Sys2Proof.Machine.execIrqSet m h v s
  | .privWrite m idx v => Sys2Proof.Machine.execPrivWrite m idx v s
  | .injArm m v => Sys2Proof.Machine.execInjArm m v s
  | .scrubEnable m v => Sys2Proof.Machine.execScrubEnable m v s
  | .scrubWord => Sys2Proof.Machine.execScrubWord s
  | .scrubStop m v => Sys2Proof.Machine.execScrubStop m v s
  | .clearOnWake => Sys2Proof.Machine.execClearOnWake s
  | .clearDone => Sys2Proof.Machine.execClearDone s
  | .dmpSetParam m idx v => Sys2Proof.Machine.execDmpSetParam m idx v s
  | .dmpSetValue m idx v => Sys2Proof.Machine.execDmpSetValue m idx v s
  | .dmpSetCount m idx v => Sys2Proof.Machine.execDmpSetCount m idx v s
  | .dmpWrValue m v => Sys2Proof.Machine.execDmpWrValue m v s
  | .dmpKick m v => Sys2Proof.Machine.execDmpKick m v s
  | .dmpEnableWrite m v => Sys2Proof.Machine.execDmpEnableWrite m v s
  | .groupClose => Sys2Proof.Machine.execGroupClose s
  | .groupDelivery => Sys2Proof.Machine.execGroupDelivery s
  | .kickReportReceive => Sys2Proof.Machine.execKickReportReceive s
  | .cueKeyWrite m c v => Sys2Proof.Machine.execCueKeyWrite m c v s
  | .cueEvalNow m v => Sys2Proof.Machine.execCueEvalNow m v s
  | .cueLogPop m => Sys2Proof.Machine.execCueLogPop m s
  | .tachEdge m a b => Sys2Proof.Machine.execTachEdge m a b s
  | .indexEdge m rising => Sys2Proof.Machine.execIndexEdge m rising s
  | .speedUpdate m => Sys2Proof.Machine.execSpeedUpdate m s
  | .gateRequest => Sys2Proof.Machine.execGateRequest s
  | .mifGateSet m v => Sys2Proof.Machine.execMifGateSet m v s
  | .mifGateClr m v => Sys2Proof.Machine.execMifGateClr m v s
  | .mifDisable m idx v => Sys2Proof.Machine.execMifDisable m idx v s
  | .ltcFrameReceive m b periods speed at_ => Sys2Proof.Machine.execLtcFrameReceive m b periods speed at_ s
  | .ltcTimeout m => Sys2Proof.Machine.execLtcTimeout m s
  | .ltcArm m idx v => Sys2Proof.Machine.execLtcArm m idx v s
  | .ltcFrameStart m => Sys2Proof.Machine.execLtcFrameStart m s
  | .ltcUbCommit m idx v => Sys2Proof.Machine.execLtcUbCommit m idx v s
  | .ltcStop m idx v => Sys2Proof.Machine.execLtcStop m idx v s
  | .laneRunStart l => Sys2Proof.Machine.execLaneRunStart l s
  | .belLd l r idx a => Sys2Proof.Machine.execBelLd l r idx a s
  | .belSt l r idx a => Sys2Proof.Machine.execBelSt l r idx a s
  | .belIn l a n p => Sys2Proof.Machine.execBelIn l a n p s
  | .belOut l r p => Sys2Proof.Machine.execBelOut l r p s
  | .belInMbox l a n idx => Sys2Proof.Machine.execBelInMbox l a n idx s
  | .belInMrd l a n => Sys2Proof.Machine.execBelInMrd l a n s
  | .belOutPwm l r n => Sys2Proof.Machine.execBelOutPwm l r n s
  | .belOutSpiGo l r c j => Sys2Proof.Machine.execBelOutSpiGo l r c j s
  | .belOutTxh l r c => Sys2Proof.Machine.execBelOutTxh l r c s
  | .belOutEvt l r idx => Sys2Proof.Machine.execBelOutEvt l r idx s
  | .belOutEvth l r => Sys2Proof.Machine.execBelOutEvth l r s
  | .belOutMidx l r => Sys2Proof.Machine.execBelOutMidx l r s
  | .belOutMwr l r => Sys2Proof.Machine.execBelOutMwr l r s
  | .belOutTemp l r => Sys2Proof.Machine.execBelOutTemp l r s
  | .belMac l d a b => Sys2Proof.Machine.execBelMac l d a b s
  | .belMsu l d a b => Sys2Proof.Machine.execBelMsu l d a b s
  | .belMul l d a b => Sys2Proof.Machine.execBelMul l d a b s
  | .belAdd l d a b => Sys2Proof.Machine.execBelAdd l d a b s
  | .belSub l d a b => Sys2Proof.Machine.execBelSub l d a b s
  | .belShl l d a n => Sys2Proof.Machine.execBelShl l d a n s
  | .belShr l d a n => Sys2Proof.Machine.execBelShr l d a n s
  | .belMin l d a b => Sys2Proof.Machine.execBelMin l d a b s
  | .belMax l d a b => Sys2Proof.Machine.execBelMax l d a b s
  | .belAbs l d a => Sys2Proof.Machine.execBelAbs l d a s
  | .belNeg l d a => Sys2Proof.Machine.execBelNeg l d a s
  | .belClr l d => Sys2Proof.Machine.execBelClr l d s
  | .belMova l d a n => Sys2Proof.Machine.execBelMova l d a n s
  | .belBfn l d a b => Sys2Proof.Machine.execBelBfn l d a b s
  | .belBfnE l d a => Sys2Proof.Machine.execBelBfnE l d a s
  | .belBfx l d a b => Sys2Proof.Machine.execBelBfx l d a b s
  | .belJmp l t => Sys2Proof.Machine.execBelJmp l t s
  | .belJz l r t => Sys2Proof.Machine.execBelJz l r t s
  | .belJn l r t => Sys2Proof.Machine.execBelJn l r t s
  | .belLoop l c stop => Sys2Proof.Machine.execBelLoop l c stop s
  | .belTickInstr l => Sys2Proof.Machine.execBelTickInstr l s
  | .laneHalt m l => Sys2Proof.Machine.execLaneHalt m l s
  | .laneResume m l => Sys2Proof.Machine.execLaneResume m l s
  | .laneReset m l => Sys2Proof.Machine.execLaneReset m l s
  | .encEdge n a b idx => Sys2Proof.Machine.execEncEdge n a b idx s
  | .spiTransferStart c => Sys2Proof.Machine.execSpiTransferStart c s
  | .spiTransferComplete c miso => Sys2Proof.Machine.execSpiTransferComplete c miso s
  | .mboxDelivery => Sys2Proof.Machine.execMboxDelivery s
  | .keepWrite m l v => Sys2Proof.Machine.execKeepWrite m l v s
  | .blockLockChange p hdrs => Sys2Proof.Machine.execBlockLockChange p hdrs s
  | .train p l => Sys2Proof.Machine.execTrain p l s
  | .trainTimeout p => Sys2Proof.Machine.execTrainTimeout p s
  | .beaconSend => Sys2Proof.Machine.execBeaconSend s
  | .beaconReceive down => Sys2Proof.Machine.execBeaconReceive down s
  | .rallyFrameReceive p l frac res => Sys2Proof.Machine.execRallyFrameReceive p l frac res s
  | .unmute => Sys2Proof.Machine.execUnmute s
  | .rallyMiss => Sys2Proof.Machine.execRallyMiss s
  | .audioGroupSend p g => Sys2Proof.Machine.execAudioGroupSend p g s
  | .audioGroupReceive p l => Sys2Proof.Machine.execAudioGroupReceive p l s
  | .groupDeadline p g => Sys2Proof.Machine.execGroupDeadline p g s
  | .ackReceive p f => Sys2Proof.Machine.execAckReceive p f s
  | .nakReceive p f => Sys2Proof.Machine.execNakReceive p f s
  | .letTimeout p => Sys2Proof.Machine.execLetTimeout p s
  | .ctrlPacketReceive p l => Sys2Proof.Machine.execCtrlPacketReceive p l s
  | .raRead m => Sys2Proof.Machine.execRaRead m s
  | .raWrite m v => Sys2Proof.Machine.execRaWrite m v s
  | .remoteRequest => Sys2Proof.Machine.execRemoteRequest s
  | .remoteCompletion => Sys2Proof.Machine.execRemoteCompletion s
  | .rtTimeout t => Sys2Proof.Machine.execRtTimeout t s
  | .quarantineExpiry t => Sys2Proof.Machine.execQuarantineExpiry t s
  | .kickoffReceive => Sys2Proof.Machine.execKickoffReceive s
  | .chmMapArm m v => Sys2Proof.Machine.execChmMapArm m v s
  | .chmMapLoadDone => Sys2Proof.Machine.execChmMapLoadDone s
  | .chmMapSwap => Sys2Proof.Machine.execChmMapSwap s
  | .chmEventForward p => Sys2Proof.Machine.execChmEventForward p s
  | .chmWake m v => Sys2Proof.Machine.execChmWake m v s
  | .sourceRaise n level => Sys2Proof.Machine.execSourceRaise n level s
  | .evcClaim m t => Sys2Proof.Machine.execEvcClaim m t s
  | .evcComplete m t v => Sys2Proof.Machine.execEvcComplete m t v s
  | .stackReset m t v => Sys2Proof.Machine.execStackReset m t v s
  | .evcPendClear m p v => Sys2Proof.Machine.execEvcPendClear m p v s
  | .evcSoft m v => Sys2Proof.Machine.execEvcSoft m v s
  | .evcSrcCfgWrite m n v => Sys2Proof.Machine.execEvcSrcCfgWrite m n v s
  | .evcTgtCfgWrite m t v => Sys2Proof.Machine.execEvcTgtCfgWrite m t v s
  | .load e => Sys2Proof.Machine.execLoad e s
  | .store e => Sys2Proof.Machine.execStore e s
  | .scan e => Sys2Proof.Machine.execScan e s
  | .erase e => Sys2Proof.Machine.execErase e s
  | .loadBoot e => Sys2Proof.Machine.execLoadBoot e s
  | .storeBoot e => Sys2Proof.Machine.execStoreBoot e s
  | .hash e => Sys2Proof.Machine.execHash e s
  | .skpAbort m v => Sys2Proof.Machine.execSkpAbort m v s
  | .flashPoll ready => Sys2Proof.Machine.execFlashPoll ready s
  | .pfail low => Sys2Proof.Machine.execPfail low s
  | .bootRomStart => Sys2Proof.Machine.execBootRomStart s
  | .bootGo m v => Sys2Proof.Machine.execBootGo m v s
  | .otpProgram m v => Sys2Proof.Machine.execOtpProgram m v s
  | .otpProgramDone => Sys2Proof.Machine.execOtpProgramDone s
  | .pwrGo m v => Sys2Proof.Machine.execPwrGo m v s
  | .lightEntry => Sys2Proof.Machine.execLightEntry s
  | .lightExit => Sys2Proof.Machine.execLightExit s
  | .standbyEntry => Sys2Proof.Machine.execStandbyEntry s
  | .pwrEnStep => Sys2Proof.Machine.execPwrEnStep s
  | .pwrGoodTimeout => Sys2Proof.Machine.execPwrGoodTimeout s
  | .watchHit idx => Sys2Proof.Machine.execWatchHit idx s
  | .wake => Sys2Proof.Machine.execWake s
  | .rtcTick phase => Sys2Proof.Machine.execRtcTick phase s
  | .tempSample temp rate => Sys2Proof.Machine.execTempSample temp rate s
  | .thermalShutdown => Sys2Proof.Machine.execThermalShutdown s
  | .vaonPowerOn => Sys2Proof.Machine.execVaonPowerOn s
  | .resetN low => Sys2Proof.Machine.execResetN low s
  | .softwareReset m v => Sys2Proof.Machine.execSoftwareReset m v s
  | .pcieRequest r => Sys2Proof.Machine.execPcieRequest r s
  | .pcieReset r => Sys2Proof.Machine.execPcieReset r s
  | .msixUnmask m v => Sys2Proof.Machine.execMsixUnmask m v s
  | .hifDbWrite m idx v => Sys2Proof.Machine.execHifDbWrite m idx v s
  | .qspiWrite f => Sys2Proof.Machine.execQspiWrite f s
  | .qspiRead addr count cut => Sys2Proof.Machine.execQspiRead addr count cut s
  | .qspiStatus => Sys2Proof.Machine.execQspiStatus s
  | .jtagDbgUpdate op a v => Sys2Proof.Machine.execJtagDbgUpdate op a v s
  | .hrtDbgStep m h v => Sys2Proof.Machine.execHrtDbgStep m h v s
  | .hrtDbgData m h w => Sys2Proof.Machine.execHrtDbgData m h w s
  | .belDbgStep m l v => Sys2Proof.Machine.execBelDbgStep m l v s
  | .belDbgData m l w => Sys2Proof.Machine.execBelDbgData m l w s
  | .uartTx m v => Sys2Proof.Machine.execUartTx m v s
  | .uartRxByte b stop => Sys2Proof.Machine.execUartRxByte b stop s
  | .uartRxPop m => Sys2Proof.Machine.execUartRxPop m s
  | .gpioOutSet m v => Sys2Proof.Machine.execGpioOutSet m v s
  | .gpioOutClr m v => Sys2Proof.Machine.execGpioOutClr m v s
  | .aesRxLock idx => Sys2Proof.Machine.execAesRxLock idx s
  | .madiRxLock m lock => Sys2Proof.Machine.execMadiRxLock m lock s
  | .wclkEdge n => Sys2Proof.Machine.execWclkEdge n s
  | .medDirEdge m level => Sys2Proof.Machine.execMedDirEdge m level s
  | .reservedEncoding h w => Sys2Proof.Machine.execReservedEncoding h w s
  | .belReservedWord l w => Sys2Proof.Machine.execBelReservedWord l w s
  | .railsGood => Sys2Proof.Machine.execRailsGood s
  | .xoLoss => Sys2Proof.Machine.execXoLoss s
  | .pcieLinkUp speed width => Sys2Proof.Machine.execPcieLinkUp speed width s
  | .pcieConfigRequest c => Sys2Proof.Machine.execPcieConfigRequest c s
  | .qspiUnknownOpcode op => Sys2Proof.Machine.execQspiUnknownOpcode op s
  | .uartTxByteSent => Sys2Proof.Machine.execUartTxByteSent s
  | .jtagIrUpdate code => Sys2Proof.Machine.execJtagIrUpdate code s
  | .servoEnable m d v => Sys2Proof.Machine.execServoEnable m d v s
  | .chmEnable m port v => Sys2Proof.Machine.execChmEnable m port v s
  | .netStreamEnable m tx idx v => Sys2Proof.Machine.execNetStreamEnable m tx idx v s
  | .portDmaEnable m p out v => Sys2Proof.Machine.execPortDmaEnable m p out v s
  | .mifEnable m idx v => Sys2Proof.Machine.execMifEnable m idx v s
  | .aesmPortEnable m r v => Sys2Proof.Machine.execAesmPortEnable m r v s
  | .encCountWrite m n v => Sys2Proof.Machine.execEncCountWrite m n v s

end Sys2Proof.Machine
end

