-- ==== Sys2Proof/Laws/State.lean ====
section
/-! SUPPORT. One lemma for each field and each update of State by name: what the update leaves. -/

namespace Sys2Proof.Machine

/-! setReg -/

@[simp] theorem State.setReg_replies (s : State) (a : Nat) (v : Word) : (s.setReg a v).replies = s.replies := rfl
@[simp] theorem State.setReg_fences (s : State) (a : Nat) (v : Word) : (s.setReg a v).fences = s.fences := rfl
@[simp] theorem State.setReg_wide (s : State) (a : Nat) (v : Word) : (s.setReg a v).wide = s.wide := rfl
@[simp] theorem State.setReg_balls (s : State) (a : Nat) (v : Word) : (s.setReg a v).balls = s.balls := rfl
@[simp] theorem State.setReg_evc (s : State) (a : Nat) (v : Word) : (s.setReg a v).evc = s.evc := rfl
@[simp] theorem State.setReg_hearths (s : State) (a : Nat) (v : Word) : (s.setReg a v).hearths = s.hearths := rfl
@[simp] theorem State.setReg_flue (s : State) (a : Nat) (v : Word) : (s.setReg a v).flue = s.flue := rfl
@[simp] theorem State.setReg_rallyCount (s : State) (a : Nat) (v : Word) : (s.setReg a v).rallyCount = s.rallyCount := rfl
@[simp] theorem State.setReg_rsg (s : State) (a : Nat) (v : Word) : (s.setReg a v).rsg = s.rsg := rfl
@[simp] theorem State.setReg_tsu (s : State) (a : Nat) (v : Word) : (s.setReg a v).tsu = s.tsu := rfl
@[simp] theorem State.setReg_mantel (s : State) (a : Nat) (v : Word) : (s.setReg a v).mantel = s.mantel := rfl
@[simp] theorem State.setReg_flips (s : State) (a : Nat) (v : Word) : (s.setReg a v).flips = s.flips := rfl
@[simp] theorem State.setReg_scrub (s : State) (a : Nat) (v : Word) : (s.setReg a v).scrub = s.scrub := rfl
@[simp] theorem State.setReg_ports (s : State) (a : Nat) (v : Word) : (s.setReg a v).ports = s.ports := rfl
@[simp] theorem State.setReg_net (s : State) (a : Nat) (v : Word) : (s.setReg a v).net = s.net := rfl
@[simp] theorem State.setReg_chm (s : State) (a : Nat) (v : Word) : (s.setReg a v).chm = s.chm := rfl
@[simp] theorem State.setReg_dmp (s : State) (a : Nat) (v : Word) : (s.setReg a v).dmp = s.dmp := rfl
@[simp] theorem State.setReg_mif (s : State) (a : Nat) (v : Word) : (s.setReg a v).mif = s.mif := rfl
@[simp] theorem State.setReg_cue (s : State) (a : Nat) (v : Word) : (s.setReg a v).cue = s.cue := rfl
@[simp] theorem State.setReg_bel (s : State) (a : Nat) (v : Word) : (s.setReg a v).bel = s.bel := rfl
@[simp] theorem State.setReg_skp (s : State) (a : Nat) (v : Word) : (s.setReg a v).skp = s.skp := rfl
@[simp] theorem State.setReg_pwr (s : State) (a : Nat) (v : Word) : (s.setReg a v).pwr = s.pwr := rfl
@[simp] theorem State.setReg_hif (s : State) (a : Nat) (v : Word) : (s.setReg a v).hif = s.hif := rfl
@[simp] theorem State.setReg_jobs (s : State) (a : Nat) (v : Word) : (s.setReg a v).jobs = s.jobs := rfl
@[simp] theorem State.setReg_answers (s : State) (a : Nat) (v : Word) : (s.setReg a v).answers = s.answers := rfl
@[simp] theorem State.setReg_pcie (s : State) (a : Nat) (v : Word) : (s.setReg a v).pcie = s.pcie := rfl
@[simp] theorem State.setReg_pins (s : State) (a : Nat) (v : Word) : (s.setReg a v).pins = s.pins := rfl
@[simp] theorem State.setReg_otp (s : State) (a : Nat) (v : Word) : (s.setReg a v).otp = s.otp := rfl
@[simp] theorem State.setReg_freeCtr (s : State) (a : Nat) (v : Word) : (s.setReg a v).freeCtr = s.freeCtr := rfl
@[simp] theorem State.setReg_now (s : State) (a : Nat) (v : Word) : (s.setReg a v).now = s.now := rfl
@[simp] theorem State.setReg_pending (s : State) (a : Nat) (v : Word) : (s.setReg a v).pending = s.pending := rfl

/-! setWide -/

@[simp] theorem State.setWide_regs (s : State) (k : Nat) (v : Wide) : (s.setWide k v).regs = s.regs := rfl
@[simp] theorem State.setWide_replies (s : State) (k : Nat) (v : Wide) : (s.setWide k v).replies = s.replies := rfl
@[simp] theorem State.setWide_fences (s : State) (k : Nat) (v : Wide) : (s.setWide k v).fences = s.fences := rfl
@[simp] theorem State.setWide_balls (s : State) (k : Nat) (v : Wide) : (s.setWide k v).balls = s.balls := rfl
@[simp] theorem State.setWide_evc (s : State) (k : Nat) (v : Wide) : (s.setWide k v).evc = s.evc := rfl
@[simp] theorem State.setWide_hearths (s : State) (k : Nat) (v : Wide) : (s.setWide k v).hearths = s.hearths := rfl
@[simp] theorem State.setWide_flue (s : State) (k : Nat) (v : Wide) : (s.setWide k v).flue = s.flue := rfl
@[simp] theorem State.setWide_rallyCount (s : State) (k : Nat) (v : Wide) : (s.setWide k v).rallyCount = s.rallyCount := rfl
@[simp] theorem State.setWide_rsg (s : State) (k : Nat) (v : Wide) : (s.setWide k v).rsg = s.rsg := rfl
@[simp] theorem State.setWide_tsu (s : State) (k : Nat) (v : Wide) : (s.setWide k v).tsu = s.tsu := rfl
@[simp] theorem State.setWide_mantel (s : State) (k : Nat) (v : Wide) : (s.setWide k v).mantel = s.mantel := rfl
@[simp] theorem State.setWide_flips (s : State) (k : Nat) (v : Wide) : (s.setWide k v).flips = s.flips := rfl
@[simp] theorem State.setWide_scrub (s : State) (k : Nat) (v : Wide) : (s.setWide k v).scrub = s.scrub := rfl
@[simp] theorem State.setWide_ports (s : State) (k : Nat) (v : Wide) : (s.setWide k v).ports = s.ports := rfl
@[simp] theorem State.setWide_net (s : State) (k : Nat) (v : Wide) : (s.setWide k v).net = s.net := rfl
@[simp] theorem State.setWide_chm (s : State) (k : Nat) (v : Wide) : (s.setWide k v).chm = s.chm := rfl
@[simp] theorem State.setWide_dmp (s : State) (k : Nat) (v : Wide) : (s.setWide k v).dmp = s.dmp := rfl
@[simp] theorem State.setWide_mif (s : State) (k : Nat) (v : Wide) : (s.setWide k v).mif = s.mif := rfl
@[simp] theorem State.setWide_cue (s : State) (k : Nat) (v : Wide) : (s.setWide k v).cue = s.cue := rfl
@[simp] theorem State.setWide_bel (s : State) (k : Nat) (v : Wide) : (s.setWide k v).bel = s.bel := rfl
@[simp] theorem State.setWide_skp (s : State) (k : Nat) (v : Wide) : (s.setWide k v).skp = s.skp := rfl
@[simp] theorem State.setWide_pwr (s : State) (k : Nat) (v : Wide) : (s.setWide k v).pwr = s.pwr := rfl
@[simp] theorem State.setWide_hif (s : State) (k : Nat) (v : Wide) : (s.setWide k v).hif = s.hif := rfl
@[simp] theorem State.setWide_jobs (s : State) (k : Nat) (v : Wide) : (s.setWide k v).jobs = s.jobs := rfl
@[simp] theorem State.setWide_answers (s : State) (k : Nat) (v : Wide) : (s.setWide k v).answers = s.answers := rfl
@[simp] theorem State.setWide_pcie (s : State) (k : Nat) (v : Wide) : (s.setWide k v).pcie = s.pcie := rfl
@[simp] theorem State.setWide_pins (s : State) (k : Nat) (v : Wide) : (s.setWide k v).pins = s.pins := rfl
@[simp] theorem State.setWide_otp (s : State) (k : Nat) (v : Wide) : (s.setWide k v).otp = s.otp := rfl
@[simp] theorem State.setWide_freeCtr (s : State) (k : Nat) (v : Wide) : (s.setWide k v).freeCtr = s.freeCtr := rfl
@[simp] theorem State.setWide_now (s : State) (k : Nat) (v : Wide) : (s.setWide k v).now = s.now := rfl
@[simp] theorem State.setWide_pending (s : State) (k : Nat) (v : Wide) : (s.setWide k v).pending = s.pending := rfl

/-! setHearth -/

@[simp] theorem State.setHearth_regs (s : State) (n : Nat) (h : Hearth) : (s.setHearth n h).regs = s.regs := rfl
@[simp] theorem State.setHearth_replies (s : State) (n : Nat) (h : Hearth) : (s.setHearth n h).replies = s.replies := rfl
@[simp] theorem State.setHearth_fences (s : State) (n : Nat) (h : Hearth) : (s.setHearth n h).fences = s.fences := rfl
@[simp] theorem State.setHearth_wide (s : State) (n : Nat) (h : Hearth) : (s.setHearth n h).wide = s.wide := rfl
@[simp] theorem State.setHearth_balls (s : State) (n : Nat) (h : Hearth) : (s.setHearth n h).balls = s.balls := rfl
@[simp] theorem State.setHearth_evc (s : State) (n : Nat) (h : Hearth) : (s.setHearth n h).evc = s.evc := rfl
@[simp] theorem State.setHearth_flue (s : State) (n : Nat) (h : Hearth) : (s.setHearth n h).flue = s.flue := rfl
@[simp] theorem State.setHearth_rallyCount (s : State) (n : Nat) (h : Hearth) : (s.setHearth n h).rallyCount = s.rallyCount := rfl
@[simp] theorem State.setHearth_rsg (s : State) (n : Nat) (h : Hearth) : (s.setHearth n h).rsg = s.rsg := rfl
@[simp] theorem State.setHearth_tsu (s : State) (n : Nat) (h : Hearth) : (s.setHearth n h).tsu = s.tsu := rfl
@[simp] theorem State.setHearth_mantel (s : State) (n : Nat) (h : Hearth) : (s.setHearth n h).mantel = s.mantel := rfl
@[simp] theorem State.setHearth_flips (s : State) (n : Nat) (h : Hearth) : (s.setHearth n h).flips = s.flips := rfl
@[simp] theorem State.setHearth_scrub (s : State) (n : Nat) (h : Hearth) : (s.setHearth n h).scrub = s.scrub := rfl
@[simp] theorem State.setHearth_ports (s : State) (n : Nat) (h : Hearth) : (s.setHearth n h).ports = s.ports := rfl
@[simp] theorem State.setHearth_net (s : State) (n : Nat) (h : Hearth) : (s.setHearth n h).net = s.net := rfl
@[simp] theorem State.setHearth_chm (s : State) (n : Nat) (h : Hearth) : (s.setHearth n h).chm = s.chm := rfl
@[simp] theorem State.setHearth_dmp (s : State) (n : Nat) (h : Hearth) : (s.setHearth n h).dmp = s.dmp := rfl
@[simp] theorem State.setHearth_mif (s : State) (n : Nat) (h : Hearth) : (s.setHearth n h).mif = s.mif := rfl
@[simp] theorem State.setHearth_cue (s : State) (n : Nat) (h : Hearth) : (s.setHearth n h).cue = s.cue := rfl
@[simp] theorem State.setHearth_bel (s : State) (n : Nat) (h : Hearth) : (s.setHearth n h).bel = s.bel := rfl
@[simp] theorem State.setHearth_skp (s : State) (n : Nat) (h : Hearth) : (s.setHearth n h).skp = s.skp := rfl
@[simp] theorem State.setHearth_pwr (s : State) (n : Nat) (h : Hearth) : (s.setHearth n h).pwr = s.pwr := rfl
@[simp] theorem State.setHearth_hif (s : State) (n : Nat) (h : Hearth) : (s.setHearth n h).hif = s.hif := rfl
@[simp] theorem State.setHearth_jobs (s : State) (n : Nat) (h : Hearth) : (s.setHearth n h).jobs = s.jobs := rfl
@[simp] theorem State.setHearth_answers (s : State) (n : Nat) (h : Hearth) : (s.setHearth n h).answers = s.answers := rfl
@[simp] theorem State.setHearth_pcie (s : State) (n : Nat) (h : Hearth) : (s.setHearth n h).pcie = s.pcie := rfl
@[simp] theorem State.setHearth_pins (s : State) (n : Nat) (h : Hearth) : (s.setHearth n h).pins = s.pins := rfl
@[simp] theorem State.setHearth_otp (s : State) (n : Nat) (h : Hearth) : (s.setHearth n h).otp = s.otp := rfl
@[simp] theorem State.setHearth_freeCtr (s : State) (n : Nat) (h : Hearth) : (s.setHearth n h).freeCtr = s.freeCtr := rfl
@[simp] theorem State.setHearth_now (s : State) (n : Nat) (h : Hearth) : (s.setHearth n h).now = s.now := rfl
@[simp] theorem State.setHearth_pending (s : State) (n : Nat) (h : Hearth) : (s.setHearth n h).pending = s.pending := rfl

/-! modSkp -/

@[simp] theorem State.modSkp_regs (s : State) (f : Skp → Skp) : (s.modSkp f).regs = s.regs := rfl
@[simp] theorem State.modSkp_replies (s : State) (f : Skp → Skp) : (s.modSkp f).replies = s.replies := rfl
@[simp] theorem State.modSkp_fences (s : State) (f : Skp → Skp) : (s.modSkp f).fences = s.fences := rfl
@[simp] theorem State.modSkp_wide (s : State) (f : Skp → Skp) : (s.modSkp f).wide = s.wide := rfl
@[simp] theorem State.modSkp_balls (s : State) (f : Skp → Skp) : (s.modSkp f).balls = s.balls := rfl
@[simp] theorem State.modSkp_evc (s : State) (f : Skp → Skp) : (s.modSkp f).evc = s.evc := rfl
@[simp] theorem State.modSkp_hearths (s : State) (f : Skp → Skp) : (s.modSkp f).hearths = s.hearths := rfl
@[simp] theorem State.modSkp_flue (s : State) (f : Skp → Skp) : (s.modSkp f).flue = s.flue := rfl
@[simp] theorem State.modSkp_rallyCount (s : State) (f : Skp → Skp) : (s.modSkp f).rallyCount = s.rallyCount := rfl
@[simp] theorem State.modSkp_rsg (s : State) (f : Skp → Skp) : (s.modSkp f).rsg = s.rsg := rfl
@[simp] theorem State.modSkp_tsu (s : State) (f : Skp → Skp) : (s.modSkp f).tsu = s.tsu := rfl
@[simp] theorem State.modSkp_mantel (s : State) (f : Skp → Skp) : (s.modSkp f).mantel = s.mantel := rfl
@[simp] theorem State.modSkp_flips (s : State) (f : Skp → Skp) : (s.modSkp f).flips = s.flips := rfl
@[simp] theorem State.modSkp_scrub (s : State) (f : Skp → Skp) : (s.modSkp f).scrub = s.scrub := rfl
@[simp] theorem State.modSkp_ports (s : State) (f : Skp → Skp) : (s.modSkp f).ports = s.ports := rfl
@[simp] theorem State.modSkp_net (s : State) (f : Skp → Skp) : (s.modSkp f).net = s.net := rfl
@[simp] theorem State.modSkp_chm (s : State) (f : Skp → Skp) : (s.modSkp f).chm = s.chm := rfl
@[simp] theorem State.modSkp_dmp (s : State) (f : Skp → Skp) : (s.modSkp f).dmp = s.dmp := rfl
@[simp] theorem State.modSkp_mif (s : State) (f : Skp → Skp) : (s.modSkp f).mif = s.mif := rfl
@[simp] theorem State.modSkp_cue (s : State) (f : Skp → Skp) : (s.modSkp f).cue = s.cue := rfl
@[simp] theorem State.modSkp_bel (s : State) (f : Skp → Skp) : (s.modSkp f).bel = s.bel := rfl
@[simp] theorem State.modSkp_pwr (s : State) (f : Skp → Skp) : (s.modSkp f).pwr = s.pwr := rfl
@[simp] theorem State.modSkp_hif (s : State) (f : Skp → Skp) : (s.modSkp f).hif = s.hif := rfl
@[simp] theorem State.modSkp_jobs (s : State) (f : Skp → Skp) : (s.modSkp f).jobs = s.jobs := rfl
@[simp] theorem State.modSkp_answers (s : State) (f : Skp → Skp) : (s.modSkp f).answers = s.answers := rfl
@[simp] theorem State.modSkp_pcie (s : State) (f : Skp → Skp) : (s.modSkp f).pcie = s.pcie := rfl
@[simp] theorem State.modSkp_pins (s : State) (f : Skp → Skp) : (s.modSkp f).pins = s.pins := rfl
@[simp] theorem State.modSkp_otp (s : State) (f : Skp → Skp) : (s.modSkp f).otp = s.otp := rfl
@[simp] theorem State.modSkp_freeCtr (s : State) (f : Skp → Skp) : (s.modSkp f).freeCtr = s.freeCtr := rfl
@[simp] theorem State.modSkp_now (s : State) (f : Skp → Skp) : (s.modSkp f).now = s.now := rfl
@[simp] theorem State.modSkp_pending (s : State) (f : Skp → Skp) : (s.modSkp f).pending = s.pending := rfl

/-! modPwr -/

@[simp] theorem State.modPwr_regs (s : State) (f : Pwr → Pwr) : (s.modPwr f).regs = s.regs := rfl
@[simp] theorem State.modPwr_replies (s : State) (f : Pwr → Pwr) : (s.modPwr f).replies = s.replies := rfl
@[simp] theorem State.modPwr_fences (s : State) (f : Pwr → Pwr) : (s.modPwr f).fences = s.fences := rfl
@[simp] theorem State.modPwr_wide (s : State) (f : Pwr → Pwr) : (s.modPwr f).wide = s.wide := rfl
@[simp] theorem State.modPwr_balls (s : State) (f : Pwr → Pwr) : (s.modPwr f).balls = s.balls := rfl
@[simp] theorem State.modPwr_evc (s : State) (f : Pwr → Pwr) : (s.modPwr f).evc = s.evc := rfl
@[simp] theorem State.modPwr_hearths (s : State) (f : Pwr → Pwr) : (s.modPwr f).hearths = s.hearths := rfl
@[simp] theorem State.modPwr_flue (s : State) (f : Pwr → Pwr) : (s.modPwr f).flue = s.flue := rfl
@[simp] theorem State.modPwr_rallyCount (s : State) (f : Pwr → Pwr) : (s.modPwr f).rallyCount = s.rallyCount := rfl
@[simp] theorem State.modPwr_rsg (s : State) (f : Pwr → Pwr) : (s.modPwr f).rsg = s.rsg := rfl
@[simp] theorem State.modPwr_tsu (s : State) (f : Pwr → Pwr) : (s.modPwr f).tsu = s.tsu := rfl
@[simp] theorem State.modPwr_mantel (s : State) (f : Pwr → Pwr) : (s.modPwr f).mantel = s.mantel := rfl
@[simp] theorem State.modPwr_flips (s : State) (f : Pwr → Pwr) : (s.modPwr f).flips = s.flips := rfl
@[simp] theorem State.modPwr_scrub (s : State) (f : Pwr → Pwr) : (s.modPwr f).scrub = s.scrub := rfl
@[simp] theorem State.modPwr_ports (s : State) (f : Pwr → Pwr) : (s.modPwr f).ports = s.ports := rfl
@[simp] theorem State.modPwr_net (s : State) (f : Pwr → Pwr) : (s.modPwr f).net = s.net := rfl
@[simp] theorem State.modPwr_chm (s : State) (f : Pwr → Pwr) : (s.modPwr f).chm = s.chm := rfl
@[simp] theorem State.modPwr_dmp (s : State) (f : Pwr → Pwr) : (s.modPwr f).dmp = s.dmp := rfl
@[simp] theorem State.modPwr_mif (s : State) (f : Pwr → Pwr) : (s.modPwr f).mif = s.mif := rfl
@[simp] theorem State.modPwr_cue (s : State) (f : Pwr → Pwr) : (s.modPwr f).cue = s.cue := rfl
@[simp] theorem State.modPwr_bel (s : State) (f : Pwr → Pwr) : (s.modPwr f).bel = s.bel := rfl
@[simp] theorem State.modPwr_skp (s : State) (f : Pwr → Pwr) : (s.modPwr f).skp = s.skp := rfl
@[simp] theorem State.modPwr_hif (s : State) (f : Pwr → Pwr) : (s.modPwr f).hif = s.hif := rfl
@[simp] theorem State.modPwr_jobs (s : State) (f : Pwr → Pwr) : (s.modPwr f).jobs = s.jobs := rfl
@[simp] theorem State.modPwr_answers (s : State) (f : Pwr → Pwr) : (s.modPwr f).answers = s.answers := rfl
@[simp] theorem State.modPwr_pcie (s : State) (f : Pwr → Pwr) : (s.modPwr f).pcie = s.pcie := rfl
@[simp] theorem State.modPwr_pins (s : State) (f : Pwr → Pwr) : (s.modPwr f).pins = s.pins := rfl
@[simp] theorem State.modPwr_otp (s : State) (f : Pwr → Pwr) : (s.modPwr f).otp = s.otp := rfl
@[simp] theorem State.modPwr_freeCtr (s : State) (f : Pwr → Pwr) : (s.modPwr f).freeCtr = s.freeCtr := rfl
@[simp] theorem State.modPwr_now (s : State) (f : Pwr → Pwr) : (s.modPwr f).now = s.now := rfl
@[simp] theorem State.modPwr_pending (s : State) (f : Pwr → Pwr) : (s.modPwr f).pending = s.pending := rfl

/-! modHif -/

@[simp] theorem State.modHif_regs (s : State) (f : Hif → Hif) : (s.modHif f).regs = s.regs := rfl
@[simp] theorem State.modHif_replies (s : State) (f : Hif → Hif) : (s.modHif f).replies = s.replies := rfl
@[simp] theorem State.modHif_fences (s : State) (f : Hif → Hif) : (s.modHif f).fences = s.fences := rfl
@[simp] theorem State.modHif_wide (s : State) (f : Hif → Hif) : (s.modHif f).wide = s.wide := rfl
@[simp] theorem State.modHif_balls (s : State) (f : Hif → Hif) : (s.modHif f).balls = s.balls := rfl
@[simp] theorem State.modHif_evc (s : State) (f : Hif → Hif) : (s.modHif f).evc = s.evc := rfl
@[simp] theorem State.modHif_hearths (s : State) (f : Hif → Hif) : (s.modHif f).hearths = s.hearths := rfl
@[simp] theorem State.modHif_flue (s : State) (f : Hif → Hif) : (s.modHif f).flue = s.flue := rfl
@[simp] theorem State.modHif_rallyCount (s : State) (f : Hif → Hif) : (s.modHif f).rallyCount = s.rallyCount := rfl
@[simp] theorem State.modHif_rsg (s : State) (f : Hif → Hif) : (s.modHif f).rsg = s.rsg := rfl
@[simp] theorem State.modHif_tsu (s : State) (f : Hif → Hif) : (s.modHif f).tsu = s.tsu := rfl
@[simp] theorem State.modHif_mantel (s : State) (f : Hif → Hif) : (s.modHif f).mantel = s.mantel := rfl
@[simp] theorem State.modHif_flips (s : State) (f : Hif → Hif) : (s.modHif f).flips = s.flips := rfl
@[simp] theorem State.modHif_scrub (s : State) (f : Hif → Hif) : (s.modHif f).scrub = s.scrub := rfl
@[simp] theorem State.modHif_ports (s : State) (f : Hif → Hif) : (s.modHif f).ports = s.ports := rfl
@[simp] theorem State.modHif_net (s : State) (f : Hif → Hif) : (s.modHif f).net = s.net := rfl
@[simp] theorem State.modHif_chm (s : State) (f : Hif → Hif) : (s.modHif f).chm = s.chm := rfl
@[simp] theorem State.modHif_dmp (s : State) (f : Hif → Hif) : (s.modHif f).dmp = s.dmp := rfl
@[simp] theorem State.modHif_mif (s : State) (f : Hif → Hif) : (s.modHif f).mif = s.mif := rfl
@[simp] theorem State.modHif_cue (s : State) (f : Hif → Hif) : (s.modHif f).cue = s.cue := rfl
@[simp] theorem State.modHif_bel (s : State) (f : Hif → Hif) : (s.modHif f).bel = s.bel := rfl
@[simp] theorem State.modHif_skp (s : State) (f : Hif → Hif) : (s.modHif f).skp = s.skp := rfl
@[simp] theorem State.modHif_pwr (s : State) (f : Hif → Hif) : (s.modHif f).pwr = s.pwr := rfl
@[simp] theorem State.modHif_jobs (s : State) (f : Hif → Hif) : (s.modHif f).jobs = s.jobs := rfl
@[simp] theorem State.modHif_answers (s : State) (f : Hif → Hif) : (s.modHif f).answers = s.answers := rfl
@[simp] theorem State.modHif_pcie (s : State) (f : Hif → Hif) : (s.modHif f).pcie = s.pcie := rfl
@[simp] theorem State.modHif_pins (s : State) (f : Hif → Hif) : (s.modHif f).pins = s.pins := rfl
@[simp] theorem State.modHif_otp (s : State) (f : Hif → Hif) : (s.modHif f).otp = s.otp := rfl
@[simp] theorem State.modHif_freeCtr (s : State) (f : Hif → Hif) : (s.modHif f).freeCtr = s.freeCtr := rfl
@[simp] theorem State.modHif_now (s : State) (f : Hif → Hif) : (s.modHif f).now = s.now := rfl
@[simp] theorem State.modHif_pending (s : State) (f : Hif → Hif) : (s.modHif f).pending = s.pending := rfl

/-! modChm -/

@[simp] theorem State.modChm_regs (s : State) (f : Chm → Chm) : (s.modChm f).regs = s.regs := rfl
@[simp] theorem State.modChm_replies (s : State) (f : Chm → Chm) : (s.modChm f).replies = s.replies := rfl
@[simp] theorem State.modChm_fences (s : State) (f : Chm → Chm) : (s.modChm f).fences = s.fences := rfl
@[simp] theorem State.modChm_wide (s : State) (f : Chm → Chm) : (s.modChm f).wide = s.wide := rfl
@[simp] theorem State.modChm_balls (s : State) (f : Chm → Chm) : (s.modChm f).balls = s.balls := rfl
@[simp] theorem State.modChm_evc (s : State) (f : Chm → Chm) : (s.modChm f).evc = s.evc := rfl
@[simp] theorem State.modChm_hearths (s : State) (f : Chm → Chm) : (s.modChm f).hearths = s.hearths := rfl
@[simp] theorem State.modChm_flue (s : State) (f : Chm → Chm) : (s.modChm f).flue = s.flue := rfl
@[simp] theorem State.modChm_rallyCount (s : State) (f : Chm → Chm) : (s.modChm f).rallyCount = s.rallyCount := rfl
@[simp] theorem State.modChm_rsg (s : State) (f : Chm → Chm) : (s.modChm f).rsg = s.rsg := rfl
@[simp] theorem State.modChm_tsu (s : State) (f : Chm → Chm) : (s.modChm f).tsu = s.tsu := rfl
@[simp] theorem State.modChm_mantel (s : State) (f : Chm → Chm) : (s.modChm f).mantel = s.mantel := rfl
@[simp] theorem State.modChm_flips (s : State) (f : Chm → Chm) : (s.modChm f).flips = s.flips := rfl
@[simp] theorem State.modChm_scrub (s : State) (f : Chm → Chm) : (s.modChm f).scrub = s.scrub := rfl
@[simp] theorem State.modChm_ports (s : State) (f : Chm → Chm) : (s.modChm f).ports = s.ports := rfl
@[simp] theorem State.modChm_net (s : State) (f : Chm → Chm) : (s.modChm f).net = s.net := rfl
@[simp] theorem State.modChm_dmp (s : State) (f : Chm → Chm) : (s.modChm f).dmp = s.dmp := rfl
@[simp] theorem State.modChm_mif (s : State) (f : Chm → Chm) : (s.modChm f).mif = s.mif := rfl
@[simp] theorem State.modChm_cue (s : State) (f : Chm → Chm) : (s.modChm f).cue = s.cue := rfl
@[simp] theorem State.modChm_bel (s : State) (f : Chm → Chm) : (s.modChm f).bel = s.bel := rfl
@[simp] theorem State.modChm_skp (s : State) (f : Chm → Chm) : (s.modChm f).skp = s.skp := rfl
@[simp] theorem State.modChm_pwr (s : State) (f : Chm → Chm) : (s.modChm f).pwr = s.pwr := rfl
@[simp] theorem State.modChm_hif (s : State) (f : Chm → Chm) : (s.modChm f).hif = s.hif := rfl
@[simp] theorem State.modChm_jobs (s : State) (f : Chm → Chm) : (s.modChm f).jobs = s.jobs := rfl
@[simp] theorem State.modChm_answers (s : State) (f : Chm → Chm) : (s.modChm f).answers = s.answers := rfl
@[simp] theorem State.modChm_pcie (s : State) (f : Chm → Chm) : (s.modChm f).pcie = s.pcie := rfl
@[simp] theorem State.modChm_pins (s : State) (f : Chm → Chm) : (s.modChm f).pins = s.pins := rfl
@[simp] theorem State.modChm_otp (s : State) (f : Chm → Chm) : (s.modChm f).otp = s.otp := rfl
@[simp] theorem State.modChm_freeCtr (s : State) (f : Chm → Chm) : (s.modChm f).freeCtr = s.freeCtr := rfl
@[simp] theorem State.modChm_now (s : State) (f : Chm → Chm) : (s.modChm f).now = s.now := rfl
@[simp] theorem State.modChm_pending (s : State) (f : Chm → Chm) : (s.modChm f).pending = s.pending := rfl

/-! modDmp -/

@[simp] theorem State.modDmp_regs (s : State) (f : Dmp → Dmp) : (s.modDmp f).regs = s.regs := rfl
@[simp] theorem State.modDmp_replies (s : State) (f : Dmp → Dmp) : (s.modDmp f).replies = s.replies := rfl
@[simp] theorem State.modDmp_fences (s : State) (f : Dmp → Dmp) : (s.modDmp f).fences = s.fences := rfl
@[simp] theorem State.modDmp_wide (s : State) (f : Dmp → Dmp) : (s.modDmp f).wide = s.wide := rfl
@[simp] theorem State.modDmp_balls (s : State) (f : Dmp → Dmp) : (s.modDmp f).balls = s.balls := rfl
@[simp] theorem State.modDmp_evc (s : State) (f : Dmp → Dmp) : (s.modDmp f).evc = s.evc := rfl
@[simp] theorem State.modDmp_hearths (s : State) (f : Dmp → Dmp) : (s.modDmp f).hearths = s.hearths := rfl
@[simp] theorem State.modDmp_flue (s : State) (f : Dmp → Dmp) : (s.modDmp f).flue = s.flue := rfl
@[simp] theorem State.modDmp_rallyCount (s : State) (f : Dmp → Dmp) : (s.modDmp f).rallyCount = s.rallyCount := rfl
@[simp] theorem State.modDmp_rsg (s : State) (f : Dmp → Dmp) : (s.modDmp f).rsg = s.rsg := rfl
@[simp] theorem State.modDmp_tsu (s : State) (f : Dmp → Dmp) : (s.modDmp f).tsu = s.tsu := rfl
@[simp] theorem State.modDmp_mantel (s : State) (f : Dmp → Dmp) : (s.modDmp f).mantel = s.mantel := rfl
@[simp] theorem State.modDmp_flips (s : State) (f : Dmp → Dmp) : (s.modDmp f).flips = s.flips := rfl
@[simp] theorem State.modDmp_scrub (s : State) (f : Dmp → Dmp) : (s.modDmp f).scrub = s.scrub := rfl
@[simp] theorem State.modDmp_ports (s : State) (f : Dmp → Dmp) : (s.modDmp f).ports = s.ports := rfl
@[simp] theorem State.modDmp_net (s : State) (f : Dmp → Dmp) : (s.modDmp f).net = s.net := rfl
@[simp] theorem State.modDmp_chm (s : State) (f : Dmp → Dmp) : (s.modDmp f).chm = s.chm := rfl
@[simp] theorem State.modDmp_mif (s : State) (f : Dmp → Dmp) : (s.modDmp f).mif = s.mif := rfl
@[simp] theorem State.modDmp_cue (s : State) (f : Dmp → Dmp) : (s.modDmp f).cue = s.cue := rfl
@[simp] theorem State.modDmp_bel (s : State) (f : Dmp → Dmp) : (s.modDmp f).bel = s.bel := rfl
@[simp] theorem State.modDmp_skp (s : State) (f : Dmp → Dmp) : (s.modDmp f).skp = s.skp := rfl
@[simp] theorem State.modDmp_pwr (s : State) (f : Dmp → Dmp) : (s.modDmp f).pwr = s.pwr := rfl
@[simp] theorem State.modDmp_hif (s : State) (f : Dmp → Dmp) : (s.modDmp f).hif = s.hif := rfl
@[simp] theorem State.modDmp_jobs (s : State) (f : Dmp → Dmp) : (s.modDmp f).jobs = s.jobs := rfl
@[simp] theorem State.modDmp_answers (s : State) (f : Dmp → Dmp) : (s.modDmp f).answers = s.answers := rfl
@[simp] theorem State.modDmp_pcie (s : State) (f : Dmp → Dmp) : (s.modDmp f).pcie = s.pcie := rfl
@[simp] theorem State.modDmp_pins (s : State) (f : Dmp → Dmp) : (s.modDmp f).pins = s.pins := rfl
@[simp] theorem State.modDmp_otp (s : State) (f : Dmp → Dmp) : (s.modDmp f).otp = s.otp := rfl
@[simp] theorem State.modDmp_freeCtr (s : State) (f : Dmp → Dmp) : (s.modDmp f).freeCtr = s.freeCtr := rfl
@[simp] theorem State.modDmp_now (s : State) (f : Dmp → Dmp) : (s.modDmp f).now = s.now := rfl
@[simp] theorem State.modDmp_pending (s : State) (f : Dmp → Dmp) : (s.modDmp f).pending = s.pending := rfl

/-! modTsu -/

@[simp] theorem State.modTsu_regs (s : State) (f : Tsu → Tsu) : (s.modTsu f).regs = s.regs := rfl
@[simp] theorem State.modTsu_replies (s : State) (f : Tsu → Tsu) : (s.modTsu f).replies = s.replies := rfl
@[simp] theorem State.modTsu_fences (s : State) (f : Tsu → Tsu) : (s.modTsu f).fences = s.fences := rfl
@[simp] theorem State.modTsu_wide (s : State) (f : Tsu → Tsu) : (s.modTsu f).wide = s.wide := rfl
@[simp] theorem State.modTsu_balls (s : State) (f : Tsu → Tsu) : (s.modTsu f).balls = s.balls := rfl
@[simp] theorem State.modTsu_evc (s : State) (f : Tsu → Tsu) : (s.modTsu f).evc = s.evc := rfl
@[simp] theorem State.modTsu_hearths (s : State) (f : Tsu → Tsu) : (s.modTsu f).hearths = s.hearths := rfl
@[simp] theorem State.modTsu_flue (s : State) (f : Tsu → Tsu) : (s.modTsu f).flue = s.flue := rfl
@[simp] theorem State.modTsu_rallyCount (s : State) (f : Tsu → Tsu) : (s.modTsu f).rallyCount = s.rallyCount := rfl
@[simp] theorem State.modTsu_rsg (s : State) (f : Tsu → Tsu) : (s.modTsu f).rsg = s.rsg := rfl
@[simp] theorem State.modTsu_mantel (s : State) (f : Tsu → Tsu) : (s.modTsu f).mantel = s.mantel := rfl
@[simp] theorem State.modTsu_flips (s : State) (f : Tsu → Tsu) : (s.modTsu f).flips = s.flips := rfl
@[simp] theorem State.modTsu_scrub (s : State) (f : Tsu → Tsu) : (s.modTsu f).scrub = s.scrub := rfl
@[simp] theorem State.modTsu_ports (s : State) (f : Tsu → Tsu) : (s.modTsu f).ports = s.ports := rfl
@[simp] theorem State.modTsu_net (s : State) (f : Tsu → Tsu) : (s.modTsu f).net = s.net := rfl
@[simp] theorem State.modTsu_chm (s : State) (f : Tsu → Tsu) : (s.modTsu f).chm = s.chm := rfl
@[simp] theorem State.modTsu_dmp (s : State) (f : Tsu → Tsu) : (s.modTsu f).dmp = s.dmp := rfl
@[simp] theorem State.modTsu_mif (s : State) (f : Tsu → Tsu) : (s.modTsu f).mif = s.mif := rfl
@[simp] theorem State.modTsu_cue (s : State) (f : Tsu → Tsu) : (s.modTsu f).cue = s.cue := rfl
@[simp] theorem State.modTsu_bel (s : State) (f : Tsu → Tsu) : (s.modTsu f).bel = s.bel := rfl
@[simp] theorem State.modTsu_skp (s : State) (f : Tsu → Tsu) : (s.modTsu f).skp = s.skp := rfl
@[simp] theorem State.modTsu_pwr (s : State) (f : Tsu → Tsu) : (s.modTsu f).pwr = s.pwr := rfl
@[simp] theorem State.modTsu_hif (s : State) (f : Tsu → Tsu) : (s.modTsu f).hif = s.hif := rfl
@[simp] theorem State.modTsu_jobs (s : State) (f : Tsu → Tsu) : (s.modTsu f).jobs = s.jobs := rfl
@[simp] theorem State.modTsu_answers (s : State) (f : Tsu → Tsu) : (s.modTsu f).answers = s.answers := rfl
@[simp] theorem State.modTsu_pcie (s : State) (f : Tsu → Tsu) : (s.modTsu f).pcie = s.pcie := rfl
@[simp] theorem State.modTsu_pins (s : State) (f : Tsu → Tsu) : (s.modTsu f).pins = s.pins := rfl
@[simp] theorem State.modTsu_otp (s : State) (f : Tsu → Tsu) : (s.modTsu f).otp = s.otp := rfl
@[simp] theorem State.modTsu_freeCtr (s : State) (f : Tsu → Tsu) : (s.modTsu f).freeCtr = s.freeCtr := rfl
@[simp] theorem State.modTsu_now (s : State) (f : Tsu → Tsu) : (s.modTsu f).now = s.now := rfl
@[simp] theorem State.modTsu_pending (s : State) (f : Tsu → Tsu) : (s.modTsu f).pending = s.pending := rfl

/-! modRsg -/

@[simp] theorem State.modRsg_regs (s : State) (f : Rsg → Rsg) : (s.modRsg f).regs = s.regs := rfl
@[simp] theorem State.modRsg_replies (s : State) (f : Rsg → Rsg) : (s.modRsg f).replies = s.replies := rfl
@[simp] theorem State.modRsg_fences (s : State) (f : Rsg → Rsg) : (s.modRsg f).fences = s.fences := rfl
@[simp] theorem State.modRsg_wide (s : State) (f : Rsg → Rsg) : (s.modRsg f).wide = s.wide := rfl
@[simp] theorem State.modRsg_balls (s : State) (f : Rsg → Rsg) : (s.modRsg f).balls = s.balls := rfl
@[simp] theorem State.modRsg_evc (s : State) (f : Rsg → Rsg) : (s.modRsg f).evc = s.evc := rfl
@[simp] theorem State.modRsg_hearths (s : State) (f : Rsg → Rsg) : (s.modRsg f).hearths = s.hearths := rfl
@[simp] theorem State.modRsg_flue (s : State) (f : Rsg → Rsg) : (s.modRsg f).flue = s.flue := rfl
@[simp] theorem State.modRsg_rallyCount (s : State) (f : Rsg → Rsg) : (s.modRsg f).rallyCount = s.rallyCount := rfl
@[simp] theorem State.modRsg_tsu (s : State) (f : Rsg → Rsg) : (s.modRsg f).tsu = s.tsu := rfl
@[simp] theorem State.modRsg_mantel (s : State) (f : Rsg → Rsg) : (s.modRsg f).mantel = s.mantel := rfl
@[simp] theorem State.modRsg_flips (s : State) (f : Rsg → Rsg) : (s.modRsg f).flips = s.flips := rfl
@[simp] theorem State.modRsg_scrub (s : State) (f : Rsg → Rsg) : (s.modRsg f).scrub = s.scrub := rfl
@[simp] theorem State.modRsg_ports (s : State) (f : Rsg → Rsg) : (s.modRsg f).ports = s.ports := rfl
@[simp] theorem State.modRsg_net (s : State) (f : Rsg → Rsg) : (s.modRsg f).net = s.net := rfl
@[simp] theorem State.modRsg_chm (s : State) (f : Rsg → Rsg) : (s.modRsg f).chm = s.chm := rfl
@[simp] theorem State.modRsg_dmp (s : State) (f : Rsg → Rsg) : (s.modRsg f).dmp = s.dmp := rfl
@[simp] theorem State.modRsg_mif (s : State) (f : Rsg → Rsg) : (s.modRsg f).mif = s.mif := rfl
@[simp] theorem State.modRsg_cue (s : State) (f : Rsg → Rsg) : (s.modRsg f).cue = s.cue := rfl
@[simp] theorem State.modRsg_bel (s : State) (f : Rsg → Rsg) : (s.modRsg f).bel = s.bel := rfl
@[simp] theorem State.modRsg_skp (s : State) (f : Rsg → Rsg) : (s.modRsg f).skp = s.skp := rfl
@[simp] theorem State.modRsg_pwr (s : State) (f : Rsg → Rsg) : (s.modRsg f).pwr = s.pwr := rfl
@[simp] theorem State.modRsg_hif (s : State) (f : Rsg → Rsg) : (s.modRsg f).hif = s.hif := rfl
@[simp] theorem State.modRsg_jobs (s : State) (f : Rsg → Rsg) : (s.modRsg f).jobs = s.jobs := rfl
@[simp] theorem State.modRsg_answers (s : State) (f : Rsg → Rsg) : (s.modRsg f).answers = s.answers := rfl
@[simp] theorem State.modRsg_pcie (s : State) (f : Rsg → Rsg) : (s.modRsg f).pcie = s.pcie := rfl
@[simp] theorem State.modRsg_pins (s : State) (f : Rsg → Rsg) : (s.modRsg f).pins = s.pins := rfl
@[simp] theorem State.modRsg_otp (s : State) (f : Rsg → Rsg) : (s.modRsg f).otp = s.otp := rfl
@[simp] theorem State.modRsg_freeCtr (s : State) (f : Rsg → Rsg) : (s.modRsg f).freeCtr = s.freeCtr := rfl
@[simp] theorem State.modRsg_now (s : State) (f : Rsg → Rsg) : (s.modRsg f).now = s.now := rfl
@[simp] theorem State.modRsg_pending (s : State) (f : Rsg → Rsg) : (s.modRsg f).pending = s.pending := rfl

/-! modCue -/

@[simp] theorem State.modCue_regs (s : State) (f : CueEng → CueEng) : (s.modCue f).regs = s.regs := rfl
@[simp] theorem State.modCue_replies (s : State) (f : CueEng → CueEng) : (s.modCue f).replies = s.replies := rfl
@[simp] theorem State.modCue_fences (s : State) (f : CueEng → CueEng) : (s.modCue f).fences = s.fences := rfl
@[simp] theorem State.modCue_wide (s : State) (f : CueEng → CueEng) : (s.modCue f).wide = s.wide := rfl
@[simp] theorem State.modCue_balls (s : State) (f : CueEng → CueEng) : (s.modCue f).balls = s.balls := rfl
@[simp] theorem State.modCue_evc (s : State) (f : CueEng → CueEng) : (s.modCue f).evc = s.evc := rfl
@[simp] theorem State.modCue_hearths (s : State) (f : CueEng → CueEng) : (s.modCue f).hearths = s.hearths := rfl
@[simp] theorem State.modCue_flue (s : State) (f : CueEng → CueEng) : (s.modCue f).flue = s.flue := rfl
@[simp] theorem State.modCue_rallyCount (s : State) (f : CueEng → CueEng) : (s.modCue f).rallyCount = s.rallyCount := rfl
@[simp] theorem State.modCue_rsg (s : State) (f : CueEng → CueEng) : (s.modCue f).rsg = s.rsg := rfl
@[simp] theorem State.modCue_tsu (s : State) (f : CueEng → CueEng) : (s.modCue f).tsu = s.tsu := rfl
@[simp] theorem State.modCue_mantel (s : State) (f : CueEng → CueEng) : (s.modCue f).mantel = s.mantel := rfl
@[simp] theorem State.modCue_flips (s : State) (f : CueEng → CueEng) : (s.modCue f).flips = s.flips := rfl
@[simp] theorem State.modCue_scrub (s : State) (f : CueEng → CueEng) : (s.modCue f).scrub = s.scrub := rfl
@[simp] theorem State.modCue_ports (s : State) (f : CueEng → CueEng) : (s.modCue f).ports = s.ports := rfl
@[simp] theorem State.modCue_net (s : State) (f : CueEng → CueEng) : (s.modCue f).net = s.net := rfl
@[simp] theorem State.modCue_chm (s : State) (f : CueEng → CueEng) : (s.modCue f).chm = s.chm := rfl
@[simp] theorem State.modCue_dmp (s : State) (f : CueEng → CueEng) : (s.modCue f).dmp = s.dmp := rfl
@[simp] theorem State.modCue_mif (s : State) (f : CueEng → CueEng) : (s.modCue f).mif = s.mif := rfl
@[simp] theorem State.modCue_bel (s : State) (f : CueEng → CueEng) : (s.modCue f).bel = s.bel := rfl
@[simp] theorem State.modCue_skp (s : State) (f : CueEng → CueEng) : (s.modCue f).skp = s.skp := rfl
@[simp] theorem State.modCue_pwr (s : State) (f : CueEng → CueEng) : (s.modCue f).pwr = s.pwr := rfl
@[simp] theorem State.modCue_hif (s : State) (f : CueEng → CueEng) : (s.modCue f).hif = s.hif := rfl
@[simp] theorem State.modCue_jobs (s : State) (f : CueEng → CueEng) : (s.modCue f).jobs = s.jobs := rfl
@[simp] theorem State.modCue_answers (s : State) (f : CueEng → CueEng) : (s.modCue f).answers = s.answers := rfl
@[simp] theorem State.modCue_pcie (s : State) (f : CueEng → CueEng) : (s.modCue f).pcie = s.pcie := rfl
@[simp] theorem State.modCue_pins (s : State) (f : CueEng → CueEng) : (s.modCue f).pins = s.pins := rfl
@[simp] theorem State.modCue_otp (s : State) (f : CueEng → CueEng) : (s.modCue f).otp = s.otp := rfl
@[simp] theorem State.modCue_freeCtr (s : State) (f : CueEng → CueEng) : (s.modCue f).freeCtr = s.freeCtr := rfl
@[simp] theorem State.modCue_now (s : State) (f : CueEng → CueEng) : (s.modCue f).now = s.now := rfl
@[simp] theorem State.modCue_pending (s : State) (f : CueEng → CueEng) : (s.modCue f).pending = s.pending := rfl

/-! setBall -/

@[simp] theorem State.setBall_regs (s : State) (b : Nat) (v : Ball) : (s.setBall b v).regs = s.regs := rfl
@[simp] theorem State.setBall_replies (s : State) (b : Nat) (v : Ball) : (s.setBall b v).replies = s.replies := rfl
@[simp] theorem State.setBall_fences (s : State) (b : Nat) (v : Ball) : (s.setBall b v).fences = s.fences := rfl
@[simp] theorem State.setBall_wide (s : State) (b : Nat) (v : Ball) : (s.setBall b v).wide = s.wide := rfl
@[simp] theorem State.setBall_evc (s : State) (b : Nat) (v : Ball) : (s.setBall b v).evc = s.evc := rfl
@[simp] theorem State.setBall_hearths (s : State) (b : Nat) (v : Ball) : (s.setBall b v).hearths = s.hearths := rfl
@[simp] theorem State.setBall_flue (s : State) (b : Nat) (v : Ball) : (s.setBall b v).flue = s.flue := rfl
@[simp] theorem State.setBall_rallyCount (s : State) (b : Nat) (v : Ball) : (s.setBall b v).rallyCount = s.rallyCount := rfl
@[simp] theorem State.setBall_rsg (s : State) (b : Nat) (v : Ball) : (s.setBall b v).rsg = s.rsg := rfl
@[simp] theorem State.setBall_tsu (s : State) (b : Nat) (v : Ball) : (s.setBall b v).tsu = s.tsu := rfl
@[simp] theorem State.setBall_mantel (s : State) (b : Nat) (v : Ball) : (s.setBall b v).mantel = s.mantel := rfl
@[simp] theorem State.setBall_flips (s : State) (b : Nat) (v : Ball) : (s.setBall b v).flips = s.flips := rfl
@[simp] theorem State.setBall_scrub (s : State) (b : Nat) (v : Ball) : (s.setBall b v).scrub = s.scrub := rfl
@[simp] theorem State.setBall_ports (s : State) (b : Nat) (v : Ball) : (s.setBall b v).ports = s.ports := rfl
@[simp] theorem State.setBall_net (s : State) (b : Nat) (v : Ball) : (s.setBall b v).net = s.net := rfl
@[simp] theorem State.setBall_chm (s : State) (b : Nat) (v : Ball) : (s.setBall b v).chm = s.chm := rfl
@[simp] theorem State.setBall_dmp (s : State) (b : Nat) (v : Ball) : (s.setBall b v).dmp = s.dmp := rfl
@[simp] theorem State.setBall_mif (s : State) (b : Nat) (v : Ball) : (s.setBall b v).mif = s.mif := rfl
@[simp] theorem State.setBall_cue (s : State) (b : Nat) (v : Ball) : (s.setBall b v).cue = s.cue := rfl
@[simp] theorem State.setBall_bel (s : State) (b : Nat) (v : Ball) : (s.setBall b v).bel = s.bel := rfl
@[simp] theorem State.setBall_skp (s : State) (b : Nat) (v : Ball) : (s.setBall b v).skp = s.skp := rfl
@[simp] theorem State.setBall_pwr (s : State) (b : Nat) (v : Ball) : (s.setBall b v).pwr = s.pwr := rfl
@[simp] theorem State.setBall_hif (s : State) (b : Nat) (v : Ball) : (s.setBall b v).hif = s.hif := rfl
@[simp] theorem State.setBall_jobs (s : State) (b : Nat) (v : Ball) : (s.setBall b v).jobs = s.jobs := rfl
@[simp] theorem State.setBall_answers (s : State) (b : Nat) (v : Ball) : (s.setBall b v).answers = s.answers := rfl
@[simp] theorem State.setBall_pcie (s : State) (b : Nat) (v : Ball) : (s.setBall b v).pcie = s.pcie := rfl
@[simp] theorem State.setBall_pins (s : State) (b : Nat) (v : Ball) : (s.setBall b v).pins = s.pins := rfl
@[simp] theorem State.setBall_otp (s : State) (b : Nat) (v : Ball) : (s.setBall b v).otp = s.otp := rfl
@[simp] theorem State.setBall_freeCtr (s : State) (b : Nat) (v : Ball) : (s.setBall b v).freeCtr = s.freeCtr := rfl
@[simp] theorem State.setBall_now (s : State) (b : Nat) (v : Ball) : (s.setBall b v).now = s.now := rfl
@[simp] theorem State.setBall_pending (s : State) (b : Nat) (v : Ball) : (s.setBall b v).pending = s.pending := rfl

/-! setPort -/

@[simp] theorem State.setPort_regs (s : State) (k : Nat) (p : Port) : (s.setPort k p).regs = s.regs := rfl
@[simp] theorem State.setPort_replies (s : State) (k : Nat) (p : Port) : (s.setPort k p).replies = s.replies := rfl
@[simp] theorem State.setPort_fences (s : State) (k : Nat) (p : Port) : (s.setPort k p).fences = s.fences := rfl
@[simp] theorem State.setPort_wide (s : State) (k : Nat) (p : Port) : (s.setPort k p).wide = s.wide := rfl
@[simp] theorem State.setPort_balls (s : State) (k : Nat) (p : Port) : (s.setPort k p).balls = s.balls := rfl
@[simp] theorem State.setPort_evc (s : State) (k : Nat) (p : Port) : (s.setPort k p).evc = s.evc := rfl
@[simp] theorem State.setPort_hearths (s : State) (k : Nat) (p : Port) : (s.setPort k p).hearths = s.hearths := rfl
@[simp] theorem State.setPort_flue (s : State) (k : Nat) (p : Port) : (s.setPort k p).flue = s.flue := rfl
@[simp] theorem State.setPort_rallyCount (s : State) (k : Nat) (p : Port) : (s.setPort k p).rallyCount = s.rallyCount := rfl
@[simp] theorem State.setPort_rsg (s : State) (k : Nat) (p : Port) : (s.setPort k p).rsg = s.rsg := rfl
@[simp] theorem State.setPort_tsu (s : State) (k : Nat) (p : Port) : (s.setPort k p).tsu = s.tsu := rfl
@[simp] theorem State.setPort_mantel (s : State) (k : Nat) (p : Port) : (s.setPort k p).mantel = s.mantel := rfl
@[simp] theorem State.setPort_flips (s : State) (k : Nat) (p : Port) : (s.setPort k p).flips = s.flips := rfl
@[simp] theorem State.setPort_scrub (s : State) (k : Nat) (p : Port) : (s.setPort k p).scrub = s.scrub := rfl
@[simp] theorem State.setPort_net (s : State) (k : Nat) (p : Port) : (s.setPort k p).net = s.net := rfl
@[simp] theorem State.setPort_chm (s : State) (k : Nat) (p : Port) : (s.setPort k p).chm = s.chm := rfl
@[simp] theorem State.setPort_dmp (s : State) (k : Nat) (p : Port) : (s.setPort k p).dmp = s.dmp := rfl
@[simp] theorem State.setPort_mif (s : State) (k : Nat) (p : Port) : (s.setPort k p).mif = s.mif := rfl
@[simp] theorem State.setPort_cue (s : State) (k : Nat) (p : Port) : (s.setPort k p).cue = s.cue := rfl
@[simp] theorem State.setPort_bel (s : State) (k : Nat) (p : Port) : (s.setPort k p).bel = s.bel := rfl
@[simp] theorem State.setPort_skp (s : State) (k : Nat) (p : Port) : (s.setPort k p).skp = s.skp := rfl
@[simp] theorem State.setPort_pwr (s : State) (k : Nat) (p : Port) : (s.setPort k p).pwr = s.pwr := rfl
@[simp] theorem State.setPort_hif (s : State) (k : Nat) (p : Port) : (s.setPort k p).hif = s.hif := rfl
@[simp] theorem State.setPort_jobs (s : State) (k : Nat) (p : Port) : (s.setPort k p).jobs = s.jobs := rfl
@[simp] theorem State.setPort_answers (s : State) (k : Nat) (p : Port) : (s.setPort k p).answers = s.answers := rfl
@[simp] theorem State.setPort_pcie (s : State) (k : Nat) (p : Port) : (s.setPort k p).pcie = s.pcie := rfl
@[simp] theorem State.setPort_pins (s : State) (k : Nat) (p : Port) : (s.setPort k p).pins = s.pins := rfl
@[simp] theorem State.setPort_otp (s : State) (k : Nat) (p : Port) : (s.setPort k p).otp = s.otp := rfl
@[simp] theorem State.setPort_freeCtr (s : State) (k : Nat) (p : Port) : (s.setPort k p).freeCtr = s.freeCtr := rfl
@[simp] theorem State.setPort_now (s : State) (k : Nat) (p : Port) : (s.setPort k p).now = s.now := rfl
@[simp] theorem State.setPort_pending (s : State) (k : Nat) (p : Port) : (s.setPort k p).pending = s.pending := rfl

/-! setFlips -/

@[simp] theorem State.setFlips_regs (s : State) (w m : Nat) : (s.setFlips w m).regs = s.regs := rfl
@[simp] theorem State.setFlips_replies (s : State) (w m : Nat) : (s.setFlips w m).replies = s.replies := rfl
@[simp] theorem State.setFlips_fences (s : State) (w m : Nat) : (s.setFlips w m).fences = s.fences := rfl
@[simp] theorem State.setFlips_wide (s : State) (w m : Nat) : (s.setFlips w m).wide = s.wide := rfl
@[simp] theorem State.setFlips_balls (s : State) (w m : Nat) : (s.setFlips w m).balls = s.balls := rfl
@[simp] theorem State.setFlips_evc (s : State) (w m : Nat) : (s.setFlips w m).evc = s.evc := rfl
@[simp] theorem State.setFlips_hearths (s : State) (w m : Nat) : (s.setFlips w m).hearths = s.hearths := rfl
@[simp] theorem State.setFlips_flue (s : State) (w m : Nat) : (s.setFlips w m).flue = s.flue := rfl
@[simp] theorem State.setFlips_rallyCount (s : State) (w m : Nat) : (s.setFlips w m).rallyCount = s.rallyCount := rfl
@[simp] theorem State.setFlips_rsg (s : State) (w m : Nat) : (s.setFlips w m).rsg = s.rsg := rfl
@[simp] theorem State.setFlips_tsu (s : State) (w m : Nat) : (s.setFlips w m).tsu = s.tsu := rfl
@[simp] theorem State.setFlips_mantel (s : State) (w m : Nat) : (s.setFlips w m).mantel = s.mantel := rfl
@[simp] theorem State.setFlips_scrub (s : State) (w m : Nat) : (s.setFlips w m).scrub = s.scrub := rfl
@[simp] theorem State.setFlips_ports (s : State) (w m : Nat) : (s.setFlips w m).ports = s.ports := rfl
@[simp] theorem State.setFlips_net (s : State) (w m : Nat) : (s.setFlips w m).net = s.net := rfl
@[simp] theorem State.setFlips_chm (s : State) (w m : Nat) : (s.setFlips w m).chm = s.chm := rfl
@[simp] theorem State.setFlips_dmp (s : State) (w m : Nat) : (s.setFlips w m).dmp = s.dmp := rfl
@[simp] theorem State.setFlips_mif (s : State) (w m : Nat) : (s.setFlips w m).mif = s.mif := rfl
@[simp] theorem State.setFlips_cue (s : State) (w m : Nat) : (s.setFlips w m).cue = s.cue := rfl
@[simp] theorem State.setFlips_bel (s : State) (w m : Nat) : (s.setFlips w m).bel = s.bel := rfl
@[simp] theorem State.setFlips_skp (s : State) (w m : Nat) : (s.setFlips w m).skp = s.skp := rfl
@[simp] theorem State.setFlips_pwr (s : State) (w m : Nat) : (s.setFlips w m).pwr = s.pwr := rfl
@[simp] theorem State.setFlips_hif (s : State) (w m : Nat) : (s.setFlips w m).hif = s.hif := rfl
@[simp] theorem State.setFlips_jobs (s : State) (w m : Nat) : (s.setFlips w m).jobs = s.jobs := rfl
@[simp] theorem State.setFlips_answers (s : State) (w m : Nat) : (s.setFlips w m).answers = s.answers := rfl
@[simp] theorem State.setFlips_pcie (s : State) (w m : Nat) : (s.setFlips w m).pcie = s.pcie := rfl
@[simp] theorem State.setFlips_pins (s : State) (w m : Nat) : (s.setFlips w m).pins = s.pins := rfl
@[simp] theorem State.setFlips_otp (s : State) (w m : Nat) : (s.setFlips w m).otp = s.otp := rfl
@[simp] theorem State.setFlips_freeCtr (s : State) (w m : Nat) : (s.setFlips w m).freeCtr = s.freeCtr := rfl
@[simp] theorem State.setFlips_now (s : State) (w m : Nat) : (s.setFlips w m).now = s.now := rfl
@[simp] theorem State.setFlips_pending (s : State) (w m : Nat) : (s.setFlips w m).pending = s.pending := rfl

/-! settle -/

@[simp] theorem State.settle_regs (s : State) (t : State) : (s.settle t).regs = t.regs := rfl
@[simp] theorem State.settle_replies (s : State) (t : State) : (s.settle t).replies = t.replies := rfl
@[simp] theorem State.settle_fences (s : State) (t : State) : (s.settle t).fences = t.fences := rfl
@[simp] theorem State.settle_wide (s : State) (t : State) : (s.settle t).wide = t.wide := rfl
@[simp] theorem State.settle_balls (s : State) (t : State) : (s.settle t).balls = t.balls := rfl
@[simp] theorem State.settle_hearths (s : State) (t : State) : (s.settle t).hearths = t.hearths := rfl
@[simp] theorem State.settle_flue (s : State) (t : State) : (s.settle t).flue = t.flue := rfl
@[simp] theorem State.settle_rallyCount (s : State) (t : State) : (s.settle t).rallyCount = t.rallyCount := rfl
@[simp] theorem State.settle_rsg (s : State) (t : State) : (s.settle t).rsg = t.rsg := rfl
@[simp] theorem State.settle_tsu (s : State) (t : State) : (s.settle t).tsu = t.tsu := rfl
@[simp] theorem State.settle_mantel (s : State) (t : State) : (s.settle t).mantel = t.mantel := rfl
@[simp] theorem State.settle_flips (s : State) (t : State) : (s.settle t).flips = t.flips := rfl
@[simp] theorem State.settle_scrub (s : State) (t : State) : (s.settle t).scrub = t.scrub := rfl
@[simp] theorem State.settle_ports (s : State) (t : State) : (s.settle t).ports = t.ports := rfl
@[simp] theorem State.settle_net (s : State) (t : State) : (s.settle t).net = t.net := rfl
@[simp] theorem State.settle_chm (s : State) (t : State) : (s.settle t).chm = t.chm := rfl
@[simp] theorem State.settle_dmp (s : State) (t : State) : (s.settle t).dmp = t.dmp := rfl
@[simp] theorem State.settle_mif (s : State) (t : State) : (s.settle t).mif = t.mif := rfl
@[simp] theorem State.settle_cue (s : State) (t : State) : (s.settle t).cue = t.cue := rfl
@[simp] theorem State.settle_bel (s : State) (t : State) : (s.settle t).bel = t.bel := rfl
@[simp] theorem State.settle_skp (s : State) (t : State) : (s.settle t).skp = t.skp := rfl
@[simp] theorem State.settle_pwr (s : State) (t : State) : (s.settle t).pwr = t.pwr := rfl
@[simp] theorem State.settle_hif (s : State) (t : State) : (s.settle t).hif = t.hif := rfl
@[simp] theorem State.settle_jobs (s : State) (t : State) : (s.settle t).jobs = t.jobs := rfl
@[simp] theorem State.settle_answers (s : State) (t : State) : (s.settle t).answers = t.answers := rfl
@[simp] theorem State.settle_pcie (s : State) (t : State) : (s.settle t).pcie = t.pcie := rfl
@[simp] theorem State.settle_pins (s : State) (t : State) : (s.settle t).pins = t.pins := rfl
@[simp] theorem State.settle_freeCtr (s : State) (t : State) : (s.settle t).freeCtr = t.freeCtr := rfl
@[simp] theorem State.settle_now (s : State) (t : State) : (s.settle t).now = t.now := rfl

@[simp] theorem State.settle_pending (s t : State) : (s.settle t).pending = s.pending := rfl
@[simp] theorem State.settle_otp (s t : State) : (s.settle t).otp = s.otp := rfl

end Sys2Proof.Machine
end

