-- ==== Sys2Proof/Laws/Tab.lean ====
section
/-! SUPPORT. The laws of tables: a read after a write, and that every write keeps the canonical form. -/

namespace Sys2Proof.Machine

theorem tabGet_erase_same {α : Type} (d : Nat → α) (t : Tab α) (k : Nat) :
    tabGet d (tabErase t k) k = d k := by
  induction t with
  | nil => rfl
  | cons p t ih =>
    obtain ⟨a, v⟩ := p
    by_cases h : k = a
    · simp only [tabErase, if_pos h]; exact ih
    · simp only [tabErase, if_neg h, tabGet]; exact ih

theorem tabGet_erase_other {α : Type} (d : Nat → α) (t : Tab α) (k j : Nat) (h : j ≠ k) :
    tabGet d (tabErase t k) j = tabGet d t j := by
  induction t with
  | nil => rfl
  | cons p t ih =>
    obtain ⟨a, v⟩ := p
    by_cases hk : k = a
    · subst hk; simp [tabErase, tabGet, h, ih]
    · by_cases hj : j = a
      · simp [tabErase, tabGet, hk, hj]
      · simp [tabErase, tabGet, hk, hj, ih]

theorem tabGet_put_same {α : Type} (d : Nat → α) (t : Tab α) (k : Nat) (v : α) :
    tabGet d (tabPut t k v) k = v := by
  induction t with
  | nil => simp [tabPut, tabGet]
  | cons p t ih =>
    obtain ⟨a, w⟩ := p
    unfold tabPut
    split
    · simp [tabGet]
    · split
      · simp [tabGet]
      · rename_i h1 h2; simp [tabGet, h2, ih]

theorem tabGet_put_other {α : Type} (d : Nat → α) (t : Tab α) (k j : Nat) (v : α) (h : j ≠ k) :
    tabGet d (tabPut t k v) j = tabGet d t j := by
  induction t with
  | nil => simp [tabPut, tabGet, h]
  | cons p t ih =>
    obtain ⟨a, w⟩ := p
    unfold tabPut
    split
    · simp [tabGet, h]
    · split
      · rename_i h1 h2; subst h2; simp [tabGet, h]
      · simp [tabGet, ih]

variable {α : Type} [DecidableEq α]

/-- A read after a write to the same key gives the value written. -/
@[simp] theorem tabGet_set_same (d : Nat → α) (t : Tab α) (k : Nat) (v : α) :
    tabGet d (tabSet d t k v) k = v := by
  unfold tabSet; split
  · rename_i h; rw [tabGet_erase_same, h]
  · exact tabGet_put_same d t k v

/-- A write leaves every other key alone. -/
theorem tabGet_set_other (d : Nat → α) (t : Tab α) (k j : Nat) (v : α) (h : j ≠ k) :
    tabGet d (tabSet d t k v) j = tabGet d t j := by
  unfold tabSet; split
  · exact tabGet_erase_other d t k j h
  · exact tabGet_put_other d t k j v h

/-- Both laws in one. -/
theorem tabGet_set (d : Nat → α) (t : Tab α) (k j : Nat) (v : α) :
    tabGet d (tabSet d t k v) j = if j = k then v else tabGet d t j := by
  by_cases h : j = k
  · subst h; simp
  · simp [h, tabGet_set_other d t k j v h]

omit [DecidableEq α] in
theorem tabRising_mono {t : Tab α} {b c : Nat} (hb : c ≤ b) (h : tabRising b t = true) :
    tabRising c t = true := by
  cases t with
  | nil => rfl
  | cons p t =>
    simp only [tabRising, Bool.and_eq_true, decide_eq_true_eq] at h ⊢
    exact ⟨Nat.le_trans hb h.1, h.2⟩

omit [DecidableEq α] in
theorem tabRising_erase (t : Tab α) (k b : Nat) (h : tabRising b t = true) :
    tabRising b (tabErase t k) = true := by
  induction t generalizing b with
  | nil => rfl
  | cons p t ih =>
    obtain ⟨a, v⟩ := p
    simp [tabRising] at h
    unfold tabErase; split
    · exact tabRising_mono (by omega) (ih (a + 1) h.2)
    · simp [tabRising, h.1, ih (a + 1) h.2]

omit [DecidableEq α] in
theorem tabRising_put (t : Tab α) (k b : Nat) (v : α) (hb : b ≤ k) (h : tabRising b t = true) :
    tabRising b (tabPut t k v) = true := by
  induction t generalizing b with
  | nil => simp [tabPut, tabRising, hb]
  | cons p t ih =>
    obtain ⟨a, w⟩ := p
    simp [tabRising] at h
    unfold tabPut; split
    · rename_i hk; simp [tabRising, hb, h.2]; omega
    · split
      · rename_i h1 h2; subst h2; simp [tabRising, hb, h.2]
      · rename_i h1 h2; simp [tabRising, h.1]; exact ih (a + 1) (by omega) h.2

/-- Every write keeps the canonical form. -/
theorem tabWf_set (d : Nat → α) (t : Tab α) (k : Nat) (v : α) (h : tabWf d t = true) :
    tabWf d (tabSet d t k v) = true := by
  simp only [tabWf, Bool.and_eq_true, List.all_eq_true, decide_eq_true_eq] at h ⊢
  unfold tabSet; split
  · refine ⟨tabRising_erase t k 0 h.1, ?_⟩
    have mem : ∀ (t : Tab α), ∀ p ∈ tabErase t k, p ∈ t := by
      intro t; induction t with
      | nil => simp [tabErase]
      | cons q t ih =>
        intro p hp; unfold tabErase at hp; split at hp
        · exact List.mem_cons_of_mem _ (ih p hp)
        · rcases List.mem_cons.1 hp with rfl | hp
          · exact List.mem_cons_self
          · exact List.mem_cons_of_mem _ (ih p hp)
    exact fun p hp => h.2 p (mem t p hp)
  · rename_i hv
    refine ⟨tabRising_put t k 0 v (Nat.zero_le _) h.1, ?_⟩
    have mem : ∀ (t : Tab α), ∀ p ∈ tabPut t k v, p = (k, v) ∨ p ∈ t := by
      intro t; induction t with
      | nil => simp [tabPut]
      | cons q t ih =>
        intro p hp; unfold tabPut at hp; split at hp
        · rcases List.mem_cons.1 hp with rfl | hp
          · exact .inl rfl
          · exact .inr hp
        · split at hp
          · rcases List.mem_cons.1 hp with rfl | hp
            · exact .inl rfl
            · exact .inr (List.mem_cons_of_mem _ hp)
          · rcases List.mem_cons.1 hp with rfl | hp
            · exact .inr List.mem_cons_self
            · rcases ih p hp with h | h
              · exact .inl h
              · exact .inr (List.mem_cons_of_mem _ h)
    intro p hp
    rcases mem t p hp with rfl | hp
    · exact hv
    · exact h.2 p hp

/-- A change of every listed value, read at a key: f acts there, if it leaves the default at keys that are not listed. -/
theorem tabGet_map (d : Nat → α) (f : Nat → α → α) (t : Tab α) (j : Nat) (hf : f j (d j) = d j) :
    tabGet d (tabMap d f t) j = f j (tabGet d t j) := by
  have key : ∀ (l : Tab α) (acc : Tab α),
      tabGet d (l.foldl (fun acc e => tabSet d acc e.1 (f e.1 (tabGet d t e.1))) acc) j =
        if j ∈ l.map (·.1) then f j (tabGet d t j) else tabGet d acc j := by
    intro l
    induction l with
    | nil => intro acc; simp
    | cons p l ih =>
      intro acc
      rw [List.foldl_cons, ih, tabGet_set]
      by_cases h1 : j ∈ l.map (·.1)
      · simp [h1]
      · by_cases h2 : j = p.1
        · subst h2; simp [h1]
        · simp [h1, h2]
  unfold tabMap
  rw [key]
  split
  · rfl
  · rename_i h
    have hd : tabGet d t j = d j := by
      clear key
      induction t with
      | nil => rfl
      | cons p t ih =>
        simp only [List.map_cons, List.mem_cons, not_or] at h
        obtain ⟨a, v⟩ := p
        simp only [tabGet, if_neg h.1]
        exact ih h.2
    rw [hd, hf]

/-- A change of every listed value keeps the canonical form. -/
theorem tabWf_map (d : Nat → α) (f : Nat → α → α) (t : Tab α) (h : tabWf d t = true) :
    tabWf d (tabMap d f t) = true := by
  have key : ∀ (l : Tab α) (acc : Tab α), tabWf d acc = true →
      tabWf d (l.foldl (fun acc e => tabSet d acc e.1 (f e.1 (tabGet d t e.1))) acc) = true := by
    intro l
    induction l with
    | nil => intro acc ha; exact ha
    | cons p l ih => intro acc ha; exact ih _ (tabWf_set d acc _ _ ha)
  exact key t t h

end Sys2Proof.Machine
end

