-- ==== Sys2Proof/Laws/Ops.lean ====
section
/-! SUPPORT. What the shared operations on registers, Hearths and accesses do, said once for each. -/

namespace Sys2Proof.Machine

/-! ### Registers -/

theorem State.setReg_reg (s : State) (a b : Nat) (v : Word) : (s.setReg a v).reg b = if b = a then v else s.reg b := by
  simp [State.reg, State.setReg, tabGet_set]

@[simp] theorem State.setReg_reg_same (s : State) (a : Nat) (v : Word) : (s.setReg a v).reg a = v := by
  simp [State.setReg_reg]

theorem State.setReg_reg_other (s : State) {a b : Nat} (v : Word) (h : b ≠ a) : (s.setReg a v).reg b = s.reg b := by
  simp [State.setReg_reg, h]

/-- A field write is a register write. -/
theorem State.setFld_eq (s : State) (a : Nat) (f : Fld) (v : Nat) : s.setFld a f v = s.setReg a (f.set (s.reg a) v) := rfl

theorem State.bump_eq (s : State) (a : Nat) (f : Fld) : s.bump a f = s.bumpBy a f 1 := rfl

theorem State.bumpBy_eq (s : State) (a : Nat) (f : Fld) (n : Nat) :
    s.bumpBy a f n = s.setFld a f (min (s.fld a f + n) (2 ^ (f.hi + 1 - f.lo) - 1)) := rfl

@[simp] theorem State.settle_reg (s t : State) (a : Nat) : (s.settle t).reg a = t.reg a := rfl

@[simp] theorem State.settle_fld (s t : State) (a : Nat) (f : Fld) : (s.settle t).fld a f = t.fld a f := rfl

@[simp] theorem State.settle_bit (s t : State) (a : Nat) (f : Fld) : (s.settle t).bit a f = t.bit a f := rfl

/-! ### Hearths -/

theorem State.setHearth_hearth (s : State) (n m : Nat) (h : Hearth) :
    (s.setHearth n h).hearth m = if m = n then h else s.hearth m := by
  simp [State.hearth, State.setHearth, tabGet_set]

@[simp] theorem State.setHearth_hearth_same (s : State) (n : Nat) (h : Hearth) : (s.setHearth n h).hearth n = h := by
  simp [State.setHearth_hearth]

@[simp] theorem State.modHearth_hearth_same (s : State) (n : Nat) (f : Hearth → Hearth) :
    (s.modHearth n f).hearth n = f (s.hearth n) := by
  simp [State.modHearth]

theorem State.modHearth_hearth_other (s : State) {n m : Nat} (f : Hearth → Hearth) (h : m ≠ n) :
    (s.modHearth n f).hearth m = s.hearth m := by
  simp [State.modHearth, State.setHearth_hearth, h]

@[simp] theorem State.modHearth_reg (s : State) (n a : Nat) (f : Hearth → Hearth) : (s.modHearth n f).reg a = s.reg a := rfl

@[simp] theorem State.modHearth_fld (s : State) (n a : Nat) (f : Hearth → Hearth) (d : Fld) :
    (s.modHearth n f).fld a d = s.fld a d := rfl

@[simp] theorem State.modHearth_bit (s : State) (n a : Nat) (f : Hearth → Hearth) (d : Fld) :
    (s.modHearth n f).bit a d = s.bit a d := rfl

@[simp] theorem State.setHearth_reg (s : State) (n a : Nat) (h : Hearth) : (s.setHearth n h).reg a = s.reg a := rfl

@[simp] theorem State.setReg_hearth (s : State) (a n : Nat) (v : Word) : (s.setReg a v).hearth n = s.hearth n := rfl

@[simp] theorem State.settle_hearth (s t : State) (n : Nat) : (s.settle t).hearth n = t.hearth n := rfl

/-! ### Accesses -/

/-- A master that has nothing waiting and reaches a register, that is neither held nor a fence, need not wait (R59, R60, R327). -/
theorem State.waitsTurn_free (s : State) {m : Nat} {x : Access} (hj : s.jobs = []) (hr : s.ramOpen = true)
    (hf : x.addr ≠ SYS_FENCE ∨ x.write ≠ none ∨ s.inFlight m = false) : s.waitsTurn m x = false := by
  rcases hf with h | h | h <;> simp [State.waitsTurn, State.mustWait, hj, hr, h]

/-- A master's last reply. -/
@[simp] theorem State.complete_reply (s : State) (m a : Nat) (sz : AccSize) (w : Bool) (r : Reply) :
    tabGet replyDefault (s.complete m a sz w r).replies m = ⟨r.resp, if respErr r.resp then 0 else r.data⟩ := by
  simp [State.complete]

/-- An access that completes without an error leaves everything but the reply. -/
theorem State.complete_ok (s : State) (m a : Nat) (sz : AccSize) (w : Bool) (d : BitVec 64) :
    s.complete m a sz w ⟨.ok, d⟩ = { s with replies := tabSet replyDefault s.replies m ⟨.ok, d⟩ } := by
  simp [State.complete, State.logViolation, State.noteWriteError, respErr]

/-- A supervisor master reaches every register at an aligned mapped address outside the Mantel and the tile RAMs (R45, R559). -/
theorem State.accessCheck_sup (s : State) {m a : Nat} (w : Bool) (hm : mapped a = true) (hs : s.isSup m = true)
    (hf : formOk a .b32 = true) : s.accessCheck m a .b32 w = .ok := by
  simp [State.accessCheck, State.hasRight, hm, hs, hf]

/-- A write that the checks pass and the target accepts. -/
theorem State.writeReg_accept (s : State) {m a : Nat} {v : Word} {eff : WriteEff} {s' : State}
    (hw : s.waitsTurn m ⟨a, .b32, some (v.zeroExtend 64), true⟩ = false)
    (hc : s.accessCheck m a .b32 true = .ok) (he : eff s = (.ok, s')) :
    s.writeReg m a v eff = { s' with replies := tabSet replyDefault s'.replies m ⟨.ok, 0⟩ } := by
  simp [State.writeReg, hw, hc, he, State.complete_ok]

/-- A write that the target refuses changes nothing of it (R47). -/
theorem State.writeReg_refuse (s : State) {m a : Nat} {v : Word} {eff : WriteEff} {s' : State} {r : Resp}
    (hw : s.waitsTurn m ⟨a, .b32, some (v.zeroExtend 64), true⟩ = false)
    (hc : s.accessCheck m a .b32 true = .ok) (he : eff s = (r, s')) (hr : r ≠ .ok) :
    s.writeReg m a v eff = s.complete m a .b32 true ⟨r, 0⟩ := by
  unfold State.writeReg
  simp only [hw, hc, he]
  rfl

/-- A write that fails a check (R559). -/
theorem State.writeReg_denied (s : State) {m a : Nat} {v : Word} {eff : WriteEff} {r : Resp}
    (hw : s.waitsTurn m ⟨a, .b32, some (v.zeroExtend 64), true⟩ = false)
    (hc : s.accessCheck m a .b32 true = r) (hr : r ≠ .ok) : s.writeReg m a v eff = s.complete m a .b32 true ⟨r, 0⟩ := by
  unfold State.writeReg
  simp only [hw, hc]
  rfl

/-- A read that the checks pass and the target answers. -/
theorem State.readReg_ok (s : State) {m a : Nat} {eff : State → Resp × Word × State} {v : Word} {s' : State}
    (hw : s.waitsTurn m ⟨a, .b32, none, true⟩ = false) (hc : s.accessCheck m a .b32 false = .ok) (he : eff s = (.ok, v, s')) :
    s.readReg m a eff = { s' with replies := tabSet replyDefault s'.replies m ⟨.ok, v.zeroExtend 64⟩ } := by
  simp [State.readReg, hw, hc, he, State.complete_ok]

end Sys2Proof.Machine
end

