-- ==== Sys2Proof/Laws/Run.lean ====
section
/-! SUPPORT. What the frames of the meanings answer: always a next state, with the queue as it was. -/

namespace Sys2Proof.Machine

theorem State.run_awake (s : State) (f : State → State) (h : s.awake = true) : s.run f = .next (s.settle (f s)) := by
  simp [State.run, h]

theorem State.run_asleep (s : State) (f : State → State) (h : s.awake = false) : s.run f = .next s := by
  simp [State.run, h]

theorem State.runXo_awake (s : State) (f : State → State) (h : s.awake = true) (hx : s.pwr.xoLost = false) :
    s.runXo f = .next (s.settle (f s)) := by
  simp [State.runXo, State.run, h, hx]

theorem State.runKey_awake (s : State) (f : State → State) (h : s.awake = true) (hx : s.pwr.xoLost = false)
    (hk : s.pwr.hold = false) : s.runKey f = .next (s.settle (f s)) := by
  simp [State.runKey, State.runXo, State.run, h, hx, hk]

theorem State.runLit_awake (s : State) (f : State → State) (h : s.awake = true) (hx : s.pwr.xoLost = false)
    (hl : s.inLight = false) : s.runLit f = .next (s.settle (f s)) := by
  simp [State.runLit, State.runXo, State.run, h, hx, hl]

theorem State.runAon_awake (s : State) (f : State → State) (h : s.awake = true) :
    s.runAon f = .next (s.settle (f s)) := by
  simp [State.runAon, h]

/-- A command that moves no pin and no target's line leaves the event controller as its own effect does. -/
theorem State.settle_quiet (s t : State) (hp : samePins s t = true) (hl : ∀ i, t.line i = s.line i) :
    s.settle t = { t with pending := s.pending, otp := s.otp } := by
  have he : gpioEdges s t = t := by simp [gpioEdges, hp]
  have hr : ∀ i, lineRise s t i = t := by
    intro i
    cases h : s.line i <;> simp [lineRise, hl, h]
  simp [State.settle, evcSettle, he, hr]

/-- A change of the Hearths alone is what a command with that effect leaves. -/
theorem State.settle_of_hearths (s : State) (x : Tab Hearth) :
    s.settle { s with hearths := x } = { s with hearths := x } :=
  s.settle_quiet _ (by simp [samePins, State.reg]) fun _ => rfl

end Sys2Proof.Machine
end

