-- ==== Sys2Proof/Safety.lean ====
section
/-! DEFINITION. What counts as a safe run, in the terms of the statements. -/

namespace Sys2Proof.Machine

/-! ### Outcomes -/

/-- The outcome is a next state: the block does not stop. -/
def Completes (o : Host.Outcome State Fault Refusal) : Prop := ∃ t, o = .next t

/-- The command answers a next state, and P holds of it. -/
def Does (i : Instr) (s : State) (P : State → Prop) : Prop := ∃ t, exec i s = .next t ∧ P t

/-! ### Frames -/

/-- The registers read in t as in s, but for those at the addresses of a list. -/
def SameRegs (s t : State) (l : List Nat) : Prop := ∀ a, a ∉ l → t.reg a = s.reg a

/-- The masters' last replies are those of s, with OK and a value for master m. -/
def Answers (s t : State) (m : Nat) (v : Word) : Prop :=
  ∀ k, tabGet replyDefault t.replies k = if k = m then ⟨.ok, v.zeroExtend 64⟩ else tabGet replyDefault s.replies k

/-- An event: only the registers of the list, and what g makes of the rest, change; P holds of the state t that it leaves. g is
given t, and the state before with the registers of t. -/
def Happens (i : Instr) (s : State) (l : List Nat) (g : State → State → State) (P : State → Prop) : Prop :=
  Does i s fun t => t = s.settle (g t { s with regs := t.regs }) ∧ SameRegs s t l ∧ P t

/-- An access of master m that is accepted: its reply is OK with a value, and the rest is as for an event. -/
def Accepts (i : Instr) (s : State) (m : Nat) (v : Word) (l : List Nat) (g : State → State → State) (P : State → Prop) : Prop :=
  Does i s fun t => t = s.settle (g t { s with regs := t.regs, replies := t.replies }) ∧ SameRegs s t l ∧ Answers s t m v ∧ P t

/-- An access of master m at address a completes with an error response r (R47): it is logged (R50), noted for the fence if it
is a write (R60), and the master is answered; nothing else changes. -/
def Fails (i : Instr) (s : State) (m a : Nat) (sz : AccSize) (write : Bool) (r : Resp) : Prop :=
  Does i s fun t => t = s.settle { s with regs := t.regs, replies := t.replies, fences := t.fences } ∧
    SameRegs s t [SYS_VIOL_COUNT, SYS_VIOL_ADDR, SYS_VIOL_INFO] ∧
    (∀ k, tabGet replyDefault t.replies k = if k = m then ⟨r, 0⟩ else tabGet replyDefault s.replies k) ∧
    (t.reg SYS_VIOL_COUNT).toNat = min ((s.reg SYS_VIOL_COUNT).toNat + 1) (2 ^ 32 - 1) ∧
    (s.bit SYS_VIOL_INFO SYS_VIOL_INFO_valid = true →
      t.reg SYS_VIOL_ADDR = s.reg SYS_VIOL_ADDR ∧ t.reg SYS_VIOL_INFO = s.reg SYS_VIOL_INFO) ∧
    (s.bit SYS_VIOL_INFO SYS_VIOL_INFO_valid = false →
      t.reg SYS_VIOL_ADDR = BitVec.ofNat 32 a ∧ t.reg SYS_VIOL_INFO =
        BitVec.ofNat 32 (respCode r + (if write then 2 ^ 3 else 0) + sizeCode sz * 2 ^ 4 + m * 2 ^ 8 + 2 ^ 31)) ∧
    ∀ k, tabGet fenceDefault t.fences k =
      let f := tabGet fenceDefault s.fences k
      if k = m ∧ write = true then ⟨if f.firstErr = 0 then respCode r else f.firstErr, min (f.errCount + 1) 255⟩ else f

/-- An access to a register that its target refuses with SLVERR. -/
def Refuses (i : Instr) (s : State) (m a : Nat) (write : Bool) : Prop := Fails i s m a .b32 write .slverr

/-! ### Memories -/

/-- The Mantel is in its canonical form: equal memories are equal lists. -/
def State.mantelWf (s : State) : Bool := tabWf zeroByte s.mantel

/-- The OTP words are in their canonical form. -/
def State.otpWf (s : State) : Bool := tabWf zeroWord s.otp

/-- The OTP word w (R469). -/
def State.otpWord (s : State) (w : Nat) : Word := tabGet zeroWord s.otp w

/-- No OTP bit that was 1 in s is 0 in t (R469). -/
def OtpKept (s t : State) : Prop := ∀ w, s.otpWord w &&& ~~~t.otpWord w = 0

/-- A byte of the Mantel. -/
def State.mantelByte (s : State) (a : Nat) : Byte := tabGet zeroByte s.mantel a

/-! ### A Hearth that executes an instruction -/

/-- Hearth n executes the instruction at its PC, as one that runs: it is not halted or stalled, no error, breakpoint or step of
a debugger waits, its slot is not annulled, the word is sound, and it stands where an instruction of its kind may stand
(R231, R236, R242, R247, R256, R517). `ctl`: the instruction is a control instruction of R279. -/
def State.ready (s : State) (n : Nat) (ctl : Bool) : Bool :=
  let h := s.hearth n
  s.awake && s.executes n && h.stalled.isNone && h.imprecise.isNone && (h.bpSkip || (s.breakpoint n h.pc).isNone) &&
  !h.stat.annul && !tabGet falseAt h.progBad h.pc && !(ctl && h.inSlot) && !(h.atLoopEnd && (ctl || h.inSlot)) &&
  h.wpHit.isNone && !h.stepping && !h.haltDue

/-- The boot ROM waits for nothing. -/
def RomSt.still : RomSt → Bool
  | .waiting => false
  | .applying _ _ _ => false
  | _ => true

/-- Nothing of the block waits to go on by itself: no access of a master, no debug step, and no go of the boot ROM. -/
def State.quiet (s : State) : Bool :=
  s.jobs.isEmpty && s.skp.rom.still &&
  (List.finRange 192).all fun h => !((s.hearth h.val).stepping && (s.hearth h.val).stalled.isNone)

/-- No access of master m waits, so that its next one does not come after another (R59). -/
def State.noneWaits (s : State) (m : Nat) : Bool := !(s.jobs.any fun j => j.mid = m && j.blocks)

/-- An access of master m to a register of a Hearth window is made at once: nothing of it waits, and the clear does not hold it
(R59, R327). -/
def State.windowFree (s : State) (m : Nat) : Bool := s.noneWaits m && (s.ramOpen || (m != 0x300 && m != 0x301))

/-- Nothing outside Hearth n changes. -/
def OnlyHearth (n : Nat) (s t : State) : Prop := t = { s with hearths := t.hearths } ∧ ∀ m, m ≠ n → t.hearth m = s.hearth m

/-- The Pace record with k more steps of the work; `on`: the monitor is enabled (R34). -/
def Pace.work (p : Pace) (on : Bool) (k : Nat) : Pace :=
  if on && p.ended.isNone then { p with steps := min (p.steps + k) 0xFFFF } else p

/-- The Pace record after k steps, the last two of which are an entry that abandons what the Hearth was at (R34, R244). -/
def Pace.entered (p : Pace) (on : Bool) (k : Nat) : Pace := ({ p.work on (k - 2) with ended := none } : Pace).work on 2

/-- Hearth n executes i as an instruction that retires in k steps: nothing outside the Hearth changes, and the Hearth becomes
what f makes of it once the shadows of R235 have settled, its program going on as `flow` says. -/
def Retires (n : HearthId) (i : Instr) (s : State) (flow : Flow) (k : Nat) (f : Hearth → Hearth) : Prop :=
  let h := s.hearth n.val
  Does i s fun t => OnlyHearth n.val s t ∧
    t.hearth n.val = { (f h.settleShadows).advance h.pc h.npc flow with
      stalled := none, bpSkip := false, pace := h.pace.work (s.paceOn n.val) k }

/-- As Retires, with what the instruction does outside the Hearth: g, and what the event controller makes of it. -/
def RetiresWith (n : HearthId) (i : Instr) (s : State) (k : Nat) (f : Hearth → Hearth) (g : State → State) : Prop :=
  let h := s.hearth n.val
  Does i s fun t => t = s.settle (g { s with hearths := t.hearths }) ∧ (∀ m, m ≠ n.val → t.hearth m = s.hearth m) ∧
    t.hearth n.val = { (f h.settleShadows).advance h.pc h.npc .seq with
      stalled := none, bpSkip := false, pace := h.pace.work (s.paceOn n.val) k }

/-! ### Traps -/

/-- What trap entry makes of a Hearth (R246). -/
def Hearth.trapped (h : Hearth) (xbase cause : Nat) (val : Word) (info xpc xnpc : Nat) : Hearth :=
  { h.settleShadows with
    xpc := xpc, xnpc := xnpc, xstat := h.statWord, xcause := cause, xval := val, xinfo := info,
    stat := { h.stat with trap := true, ie := false, annul := false },
    pc := xbase, npc := (xbase + 1) % 4096, inSlot := false, stalled := none, bpSkip := false, wpHit := none }

/-- The word that HRT_FAULT of Hearth n takes when it captures a fault (R248). -/
def State.faultWord (s : State) (n cause prior : Nat) (imprecise : Bool) (pc : Nat) : Word :=
  BitVec.ofNat 32 (cause + prior * 2 ^ 5 + (if imprecise then 2 ^ 10 else 0) +
    s.fld (HRT_FAULT n) HRT_FAULT_halted * 2 ^ 11 + pc * 2 ^ 16 + 2 ^ 31)

/-- The capture of a fault of Hearth n in t: nothing while one is held, and its record otherwise (R248). -/
def Captures (n : Nat) (s t : State) (cause prior : Nat) (imprecise : Bool) (pc : Nat) (val : Word) : Prop :=
  if s.bit (HRT_FAULT n) HRT_FAULT_valid then SameRegs s t []
  else SameRegs s t [HRT_FAULT n, HRT_FAULT_VAL n] ∧
    t.reg (HRT_FAULT n) = s.faultWord n cause prior imprecise pc ∧ t.reg (HRT_FAULT_VAL n) = val

/-- Command i takes a trap of Hearth n (R246 to R248): `h` is the Hearth that it finds. A fault-class trap raises
SRC_HEARTH_FAULT(n) and is captured; the Pace record counts k steps, the last two of the entry, which resumes the work (R34). -/
def Traps (n : HearthId) (i : Instr) (s : State) (h : Hearth) (k cause : Nat) (val : Word) (info xpc xnpc : Nat) : Prop :=
  let fault := decide (4 ≤ cause ∧ cause ≤ 13)
  Does i s fun t =>
    t = s.settle (({ s with regs := t.regs, hearths := t.hearths } : State).raiseIf fault (193 + n.val)) ∧
    (if fault then Captures n.val s t cause 0 (decide (8 ≤ info)) xpc val else SameRegs s t []) ∧
    (∀ m, m ≠ n.val → t.hearth m = s.hearth m) ∧
    t.hearth n.val = { h.trapped (s.fld (HRT_VEC n.val) HRT_VEC_xbase) cause val info xpc xnpc with
      pace := h.pace.entered (s.paceOn n.val) k }

end Sys2Proof.Machine
end

