-- ==== Sys2Proof/Laws/Hearth.lean ====
section
/-! SUPPORT. How a Hearth executes an instruction that runs, said once: the operation, its retirement, and the frame. -/

namespace Sys2Proof.Machine

/-- An instruction that runs is its operation and what its answer makes of the Hearth. -/
theorem State.hInstr_ready (s : State) (n : Nat) (i : Instr) (ctl asst : Bool) (op : Hearth → State → HRes)
    (h : s.ready n ctl = true) :
    s.hInstr n i true ctl asst op =
      (State.hFinish n i (s.hearth n) (op (s.hearth n) (s.modHearth n Hearth.settleShadows))).hEnd n := by
  simp only [State.ready, Bool.and_eq_true, Bool.not_eq_true', Bool.or_eq_true, Option.isNone_iff_eq_none] at h
  obtain ⟨⟨⟨⟨⟨⟨⟨⟨⟨⟨⟨_, h2⟩, h3⟩, h4⟩, h5⟩, h6⟩, h7⟩, h8⟩, h9⟩, _⟩, _⟩, _⟩ := h
  have hb : (!(s.hearth n).bpSkip && (s.breakpoint n (s.hearth n).pc).isSome) = false := by
    rcases h5 with h5 | h5 <;> simp [h5]
  have hf : (s.hearth n).fetchTrap true ctl = none := by
    simp [Hearth.fetchTrap, h7, h8, h9]
  simp [State.hInstr, h2, h3, h4, hb, h6, hf]

/-- The shadows settle without touching what an instruction that runs depends on. -/
theorem Hearth.settleShadows_frame (h : Hearth) :
    h.settleShadows = { h with g := h.settleShadows.g, loadSh := none, accOld := none } := by
  unfold Hearth.settleShadows
  split <;> rfl

/-! ### Nothing outside one Hearth -/

theorem OnlyHearth.refl (n : Nat) (s : State) : OnlyHearth n s s := ⟨rfl, fun _ _ => rfl⟩

/-- A change of Hearth n. -/
theorem OnlyHearth.mod {n : Nat} {s t : State} (h : OnlyHearth n s t) (f : Hearth → Hearth) :
    OnlyHearth n s (t.modHearth n f) := by
  refine ⟨?_, fun m hm => ?_⟩
  · rw [h.1]; rfl
  · rw [State.modHearth_hearth_other _ _ hm, h.2 m hm]

theorem OnlyHearth.reg {n : Nat} {s t : State} (h : OnlyHearth n s t) (a : Nat) : t.reg a = s.reg a := by
  rw [h.1]; rfl

theorem OnlyHearth.paceOn {n m : Nat} {s t : State} (h : OnlyHearth n s t) : t.paceOn m = s.paceOn m := by
  rw [h.1]; rfl

/-- The settled state of a command that changes one Hearth is the state. -/
theorem OnlyHearth.settle {n : Nat} {s t : State} (h : OnlyHearth n s t) : s.settle t = t := by
  rw [h.1]; exact s.settle_of_hearths _

/-- Steps change only the Pace record. -/
theorem State.paceSteps_hearth (s : State) (n k : Nat) :
    OnlyHearth n s (s.paceSteps n k) ∧
    (s.paceSteps n k).hearth n = { s.hearth n with pace := (s.hearth n).pace.work (s.paceOn n) k } := by
  unfold State.paceSteps Pace.work
  dsimp only
  split
  · exact ⟨(OnlyHearth.refl n s).mod _, by simp [State.setPace]⟩
  · exact ⟨OnlyHearth.refl n s, rfl⟩

/-- What a Hearth that is ready stands like. -/
theorem State.ready_facts {s : State} {n : Nat} {ctl : Bool} (h : s.ready n ctl = true) :
    s.awake = true ∧ s.executes n = true ∧ (s.hearth n).stalled = none ∧ (s.hearth n).imprecise = none ∧
    (s.hearth n).stat.annul = false ∧ (s.hearth n).wpHit = none ∧ (s.hearth n).stepping = false ∧
    (s.hearth n).haltDue = false := by
  simp only [State.ready, Bool.and_eq_true, Bool.not_eq_true', Bool.or_eq_true, Option.isNone_iff_eq_none] at h
  obtain ⟨⟨⟨⟨⟨⟨⟨⟨⟨⟨⟨h1, h2⟩, h3⟩, h4⟩, _⟩, h6⟩, _⟩, _⟩, _⟩, h10⟩, h11⟩, h12⟩ := h
  exact ⟨h1, h2, h3, h4, h6, h10, h11, h12⟩

/-- An instruction of a ready Hearth whose operation retires and touches only its Hearth. -/
theorem State.run_retires {s s' : State} {n : Nat} {i : Instr} {ctl asst : Bool} {op : Hearth → State → HRes} {flow : Flow}
    {k : Nat} (hr : s.ready n ctl = true)
    (hop : op (s.hearth n) (s.modHearth n Hearth.settleShadows) = .done s' flow k) (ho : OnlyHearth n s s')
    (hw : (s'.hearth n).wpHit = none) (hs : (s'.hearth n).stepping = false) (hd : (s'.hearth n).haltDue = false)
    (hp : (s'.hearth n).pace = (s.hearth n).pace) :
    ∃ t, s.run (fun s => s.hInstr n i true ctl asst op) = .next t ∧ OnlyHearth n s t ∧
      t.hearth n = { (s'.hearth n).advance (s.hearth n).pc (s.hearth n).npc flow with
        stalled := none, bpSkip := false, pace := (s.hearth n).pace.work (s.paceOn n) k } := by
  have hf := State.ready_facts hr
  rw [State.run_awake _ _ hf.1, State.hInstr_ready _ _ _ _ _ _ hr, hop]
  let u := s'.modHearth n fun t =>
    { t.advance (s.hearth n).pc (s.hearth n).npc flow with stalled := none, bpSkip := false }
  have hu : OnlyHearth n s u := ho.mod _
  have hps := State.paceSteps_hearth u n k
  have huh : u.hearth n = { (s'.hearth n).advance (s.hearth n).pc (s.hearth n).npc flow with
      stalled := none, bpSkip := false } := by simp [u]
  have hadv : ∀ h : Hearth, (h.advance (s.hearth n).pc (s.hearth n).npc flow).wpHit = h.wpHit ∧
      (h.advance (s.hearth n).pc (s.hearth n).npc flow).stepping = h.stepping ∧
      (h.advance (s.hearth n).pc (s.hearth n).npc flow).haltDue = h.haltDue ∧
      (h.advance (s.hearth n).pc (s.hearth n).npc flow).pace = h.pace := by
    intro h
    cases flow with
    | seq => simp only [Hearth.advance]; split <;> exact ⟨rfl, rfl, rfl, rfl⟩
    | branch => exact ⟨rfl, rfl, rfl, rfl⟩
    | fallthrough => exact ⟨rfl, rfl, rfl, rfl⟩
    | jump => exact ⟨rfl, rfl, rfl, rfl⟩
  have hend : (u.paceSteps n k).hEnd n = u.paceSteps n k := by
    have h1 := hps.2
    rw [huh] at h1
    simp [State.hEnd, h1, hadv, hw, hs, hd]
  have ho2 : OnlyHearth n s (u.paceSteps n k) := by
    refine ⟨?_, fun m hm => ?_⟩
    · rw [hps.1.1, hu.1]
    · rw [hps.1.2 m hm, hu.2 m hm]
  refine ⟨u.paceSteps n k, ?_, ho2, ?_⟩
  · show Host.Outcome.next (s.settle ((u.paceSteps n k).hEnd n)) = _
    rw [hend, ho2.settle]
  · rw [hps.2, huh]
    simp [hadv, hp, hu.paceOn]

end Sys2Proof.Machine
end

