-- ==== Sys2Proof/WellFormed.lean ====
section
/-! DEFINITION. Which commands are well formed: the operands of a Hearth or Bellows instruction form no reserved encoding (R261,
R380), and each instruction has one spelling. The operands of every other command range over what its row allows by their
types. -/

namespace Sys2Proof

/-- An even register (R271, R276). -/
def GReg.even (r : GReg) : Bool := r.val % 2 = 0

/-- x0 to x7 of a Bellows lane (R380). -/
def BelSel.isX (r : BelSel) : Bool := r.val < 8

/-- a0 to a3 of a Bellows lane. -/
def BelSel.isA (r : BelSel) : Bool := 8 ≤ r.val && r.val < 12

/-- All x registers, or all accumulators. -/
def BelSel.alike (l : List BelSel) : Bool := l.all BelSel.isX || l.all BelSel.isA

/-- The command's operands form no reserved encoding. SYSW of the numbers 19 to 22 with g0 is written as WSTOW, WFETCH,
DOORBELL and WDKICK (R228). -/
def Instr.wellFormed : Instr → Bool
  | .macx _ x rs rt _ => x.val % 2 = 0 && rs.even && rt.even
  | .macd _ x rs rt _ => x.val % 2 = 0 && rs.even && rt.even
  | .mova _ (.read _ _ part) => part.val != 3
  | .mova _ (.write _ _ part) => part.val != 3
  | .ldp _ _ _ sz u => !(u && sz = .w)
  | .ldm _ rd _ _ sz u => !(u && (sz = .b32 || sz = .b64)) && (sz != .b64 || rd.even)
  | .stm _ rd _ _ sz => sz != .b64 || rd.even
  | .rotm _ rd _ _ sz => sz != .b8 && (sz != .b64 || rd.even)
  | .recv _ rd rm _ => rd != rm || rd.val = 0
  | .peek _ rd rm _ _ => rd != rm || rd.val = 0
  | .bfly _ pa pb _ k => pa != pb && k.val != 3
  | .sysw _ nr rs => !(rs.val = 0 && 19 ≤ nr.val && nr.val ≤ 22)
  | .belLd _ r _ a => r.isX || (r.isA && a.val < 128)
  | .belSt _ r _ a => r.isX || (r.isA && a.val < 128)
  | .belMac _ d v w => d.isA && v.isX && w.isX
  | .belMsu _ d v w => d.isA && v.isX && w.isX
  | .belMul _ d v w => d.isA && v.isX && w.isX
  | .belAdd _ d v w => BelSel.alike [d, v, w]
  | .belSub _ d v w => BelSel.alike [d, v, w]
  | .belMin _ d v w => BelSel.alike [d, v, w]
  | .belMax _ d v w => BelSel.alike [d, v, w]
  | .belShl _ d a n => BelSel.alike [d, a] && n.val < 40
  | .belShr _ d a n => BelSel.alike [d, a] && n.val < 40
  | .belAbs _ d a => BelSel.alike [d, a]
  | .belNeg _ d a => BelSel.alike [d, a]
  | .belClr _ d => d.isA
  | .belMova _ d a n => ((d.isX && a.isA) || (d.isA && a.isX)) && n.val < 40
  | .belBfn _ d v w => d.isX && v.isA && w.isX
  | .belBfnE _ d a => d.isX && a.isA
  | .belBfx _ d v w => d.isA && v.isX && w.isX
  | .belJz _ r _ => r.isX || r.isA
  | .belJn _ r _ => r.isX || r.isA
  | .belLoop _ (.reg r) _ => r.val < 8
  | _ => true

end Sys2Proof
end

