-- ==== Sys2Proof/Certificates/Slice0/Obligations.lean ====
section
/-! DEFINITION. The statements of this model. Each says what a command or the block does, after the rules of the spec that its
docstring names; a statement marked as the model's own choice names its log entry. -/

open Sys2Proof Sys2Proof.Machine

/-- The flags of an addition or subtraction with an exact result and a written one (R265, R268). -/
def sumStat (t : Stat) (x : Int) (r : Word) (c sat : Bool) : Stat :=
  let v := decide (x < -2 ^ 31) || decide (2 ^ 31 ≤ x)
  { t with z := decide (r = 0), n := r.msb, c := c, v := v, sat := t.sat || (sat && v) }

/-- An exact result in 32 bits: wrapped, or with saturation the nearest value of the range (R268). -/
def sumWord (x : Int) (sat : Bool) : Word :=
  BitVec.ofInt 32 (if sat then max (-2 ^ 31) (min (2 ^ 31 - 1) x) else x)

/-- Writes rd and STAT after a sum. -/
def sumTo (rd : GReg) (x : Int) (c sat : Bool) (k : Hearth) : Hearth :=
  { k.setG rd.val (sumWord x sat) with stat := sumStat k.stat x (sumWord x sat) c sat }

/-- Writes rd with the z and n of a result (R265). -/
def logicTo (rd : GReg) (r : Word) (k : Hearth) : Hearth :=
  { k.setG rd.val r with stat := { k.stat with z := decide (r = 0), n := r.msb } }

/-- A condition of R263 holds in STAT. -/
def condTrue : Cond → Stat → Prop
  | .al, _ => True
  | .eq, t => t.z = true
  | .ne, t => t.z = false
  | .lt, t => t.n ≠ t.v
  | .ge, t => t.n = t.v
  | .gt, t => t.z = false ∧ t.n = t.v
  | .le, t => t.z = true ∨ t.n ≠ t.v
  | .ltu, t => t.c = false
  | .geu, t => t.c = true
  | .gtu, t => t.c = true ∧ t.z = false
  | .leu, t => t.c = false ∨ t.z = true
  | .mi, t => t.n = true
  | .pl, t => t.n = false
  | .vs, t => t.v = true
  | .vc, t => t.v = false
  | .sat, t => t.sat = true

/-- The number of leading bits of a word that equal b. -/
def leading (b : Bool) (a : Word) : Nat := ((List.range 32).takeWhile fun i => a.getLsbD (31 - i) == b).length

/-- The count of a shift: rt[5:0] of a register, or an immediate (R267). -/
def countOf (o : Hearth) : ShiftCount → Nat
  | .reg rt => (o.getG rt.val).toNat % 64
  | .imm k => k.val

/-- Writes rd with z, n and c of a shift by k; a count of 0 leaves c (R267). -/
def shiftTo (rd : GReg) (k : Nat) (r : Word) (c sat : Bool) (h : Hearth) : Hearth :=
  { h.setG rd.val r with
    stat := { h.stat with z := decide (r = 0), n := r.msb, c := if k = 0 then h.stat.c else c, sat := h.stat.sat || sat } }

/-- The ALU instructions from ADD to CLS write their results and the flags the spec names, and nothing else (R223, R265,
R266, R268, 09 ALU instructions). -/
def Obligations.ArithmeticAndLogic : Prop :=
  (∀ (n : HearthId) (s : State) (rd rs rt : GReg) (imm : BitVec 16) (sat : Bool), s.ready n.val false = true →
     let o := s.hearth n.val
     let a := o.getG rs.val
     let b := o.getG rt.val
     let c := imm.signExtend 32
     let m : Int := if a.toInt < 0 then -a.toInt else a.toInt
     Retires n (.add n rd rs rt sat) s .seq 1 (sumTo rd (a.toInt + b.toInt) (decide (2 ^ 32 ≤ a.toNat + b.toNat)) sat) ∧
     Retires n (.sub n rd rs rt sat) s .seq 1 (sumTo rd (a.toInt - b.toInt) (decide (b.toNat ≤ a.toNat)) sat) ∧
     Retires n (.addi n rd rs imm) s .seq 1 (sumTo rd (a.toInt + c.toInt) (decide (2 ^ 32 ≤ a.toNat + c.toNat)) false) ∧
     Retires n (.subi n rd rs imm) s .seq 1 (sumTo rd (a.toInt - c.toInt) (decide (c.toNat ≤ a.toNat)) false) ∧
     Retires n (.cmp n rs rt) s .seq 1 (fun k =>
       { k with stat := sumStat k.stat (a.toInt - b.toInt) (a - b) (decide (b.toNat ≤ a.toNat)) false }) ∧
     Retires n (.cmpi n rs imm) s .seq 1 (fun k =>
       { k with stat := sumStat k.stat (a.toInt - c.toInt) (a - c) (decide (c.toNat ≤ a.toNat)) false }) ∧
     Retires n (.neg n rd rs sat) s .seq 1 (sumTo rd (-a.toInt) (decide (a = 0)) sat) ∧
     Retires n (.abs n rd rs sat) s .seq 1 (fun k => sumTo rd m k.stat.c sat k)) ∧
  (∀ (n : HearthId) (s : State) (rd rs rt : GReg), s.ready n.val false = true →
     let o := s.hearth n.val
     let a := o.getG rs.val
     let b := o.getG rt.val
     Retires n (.and n rd rs rt) s .seq 1 (logicTo rd (a &&& b)) ∧
     Retires n (.or n rd rs rt) s .seq 1 (logicTo rd (a ||| b)) ∧
     Retires n (.xor n rd rs rt) s .seq 1 (logicTo rd (a ^^^ b)) ∧
     Retires n (.not n rd rs) s .seq 1 (logicTo rd (~~~a)) ∧
     Retires n (.min n rd rs rt false) s .seq 1 (logicTo rd (BitVec.ofInt 32 (min a.toInt b.toInt))) ∧
     Retires n (.min n rd rs rt true) s .seq 1 (logicTo rd (BitVec.ofNat 32 (min a.toNat b.toNat))) ∧
     Retires n (.max n rd rs rt false) s .seq 1 (logicTo rd (BitVec.ofInt 32 (max a.toInt b.toInt))) ∧
     Retires n (.max n rd rs rt true) s .seq 1 (logicTo rd (BitVec.ofNat 32 (max a.toNat b.toNat))) ∧
     Retires n (.clz n rd rs) s .seq 1 (logicTo rd (BitVec.ofNat 32 (leading false a))) ∧
     Retires n (.cls n rd rs) s .seq 1 (logicTo rd (BitVec.ofNat 32 (leading a.msb a - 1))))

/-- SEL and the moves copy and leave STAT; the shifts take a register's low six bits or an immediate, and set z, n and c
(R223, R262, R263, R265, R266, R269, R267, R268). -/
def Obligations.MovesSelectAndShifts : Prop :=
  (∀ (n : HearthId) (s : State) (rd rs rt : GReg) (x : PtrReg) (c : Cond) (imm : BitVec 16), s.ready n.val false = true →
     let o := s.hearth n.val
     let a := o.getG rs.val
     (condTrue c o.stat → Retires n (.sel n rd rs rt c) s .seq 1 (fun k => k.setG rd.val a)) ∧
     (¬condTrue c o.stat → Retires n (.sel n rd rs rt c) s .seq 1 (fun k => k.setG rd.val (o.getG rt.val))) ∧
     Retires n (.mov n (.gg rd rs)) s .seq 1 (fun k => k.setG rd.val a) ∧
     Retires n (.mov n (.toPtr x rs)) s .seq 1 (fun k => k.setP x.val a) ∧
     Retires n (.mov n (.fromPtr rd x)) s .seq 1 (fun k => k.setG rd.val (o.getP x.val)) ∧
     Retires n (.movi n rd imm) s .seq 1 (fun k => k.setG rd.val (imm.signExtend 32)) ∧
     Retires n (.movhi n rd imm) s .seq 1 (fun k =>
       k.setG rd.val (BitVec.ofNat 32 (imm.toNat * 2 ^ 16 + (o.getG rd.val).toNat % 2 ^ 16))) ∧
     Retires n (.moviPointer n x imm) s .seq 1 (fun k =>
       k.setP x.val (if x.val / 8 = 1 then imm.signExtend 32 else imm.zeroExtend 32))) ∧
  (∀ (n : HearthId) (s : State) (rd rs : GReg) (k : ShiftCount), s.ready n.val false = true →
     let o := s.hearth n.val
     let a := o.getG rs.val
     let c := countOf o k
     let x : Int := a.toInt * 2 ^ c
     let big := decide (x < -2 ^ 31) || decide (2 ^ 31 ≤ x)
     let out := decide (c ≤ 32) && a.getLsbD (32 - c)
     Retires n (.shl n rd rs k false) s .seq 1 (shiftTo rd c (BitVec.ofNat 32 (a.toNat * 2 ^ c)) out false) ∧
     Retires n (.shl n rd rs k true) s .seq 1 (shiftTo rd c (sumWord x true) out big) ∧
     Retires n (.shr n rd rs k) s .seq 1
       (shiftTo rd c (BitVec.ofNat 32 (a.toNat / 2 ^ c)) (a.getLsbD (c - 1)) false) ∧
     Retires n (.sar n rd rs k) s .seq 1
       (shiftTo rd c (BitVec.ofInt 32 (a.toInt / 2 ^ c)) (if c ≤ 32 then a.getLsbD (c - 1) else a.msb) false) ∧
     Retires n (.rol n rd rs k) s .seq 1 (shiftTo rd c (a.rotateLeft (c % 32)) ((a.rotateLeft (c % 32)).getLsbD 0) false))

/-- A value limited to the A80 range (R270). -/
def accWord (x : Int) : BitVec 80 := BitVec.ofInt 80 (max (-2 ^ 79) (min (2 ^ 79 - 1) x))

/-- The value lies outside the A80 range. -/
def accBig (x : Int) : Bool := decide (x < -2 ^ 79) || decide (2 ^ 79 ≤ x)

/-- Writes a saturated value to an accumulator; a read of the next step sees the old ones (R235, R270). -/
def accTo (x : AccNo) (v : Int) (k : Hearth) : Hearth :=
  { k.setA x.val (accWord v) with accOld := some k.acc, stat := { k.stat with sat := k.stat.sat || accBig v } }

/-- Writes two accumulators, x and x + 1. -/
def accPairTo (x : AccNo) (v w : Int) (k : Hearth) : Hearth :=
  { (k.setA x.val (accWord v)).setA (x.val + 1) (accWord w) with
    accOld := some k.acc, stat := { k.stat with sat := k.stat.sat || (accBig v || accBig w) } }

/-- What an accumulator read sees: in the step after a MAC-group instruction the value from before it (R235). -/
def accSeen (o : Hearth) (x : AccNo) : BitVec 80 :=
  match o.accOld with
  | none => o.getA x.val
  | some old => tabGet zeroAcc old x.val

/-- Writes a value saturated to 32 bits; sat records the saturation. -/
def roundTo (rd : GReg) (v : Int) (k : Hearth) : Hearth :=
  { k.setG rd.val (sumWord v true) with
    stat := { k.stat with sat := k.stat.sat || (decide (v < -2 ^ 31) || decide (2 ^ 31 ≤ v)) } }

/-- The MAC group computes exactly, saturates to A80 and sets sat; MOVA, MOVAR and MOVAS read and write the accumulators
(R235, R265, R270, R271, R223, R272). -/
def Obligations.AccumulatorsComputedAndRead : Prop :=
  (∀ (n : HearthId) (s : State) (x y : AccNo) (rs rt : GReg) (f neg : Bool) (k : BitVec 5) (mask : BitVec 4),
     s.ready n.val false = true →
     let o := s.hearth n.val
     let a : Int := (o.getA x.val).toInt
     let a1 : Int := (o.getA (x.val + 1)).toInt
     let b : Int := (o.getA y.val).toInt
     let p (i j : Nat) : Int := (if f then 2 else 1) * (o.getG i).toInt * (o.getG j).toInt
     Retires n (.mac n x rs rt f) s .seq 1 (accTo x (a + p rs.val rt.val)) ∧
     Retires n (.msu n x rs rt f) s .seq 1 (accTo x (a - p rs.val rt.val)) ∧
     Retires n (.mul n x rs rt f) s .seq 1 (fun h =>
       { h.setA x.val (BitVec.ofInt 80 (p rs.val rt.val)) with accOld := some h.acc }) ∧
     ((Instr.macx n x rs rt f).wellFormed = true →
       Retires n (.macx n x rs rt f) s .seq 1
         (accPairTo x (a + p rs.val (rt.val + 1)) (a1 + p (rs.val + 1) rt.val)) ∧
       Retires n (.macd n x rs rt f) s .seq 1
         (accPairTo x (a + p rs.val rt.val) (a1 + p (rs.val + 1) (rt.val + 1)))) ∧
     (0 ≤ k.toInt → Retires n (.sha n x k) s .seq 1 (accTo x (a * 2 ^ k.toInt.toNat))) ∧
     (k.toInt < 0 → Retires n (.sha n x k) s .seq 1 (accTo x (a / 2 ^ (-k.toInt).toNat))) ∧
     Retires n (.adda n x y neg) s .seq 1 (accTo x (if neg then a - b else a + b)) ∧
     ∃ f : Hearth → Hearth, Retires n (.clra n mask) s .seq 1 f ∧
       ∀ h, f h = { h with acc := (f h).acc, accOld := some h.acc } ∧
         ∀ j, (f h).getA j = if j < 4 ∧ mask.toNat / 2 ^ j % 2 = 1 then 0 else h.getA j) ∧
  (∀ (n : HearthId) (s : State) (x : AccNo) (rd rs : GReg), s.ready n.val false = true →
     let o := s.hearth n.val
     let a := accSeen o x
     let c := o.getA x.val
     let v := o.getG rs.val
     let put (w : BitVec 80) (h : Hearth) : Hearth := { h.setA x.val w with accOld := some h.acc }
     Retires n (.mova n (.read rd x 0)) s .seq 1 (fun h => h.setG rd.val (a.extractLsb' 32 32)) ∧
     Retires n (.mova n (.read rd x 1)) s .seq 1 (fun h => h.setG rd.val (a.extractLsb' 0 32)) ∧
     Retires n (.mova n (.read rd x 2)) s .seq 1 (fun h => h.setG rd.val ((a.extractLsb' 64 16).signExtend 32)) ∧
     Retires n (.mova n (.write x rs 0)) s .seq 1 (put (c.extractLsb' 64 16 ++ v ++ c.extractLsb' 0 32)) ∧
     Retires n (.mova n (.write x rs 1)) s .seq 1 (put (c.extractLsb' 32 48 ++ v)) ∧
     Retires n (.mova n (.write x rs 2)) s .seq 1 (put (v.extractLsb' 0 16 ++ c.extractLsb' 0 64)) ∧
     Retires n (.movar n rd x) s .seq 1 (roundTo rd ((a.toInt + 2 ^ 31) / 2 ^ 32)) ∧
     Retires n (.movas n rd x) s .seq 1 (roundTo rd (a.toInt / 2 ^ 32)))

/-- No watchpoint of Hearth n is enabled (R517). -/
def noWatch (s : State) (n : Nat) : Prop := ∀ j, j < 2 → s.bit (HRT_DBG_WP_HI n j) HRT_DBG_WP_HI_en = false

/-- What a local load of `sz` at address a finds (R229, R231, R238, R252): a pending slot's active value, the data of the
youngest buffered store that overlaps it, where that is a store to just this address and size, or a sound word of data RAM. -/
def loadFinds (h : Hearth) (a : Nat) (sz : LocSize) (v : Nat) : Prop :=
  let k := locBytes sz
  a % k = 0 ∧
  ((sz = .w ∧ 0x8000 ≤ a ∧ a < 0x8400 ∧ v = (tabGet slotDefault h.slots ((a - 0x8000) / 4)).act.toNat) ∨
   (a < 0x8000 ∧ ∃ e, h.sb.reverse.find? (fun e => decide (a < e.addr + locBytes e.size ∧ e.addr < a + k)) = some e ∧
     e.addr = a ∧ e.size = sz ∧ v = e.data.toNat % 2 ^ (8 * k)) ∨
   (a < 0x8000 ∧ (∀ e ∈ h.sb, ¬(a < e.addr + locBytes e.size ∧ e.addr < a + k)) ∧ h.wordErr a = 0 ∧ v = h.ramBytes a k))

/-- A load's result waits for the end of the next step (R235, R274). -/
def loadTo (rd : GReg) (v : Word) (k : Hearth) : Hearth :=
  { k with loadSh := if rd.val = 0 then none else some (gKey k.stat rd.val, v) }

/-- The pointer of LDP and STP is post-modified (R227). -/
def bumpPtr (i : PtrNo) (k : Hearth) : Hearth :=
  k.setP i.val (postMod (k.getP i.val) (k.getP (8 + i.val)) (k.getP (16 + i.val)) (k.getP (24 + i.val)))

/-- LDB to LDP load from data RAM, store buffer or pending slot with a load delay; STB to STP enter the store buffer, which
drains (R227, R229, R231, R235, R238, R252, R273, R274, R275). Where a clause goes beyond these rules it is the model's
choice (log entry 16). -/
def Obligations.LocalMemoryAccess : Prop :=
  (∀ (n : HearthId) (s : State) (rd ra : GReg) (off : BitVec 13) (i : PtrNo) (sz : LocSize) (u : Bool) (v : Nat),
     s.ready n.val false = true → noWatch s n.val →
     let o := s.hearth n.val
     let a := (o.getG ra.val + off.signExtend 32).toNat
     (loadFinds o a .b v →
       Retires n (.ldb n rd ra off false) s .seq 1 (loadTo rd (BitVec.ofInt 32 (signed 8 v))) ∧
       Retires n (.ldb n rd ra off true) s .seq 1 (loadTo rd (BitVec.ofNat 32 v))) ∧
     (loadFinds o a .h v →
       Retires n (.ldh n rd ra off false) s .seq 1 (loadTo rd (BitVec.ofInt 32 (signed 16 v))) ∧
       Retires n (.ldh n rd ra off true) s .seq 1 (loadTo rd (BitVec.ofNat 32 v))) ∧
     (loadFinds o a .w v → Retires n (.ldw n rd ra off) s .seq 1 (loadTo rd (BitVec.ofNat 32 v))) ∧
     (loadFinds o (o.getP i.val).toNat sz v → (Instr.ldp n rd i sz u).wellFormed = true →
       Retires n (.ldp n rd i sz u) s .seq 1 (fun k =>
         bumpPtr i (loadTo rd (if u then BitVec.ofNat 32 v else BitVec.ofInt 32 (signed (8 * locBytes sz) v)) k)))) ∧
  (∀ (n : HearthId) (s : State) (rd ra : GReg) (off : BitVec 13) (i : PtrNo) (sz : LocSize),
     s.ready n.val false = true → noWatch s n.val → (s.hearth n.val).sb.length < 4 →
     let o := s.hearth n.val
     let a := (o.getG ra.val + off.signExtend 32).toNat
     let b := (o.getP i.val).toNat
     let put (a : Nat) (sz : LocSize) (k : Hearth) : Hearth := { k with sb := k.sb ++ [⟨a, sz, o.getG rd.val⟩] }
     (a < 0x8000 → Retires n (.stb n rd ra off) s .seq 1 (put a .b)) ∧
     (a < 0x8000 → a % 2 = 0 → Retires n (.sth n rd ra off) s .seq 1 (put a .h)) ∧
     (a < 0x8000 → a % 4 = 0 → Retires n (.stw n rd ra off) s .seq 1 (put a .w)) ∧
     (b < 0x8000 → b % locBytes sz = 0 → Retires n (.stp n rd i sz) s .seq 1 (fun k => bumpPtr i (put b sz k)))) ∧
  (∀ (n : HearthId) (s : State), s.awake = true →
    ((s.hearth n.val).sb = [] → exec (.storeDrain n) s = .next s) ∧
    ∀ e rest, (s.hearth n.val).sb = e :: rest →
      (e.size = .w ∨ (s.hearth n.val).wordErr e.addr = 0 →
        Does (.storeDrain n) s fun t => OnlyHearth n.val s t ∧
          t.hearth n.val = { s.hearth n.val with sb := rest, ram := (t.hearth n.val).ram, ramErr := (t.hearth n.val).ramErr } ∧
          (∀ a, (t.hearth n.val).wordErr a = if e.size = .w ∧ a / 4 = e.addr / 4 then 0 else (s.hearth n.val).wordErr a) ∧
          ∀ a, tabGet zeroByte (t.hearth n.val).ram a =
            if e.addr ≤ a ∧ a < e.addr + locBytes e.size then BitVec.ofNat 8 (e.data.toNat / 256 ^ (a - e.addr))
            else tabGet zeroByte (s.hearth n.val).ram a) ∧
      (e.size ≠ .w → (s.hearth n.val).wordErr e.addr = 2 → (s.hearth n.val).imprecise = none →
        Does (.storeDrain n) s fun t => t = s.settle { s with regs := t.regs, hearths := t.hearths } ∧
          SameRegs s t [HRT_ECC_UNC n.val, HRT_ECC_ADDR n.val] ∧
          t.hearth n.val = { s.hearth n.val with sb := rest, imprecise := some (e.addr, none) } ∧
          (∀ m, m ≠ n.val → t.hearth m = s.hearth m) ∧
          (t.reg (HRT_ECC_UNC n.val)).toNat = min ((s.reg (HRT_ECC_UNC n.val)).toNat + 1) (2 ^ 32 - 1) ∧
          (t.reg (HRT_ECC_ADDR n.val)).toNat = e.addr / 4 * 4 % 2 ^ 32))

/-- Pops the top loop entry, if p (R280). -/
def popIf (p : Bool) (k : Hearth) : Hearth := if p then { k with loops := k.loops.tail } else k

/-- STAT after a forward rotation (R224). -/
def rotated (t : Stat) : Stat := { t with wcur := (t.wcur + 1) % 5, wres := t.wres + 1, frame := (t.frame + 1) % 16 }

/-- STAT after a backward rotation (R224). -/
def rotatedBack (t : Stat) : Stat := { t with wcur := (t.wcur + 4) % 5, wres := t.wres - 1, frame := (t.frame + 15) % 16 }

/-- B, BC, BAL, JMP, CALL and RET continue after their slot at the target; a Hearth goes on at its next PC or loop start
(R223, R224, R236, R263, R279, R280, R281, R242, R282). -/
def Obligations.ControlFlow : Prop :=
  (∀ (n : HearthId) (s : State) (q p : Bool) (c : Cond) (rd rs : GReg) (t : Fin 4096), s.ready n.val true = true →
     let o := s.hearth n.val
     let link : Word := BitVec.ofNat 32 ((o.pc + 2) % 4096)
     Retires n (.b n q p t) s (.branch t.val q) 1 (popIf p) ∧
     (condTrue c o.stat → Retires n (.bc n q p c t) s (.branch t.val false) 1 (popIf p)) ∧
     (¬condTrue c o.stat → Retires n (.bc n q p c t) s (.fallthrough q) 1 id) ∧
     Retires n (.bal n q p rd t) s (.branch t.val q) 1 (fun k => popIf p (k.setG rd.val link)) ∧
     Retires n (.jmp n q p rs) s (.branch ((o.getG rs.val).toNat % 4096) q) 1 (popIf p) ∧
     (o.stat.wres ≠ 5 → Retires n (.call n q t) s (.branch t.val q) 1 (fun k =>
       ({ k with stat := rotated k.stat } : Hearth).setG 31 link)) ∧
     (o.stat.wres ≠ 1 → Retires n (.ret n q p) s (.branch ((o.getG 31).toNat % 4096) q) 1 (fun k =>
       popIf p { k with stat := rotatedBack k.stat }))) ∧
  (∀ (h : Hearth) (pc npc t u : Nat) (a : Bool) (e : LoopEnt) (rest : List LoopEnt),
     let ends (e : LoopEnt) : Prop := e.stop = pc ∧ e.trap = h.stat.trap ∧ e.frame = h.stat.frame
     ((∀ x ∈ h.loops.head?, ¬ends x) →
       h.advance pc npc .seq = { h with pc := npc, npc := (npc + 1) % 4096, inSlot := false }) ∧
     (h.loops = e :: rest → ends e → 0 < e.left →
       h.advance pc npc .seq = { h with
         loops := { e with left := e.left - 1 } :: rest, pc := e.start, npc := (e.start + 1) % 4096, inSlot := false }) ∧
     (h.loops = e :: rest → ends e → e.left = 0 →
       h.advance pc npc .seq = ({ h with loops := rest } : Hearth).advance pc npc .seq) ∧
     h.advance pc npc (.branch t a) =
       { h with pc := npc, npc := t % 4096, inSlot := true, stat := { h.stat with annul := a } } ∧
     h.advance pc npc (.fallthrough a) =
       { h with pc := npc, npc := (npc + 1) % 4096, inSlot := true, stat := { h.stat with annul := a } } ∧
     h.advance pc npc (.jump t u) = { h with pc := t % 4096, npc := u % 4096, inSlot := false })

/-- Word j of the loop image of a loop stack, given bottom first (R243). -/
def imageWord (l : List LoopEnt) (j : Nat) : Word :=
  if j = 0 then BitVec.ofNat 32 l.length
  else match l[(j - 1) / 2]? with
    | none => 0
    | some e =>
      if j % 2 = 1 then
        BitVec.ofNat 32 (e.start + e.stop * 2 ^ 12 + (if e.trap then 2 ^ 24 else 0) + e.frame * 2 ^ 25)
      else BitVec.ofNat 32 e.left

/-- LOOP and LOOPI push an entry or skip the body; PUSHL saves the loop stack and POPL brings it back (R227, R238, R242,
R243, R273, R282, R283). Where a clause goes beyond these rules it is the model's choice (log entry 11). -/
def Obligations.HardwareLoopsAndImages : Prop :=
  ∀ (n : HearthId) (s : State) (rs : GReg) (count stop : Fin 4096) (i : PtrNo),
    let o := s.hearth n.val
    let push (c : Nat) (k : Hearth) : Hearth :=
      { k with loops := ⟨o.npc, stop.val, c - 1, o.stat.trap, o.stat.frame⟩ :: k.loops }
    let c := (o.getG rs.val).toNat
    let back (p : Word) : Word := preMod p (o.getP (8 + i.val)) (o.getP (16 + i.val)) (o.getP (24 + i.val))
    let word (p : Word) : Word := BitVec.ofNat 32 (o.ramBytes p.toNat 4)
    let at' (j : Nat) : Word := Nat.repeat back j (o.getP i.val)
    let p := o.getP i.val
    let sound (p : Word) : Prop := p.toNat % 4 = 0 ∧ p.toNat < 0x8000 ∧ o.wordErr p.toNat = 0
    (s.ready n.val true = true → o.pc < stop.val → c ≠ 0 → o.loops.length < 4 →
      Retires n (.loop n rs stop) s (.jump o.npc (o.npc + 1)) 1 (push c)) ∧
    (s.ready n.val true = true → o.pc < stop.val → c = 0 →
      Retires n (.loop n rs stop) s (.jump (stop.val + 1) (stop.val + 2)) 1 id) ∧
    (s.ready n.val true = true → o.pc < stop.val → count.val ≠ 0 → o.loops.length < 4 →
      Retires n (.loopi n count stop) s (.jump o.npc (o.npc + 1)) 1 (push count.val)) ∧
    (s.ready n.val true = true → o.pc < stop.val → count.val = 0 →
      Retires n (.loopi n count stop) s (.jump (stop.val + 1) (stop.val + 2)) 1 id) ∧
    (s.ready n.val false = true → noWatch s n.val → o.sb = [] → o.getP (24 + i.val) = 0 → o.getP (8 + i.val) = 4 →
      p.toNat % 4 = 0 → p.toNat + 36 ≤ 0x8000 →
      Does (.pushl n i) s fun t => OnlyHearth n.val s t ∧
        (t.hearth n.val).loops = [] ∧ (t.hearth n.val).pc = o.npc ∧ (t.hearth n.val).stat = o.stat ∧
        (∀ x, (t.hearth n.val).getP x = if x = i.val then p + 36 else o.getP x) ∧
        (∀ r, (t.hearth n.val).getG r = o.settleShadows.getG r) ∧
        (∀ a, a < p.toNat ∨ p.toNat + 36 ≤ a →
          tabGet zeroByte (t.hearth n.val).ram a = tabGet zeroByte o.ram a) ∧
        ∀ j, j < 9 → loadFinds (t.hearth n.val) (p.toNat + 4 * j) .w (imageWord o.loops.reverse j).toNat) ∧
    (s.ready n.val false = true → noWatch s n.val → o.sb = [] → (∀ j, 1 ≤ j → j ≤ 9 → sound (at' j)) →
      (word (at' 9)).toNat % 8 ≤ 4 →
      Retires n (.popl n i) s .seq 9 (fun k => { k.setP i.val (at' 9) with
        loops := ((List.range ((word (at' 9)).toNat % 8)).map fun e =>
          let w := (word (at' (8 - 2 * e))).toNat
          ⟨w % 4096, w / 2 ^ 12 % 4096, (word (at' (7 - 2 * e))).toNat, decide (w / 2 ^ 24 % 2 = 1), w / 2 ^ 25 % 16⟩).reverse }))

/-- STAT with every field of a saved word but wcur, wres, ldepth and frame (R245, R246). -/
def statOf (t : Stat) (w : Word) : Stat :=
  { t with z := w.getLsbD 0, n := w.getLsbD 1, c := w.getLsbD 2, v := w.getLsbD 3, sat := w.getLsbD 4, ie := w.getLsbD 5,
           trap := w.getLsbD 6, annul := w.getLsbD 7 }

/-- TRAP enters the trap past itself, RETT and RETI return, and the forms that R242 to R246 forbid trap (R224, R228, R234,
R242, R245, R246, R248, R261, R279). Where a clause goes beyond these rules it is the model's choice (log entries 11 and 13).
-/
def Obligations.TrapsAndReturns : Prop :=
  ∀ (n : HearthId) (s : State) (imm : BitVec 16) (q p : Bool) (t : Fin 4096) (rd rs : GReg) (nr : Fin 32),
    let o := s.hearth n.val
    let here (i : Instr) (cause : Nat) : Prop := Traps n i s o 2 cause 0 0 o.pc o.npc
    (s.ready n.val true = true → o.stat.trap = true →
      Retires n (.rett n) s (.jump o.xpc o.xnpc) 1 (fun k => { k with stat := statOf k.stat o.xstat })) ∧
    (s.ready n.val true = true → o.stat.trap = false →
      Traps n (.trap n imm) s o 3 3 (imm.zeroExtend 32) 0 o.npc ((o.npc + 1) % 4096) ∧
      here (.rett n) 4 ∧
      (o.stat.wres ≠ 1 → Retires n (.reti n) s (.jump o.spc o.snpc) 1
        (fun k => { k with stat := rotatedBack (statOf k.stat o.sstat) })) ∧
      (o.stat.wres = 1 → here (.reti n) 2 ∧ here (.ret n q p) 2) ∧
      (o.stat.wres = 5 → here (.call n q t) 1) ∧
      (t.val ≤ o.pc → here (.loop n rs t) 4 ∧ here (.loopi n t t) 4) ∧
      (o.pc < t.val → t.val ≠ 0 → o.loops.length = 4 → here (.loopi n t t) 11)) ∧
    (s.ready n.val false = true → o.stat.trap = false → 24 ≤ nr.val →
      here (.sysr n rd nr) 4 ∧ here (.sysw n nr rs) 4)

/-- Reserved words trap, a trap within a trap halts the Hearth, interrupts and imprecise errors enter at the boundary (R231,
R236, R246, R248, R249, R261, R224, R240, R244, R247, R250). Where a clause goes beyond these rules it is the model's choice
(log entries 11 and 15). -/
def Obligations.TrapsBeforeAndAroundInstructions : Prop :=
  (∀ (n : HearthId) (s : State) (w : Word) (x : AccNo) (rs rt : GReg) (f : Bool),
     let o := s.hearth n.val
     (s.ready n.val false = true → s.quiet = true → o.stat.trap = false → decodeHearth n w = none →
       Traps n (.reservedEncoding n w) s o 2 4 0 0 o.pc o.npc) ∧
     (s.ready n.val false = true → o.stat.trap = false → (Instr.macx n x rs rt f).wellFormed = false →
       Traps n (.macx n x rs rt f) s o 2 4 0 0 o.pc o.npc) ∧
     (s.ready n.val true = true → o.stat.trap = true → Does (.reti n) s fun t =>
       t = s.settle (({ s with regs := t.regs, hearths := t.hearths } : State).raise (193 + n.val)) ∧
       (∀ m, m ≠ n.val → t.hearth m = s.hearth m) ∧
       t.hearth n.val = { o.settleShadows with sent := false, pace := o.pace.entered (s.paceOn n.val) 2 } ∧
       SameRegs s t [HRT_CTRL n.val, HRT_FAULT n.val, HRT_FAULT_VAL n.val] ∧ t.running n.val = false ∧
       (if s.bit (HRT_FAULT n.val) HRT_FAULT_valid then
         t.reg (HRT_FAULT n.val) = HRT_FAULT_halted.set (s.reg (HRT_FAULT n.val)) 1
       else t.reg (HRT_FAULT n.val) = HRT_FAULT_halted.set (s.faultWord n.val 14 o.xcause false o.pc) 1))) ∧
  (∀ (n : HearthId) (s : State) (a : Nat) (r : Option Resp),
     let o := s.hearth n.val
     let on := s.paceOn n.val
     let base := s.fld (HRT_VEC n.val) HRT_VEC_ibase
     (s.awake = true → s.executes n.val = true → s.running n.val = true → o.stat.ie = true → o.stat.trap = false →
       s.irqPend n.val &&& s.reg (HRT_IRQ_EN n.val) ≠ 0 → o.imprecise = none → o.stalled = none →
       (o.stat.wres ≠ 5 → Does (.interruptEntry n false) s fun t => OnlyHearth n.val s t ∧
         t.hearth n.val = { o.settleShadows with
           stat := { rotated o.stat with ie := false, annul := false }, spc := o.pc, snpc := o.npc,
           sstat := ({ o with stat := rotated o.stat } : Hearth).statWord, pc := base, npc := (base + 1) % 4096,
           inSlot := false, stalled := none, bpSkip := false, pace := o.pace.entered on 2 }) ∧
       (o.stat.wres = 5 → Traps n (.interruptEntry n false) s o 2 1 0 0 o.pc o.npc)) ∧
     (s.awake = true → s.executes n.val = true → o.sent = false → o.stat.trap = false → o.wpHit = none →
       o.stepping = false → o.haltDue = false → (o.bpSkip = false → s.breakpoint n.val o.pc = none) → o.imprecise = some (a, r) →
       Traps n (.impreciseTrap n) s { o with imprecise := none } 2
         (match r with | some _ => 7 | none => 8) (BitVec.ofNat 32 a)
         (match r with | some e => respCode e + 8 | none => 8) o.pc o.npc) ∧
     (s.awake = true → s.pwr.xoLost = false → s.running n.val = true →
       s.fld (HRT_WDOG n.val) HRT_WDOG_limit ≠ 0 →
       s.fld (HRT_WDOG n.val) HRT_WDOG_limit ≤ s.fld (HRT_WDOG n.val) HRT_WDOG_count →
       Does (.watchdogExpiry n) s fun t =>
         t = s.settle (({ s with regs := t.regs } : State).raise (193 + n.val)) ∧
         t.fld (HRT_WDOG n.val) HRT_WDOG_count = 0 ∧
         t.fld (HRT_WDOG n.val) HRT_WDOG_limit = s.fld (HRT_WDOG n.val) HRT_WDOG_limit ∧
         SameRegs s t [HRT_WDOG n.val, HRT_FAULT n.val, HRT_FAULT_VAL n.val] ∧
         (if s.bit (HRT_FAULT n.val) HRT_FAULT_valid then t.reg (HRT_FAULT n.val) = s.reg (HRT_FAULT n.val)
          else t.reg (HRT_FAULT n.val) = s.faultWord n.val 15 0 false o.pc)))

/-- WAITS returns a latched sample, FENCE retires when everything has completed, NOP does nothing (R21, R32, R33, R223, R241,
R253, R264, R285). -/
def Obligations.WaitsFenceAndNop : Prop :=
  ∀ (n : HearthId) (s : State) (rd : GReg) (k : Nat), s.ready n.val false = true →
    let o := s.hearth n.val
    let stalls (i : Instr) : Prop := Does i s fun t => OnlyHearth n.val s t ∧
      t.hearth n.val = { o.settleShadows with stalled := some i, bpSkip := true }
    Retires n (.nop n) s .seq 1 id ∧
    (s.paceWaits n.val = false → o.latch = some k → o.armed = none → o.zcDue = false →
      Retires n (.waits n rd) s .seq 1 (fun h =>
        ({ h with latch := none, ctag := k % 256, rally := BitVec.ofNat 32 k } : Hearth).setG rd.val (BitVec.ofNat 32 k))) ∧
    (s.paceWaits n.val = false → o.latch = none → stalls (.waits n rd)) ∧
    (o.sb = [] → s.drained n.val = true → Retires n (.fence n) s .seq 1 id) ∧
    (o.sb ≠ [] ∨ s.drained n.val = false → stalls (.fence n))

/-- A WAITS at or after the armed sample swaps every changed slot and records tag and lateness (R253). -/
def Obligations.ArmedSwapAtWaits : Prop :=
  ∀ (n : HearthId) (s : State) (rd rm : GReg) (k N window : Nat) (q : QueueNo) (tok : Token) (rest : List Token),
    let o := s.hearth n.val
    let late (g : Nat) := (g + 256 - N % 256) % 256
    let swapped (v : Slot) : Slot :=
      if v.changed then (if v.zc then { v with changed := false, zcPend := true } else { v with act := v.sh, changed := false })
      else v
    let swaps (i : Instr) (g : Nat) : Prop := Does i s fun t =>
      (∀ j, (t.hearth n.val).slot j = swapped (o.slot j)) ∧ (t.hearth n.val).armed = none ∧
      ((∃ j, (o.slot j).changed = true ∧ (o.slot j).zc = true) → (t.hearth n.val).zcLeft = window) ∧
      ((∀ j, (o.slot j).changed = true → (o.slot j).zc = false) → (t.hearth n.val).zcLeft = o.zcLeft) ∧
      SameRegs s t [HRT_PARAM_LAST n.val, HRT_PARAM_STAT n.val] ∧
      t.fld (HRT_PARAM_LAST n.val) HRT_PARAM_LAST_tag = g ∧
      t.fld (HRT_PARAM_LAST n.val) HRT_PARAM_LAST_lateness = late g ∧
      t.bit (HRT_PARAM_STAT n.val) HRT_PARAM_STAT_swapped = true ∧
      (late g ≠ 0 → t.bit (HRT_PARAM_STAT n.val) HRT_PARAM_STAT_late = true) ∧
      (t.hearth n.val).ctag = g
    let stays (i : Instr) (g : Nat) : Prop := Does i s fun t => OnlyHearth n.val s t ∧
      (∀ j, (t.hearth n.val).slot j = o.slot j) ∧ (t.hearth n.val).armed = some (N, window) ∧ (t.hearth n.val).ctag = g
    s.ready n.val false = true → o.armed = some (N, window) → o.zcDue = false → s.paceOn n.val = false →
    (o.latch = some k →
      (late (k % 256) < 128 → swaps (.waits n rd) (k % 256)) ∧ (128 ≤ late (k % 256) → stays (.waits n rd) (k % 256))) ∧
    (o.queue q.val = tok :: rest → tok.kind = .audio → tok.stag < 256 → (rd ≠ rm ∨ rd.val = 0) →
      (late tok.stag < 128 → swaps (.recv n rd rm q) tok.stag) ∧
      (128 ≤ late tok.stag → stays (.recv n rd rm q) tok.stag))

/-- SEND and SENDT enqueue a token, RECV takes one, PEEK and QSTAT look (R21, R197, R217, R223, R237, R286, R287). Where a
clause goes beyond these rules it is the model's choice (log entry 18). -/
def Obligations.TokensSentAndReceived : Prop :=
  ∀ (n : HearthId) (s : State) (rs rt rd rm : GReg) (ctag : Fin 4096) (kind : Fin 16) (q : QueueNo) (w : Bool) (tok : Token)
    (rest : List Token), s.ready n.val false = true →
    let o := s.hearth n.val
    let stalls (i : Instr) : Prop := Does i s fun t => OnlyHearth n.val s t ∧
      t.hearth n.val = { o.settleShadows with stalled := some i, bpSkip := true }
    let gate := s.bit (HRT_FENCE n.val) HRT_FENCE_gate
    let formed (stag : Nat) : Token := ⟨if kind.val = 0 then .audio else .event, stag, ctag.val, o.getG rs.val⟩
    let word : Word := BitVec.ofNat 32 (tok.stag + tok.ctag * 2 ^ 8 + kindCode tok.kind * 2 ^ 20)
    let take (h : Hearth) : Hearth := (h.setG rd.val tok.payload).setG rm.val word
    ((kind.val = 0 ∨ kind.val = 2) → gate = false → o.out.length < 8 →
      Retires n (.send n rs ctag kind) s .seq 1 (fun h => { h with out := h.out ++ [formed o.ctag] }) ∧
      Retires n (.sendt n rs rt ctag kind) s .seq 1
        (fun h => { h with out := h.out ++ [formed ((o.getG rt.val).toNat % 256)] })) ∧
    ((kind.val = 0 ∨ kind.val = 2) → (gate = true ∨ 8 ≤ o.out.length) →
      stalls (.send n rs ctag kind) ∧ stalls (.sendt n rs rt ctag kind)) ∧
    (kind.val ≠ 0 → kind.val ≠ 2 → o.stat.trap = false →
      Traps n (.send n rs ctag kind) s o 2 10 0 0 o.pc o.npc ∧ Traps n (.sendt n rs rt ctag kind) s o 2 10 0 0 o.pc o.npc) ∧
    ((rd ≠ rm ∨ rd.val = 0) →
      (s.paceQueue n.val q.val = false → o.armed = none → o.zcDue = false → o.queue q.val = tok :: rest →
        Retires n (.recv n rd rm q) s .seq 1 (fun h =>
          take (if tok.kind = .audio then { h.setQueue q.val rest with ctag := tok.stag } else h.setQueue q.val rest))) ∧
      (s.paceQueue n.val q.val = false → o.queue q.val = [] → stalls (.recv n rd rm q)) ∧
      (o.queue q.val = tok :: rest →
        Retires n (.peek n rd rm q w) s .seq 1 (fun h => { take h with stat := { h.stat with z := false } })) ∧
      (o.queue q.val = [] →
        Retires n (.peek n rd rm q false) s .seq 1 (fun h =>
          { (h.setG rd.val 0).setG rm.val 0 with stat := { h.stat with z := true } }) ∧
        stalls (.peek n rd rm q true))) ∧
    Retires n (.qstat n rd) s .seq 1 (fun h => h.setG rd.val (BitVec.ofNat 32
      ((o.queue 0).length % 16 + (o.queue 1).length % 16 * 2 ^ 4 + (o.queue 2).length % 16 * 2 ^ 8 +
        (o.queue 3).length % 16 * 2 ^ 12 + o.out.length % 16 * 2 ^ 16)))

/-- STALL_CLEAR tries the stalled instruction again: it retires if what it waits for has come (R234, R237, R286, R287, R288).
Where a clause goes beyond these rules it is the model's choice (log entry 15). -/
def Obligations.StalledInstructionsGoOn : Prop :=
  ∀ (n : HearthId) (s : State) (rs rd rm : GReg) (ctag : Fin 4096) (kind : Fin 16) (q : QueueNo) (steps : BitVec 16),
    let o := s.hearth n.val
    s.awake = true → s.quiet = true →
    (o.stalled = none → exec (.stallClear n steps) s = .next s) ∧
    (s.executes n.val = true → o.imprecise = none → o.bpSkip = true → o.stat.annul = false → o.wpHit = none →
      o.stepping = false → o.haltDue = false → tabGet falseAt o.progBad o.pc = false → (o.atLoopEnd = false ∨ o.inSlot = false) →
      (o.stalled = some (.send n rs ctag kind) → (kind.val = 0 ∨ kind.val = 2) →
        s.bit (HRT_FENCE n.val) HRT_FENCE_gate = false → o.out.length < 8 →
        Does (.stallClear n steps) s fun t => OnlyHearth n.val s t ∧
          t.hearth n.val = { ({ o.settleShadows with
              out := o.out ++ [⟨if kind.val = 0 then .audio else .event, o.ctag, ctag.val, o.getG rs.val⟩] } : Hearth).advance
              o.pc o.npc .seq with
            stalled := none, bpSkip := false,
            pace := (o.pace.work (s.paceOn n.val) steps.toNat).work (s.paceOn n.val) 1 }) ∧
      (o.stalled = some (.recv n rd rm q) → (rd ≠ rm ∨ rd.val = 0) → o.queue q.val = [] →
        Does (.stallClear n steps) s fun t => OnlyHearth n.val s t ∧
          t.hearth n.val = { o.settleShadows with
            bpSkip := true,
            pace := if s.paceQueue n.val q.val then o.pace else o.pace.work (s.paceOn n.val) steps.toNat }))

/-- An Assist result: ASR, dz, dom. -/
def issueTo (r : Word) (dz dom : Bool) (k : Hearth) : Hearth := { k with assist := some ⟨r, dz, dom, false⟩ }

/-- The saturated value of a sign. -/
def endOf (neg : Bool) : Word := if neg then 0x80000000 else 0x7FFFFFFF

/-- DIV to EXP2 issue to an idle Assist with the results of R289; a busy one stalls issues and reads, its end writes ASR and
flags (R239, R289, R237, R240, R290). Where a clause goes beyond these rules it is the model's choice (log entries 3 and 10).
-/
def Obligations.AssistUnit : Prop :=
  (∀ (n : HearthId) (s : State) (rs rt : GReg), s.ready n.val false = true → (s.hearth n.val).assist = none →
     let o := s.hearth n.val
     let a := o.getG rs.val
     let b := o.getG rt.val
     let x := a.toInt
     let y := b.toInt
     let gives (i : Instr) (r : Word) (dz dom : Bool) : Prop := Retires n i s .seq 1 (issueTo r dz dom)
     let q := Int.tdiv (x * 2 ^ 31) y
     (b = 0 → ∀ int, gives (.div n int rs rt) (endOf (decide (x < 0))) true false) ∧
     (b ≠ 0 → y.natAbs ≤ x.natAbs → gives (.div n false rs rt) (endOf (decide (x < 0) != decide (y < 0))) false true) ∧
     (b ≠ 0 → x.natAbs < y.natAbs → gives (.div n false rs rt) (BitVec.ofInt 32 q) false false) ∧
     (x = -2 ^ 31 → y = -1 → gives (.div n true rs rt) 0x7FFFFFFF false true) ∧
     (b ≠ 0 → ¬(x = -2 ^ 31 ∧ y = -1) → gives (.div n true rs rt) (BitVec.ofInt 32 (Int.tdiv x y)) false false) ∧
     (x = 0 → gives (.rcp n rs) 0x7FFFFFFF true false) ∧
     (x ≠ 0 → x.natAbs < 2 ^ 30 → gives (.rcp n rs) (endOf (decide (x < 0))) false true) ∧
     (x = 2 ^ 30 → gives (.rcp n rs) 0x7FFFFFFF false false) ∧
     (2 ^ 30 ≤ x.natAbs → ∃ r : Word, gives (.rcp n rs) r false false ∧
       (x = 2 ^ 30 ∨ (r.toInt * x - 2 ^ 61).natAbs ≤ x.natAbs)) ∧
     (x < 0 → gives (.sqrt n rs) 0 false true) ∧
     (0 ≤ x → ∃ r : Word, gives (.sqrt n rs) r false false ∧
       x * 2 ^ 31 ≤ (r.toInt + 1) ^ 2 ∧ (1 ≤ r.toInt → (r.toInt - 1) ^ 2 ≤ x * 2 ^ 31)) ∧
     (x = 0 → gives (.rsq n rs) 0x7FFFFFFF true false) ∧
     (0 < x → x < 2 ^ 29 → gives (.rsq n rs) 0x7FFFFFFF false true) ∧
     (x < 0 → gives (.rsq n rs) 0 false true) ∧
     (x = 2 ^ 29 → gives (.rsq n rs) 0x7FFFFFFF false false) ∧
     (2 ^ 29 < x → ∃ r : Word, gives (.rsq n rs) r false false ∧
       2 ^ 91 ≤ (r.toInt + 1) ^ 2 * x ∧ (1 ≤ r.toInt → (r.toInt - 1) ^ 2 * x ≤ 2 ^ 91)) ∧
     (x ≤ 0 → gives (.log2 n rs) 0x80000000 false true) ∧
     (x = 2 ^ 31 - 1 → gives (.log2 n rs) 0xFFFFFFFF false false) ∧
     (0 < x → ∃ r : Word, gives (.log2 n rs) r false false ∧ -31 * 2 ^ 26 ≤ r.toInt ∧ r.toInt ≤ -1 ∧
       ∀ k : Nat, 2 ^ k ≤ x → x < 2 ^ (k + 1) →
         (k - 31) * 2 ^ 26 - 2 ≤ r.toInt ∧ r.toInt ≤ (k - 30) * 2 ^ 26 + 2 ∧ (x = 2 ^ k → r.toInt ≤ (k - 31) * 2 ^ 26 + 2)) ∧
     (0 < x → gives (.exp2 n rs) 0x7FFFFFFF false true) ∧
     (x = 0 → gives (.exp2 n rs) 0x7FFFFFFF false false) ∧
     (x < -31 * 2 ^ 26 → gives (.exp2 n rs) 0 false false) ∧
     (x ≤ 0 → ∃ r : Word, gives (.exp2 n rs) r false false ∧
       ∀ k : Nat, 1 ≤ k → k ≤ 31 → -(k : Int) * 2 ^ 26 ≤ x → x < (1 - (k : Int)) * 2 ^ 26 →
         2 ^ (31 - k) - 2 ≤ r.toInt ∧ r.toInt ≤ 2 ^ (32 - k) + 2 ∧
         (x = -(k : Int) * 2 ^ 26 → r.toInt ≤ 2 ^ (31 - k) + 2))) ∧
  (∀ (n : HearthId) (s : State) (rd rs rt : GReg) (int : Bool) (nr : Fin 32) (a : AssistOp),
     let o := s.hearth n.val
     let stalls (i : Instr) : Prop := Does i s fun t => OnlyHearth n.val s t ∧
       t.hearth n.val = { o.settleShadows with stalled := some i, bpSkip := true }
     (s.ready n.val false = true → o.assist = some a →
       stalls (.div n int rs rt) ∧ stalls (.rcp n rs) ∧ stalls (.sqrt n rs) ∧ stalls (.rsq n rs) ∧ stalls (.log2 n rs) ∧
       stalls (.exp2 n rs) ∧ stalls (.asrd n rd) ∧
       (nr.val = 13 ∨ nr.val = 14 → stalls (.sysr n rd nr) ∧ stalls (.sysw n nr rs))) ∧
     (s.ready n.val false = true → o.assist = none → Retires n (.asrd n rd) s .seq 1 (fun k => k.setG rd.val o.asr)) ∧
     (s.awake = true → o.assist = some a → Does (.assistComplete n) s fun t => OnlyHearth n.val s t ∧
       t.hearth n.val = if a.squashed then { o with assist := none }
         else { o with assist := none, asr := a.result, dz := o.dz || a.dz, dom := o.dom || a.dom }) ∧
     (s.awake = true → o.assist = none → Does (.assistComplete n) s fun t => OnlyHearth n.val s t ∧ t.hearth n.val = o))

/-- A component of A' or B' before saturation: (a + t) / 2^s rounded half-up to Q31, with t of 62 fraction bits (R292). -/
def bflyRound (a : Word) (t : Int) (s : Nat) : Int := (a.toInt * 2 ^ 31 + t + 2 ^ (30 + s)) / 2 ^ (31 + s)

/-- The word of data RAM at address a, as it reads. -/
def ramWord (h : Hearth) (a : Nat) : Word := BitVec.ofNat 32 (h.ramBytes a 4)

/-- BEXP, BFLY, SCL and ZAPPLY compute as R291 to R294 say (R227, R264, R291, R292, R293, R254, R294). -/
def Obligations.TransformInstructions : Prop :=
  ∀ (n : HearthId) (s : State) (rd rs rt : GReg) (i pa pb pw : PtrNo) (k : Fin 4) (sh : BitVec 5) (g : Fin 16),
    s.ready n.val false = true → noWatch s n.val →
    let o := s.hearth n.val
    let count := (o.getG rt.val).toNat
    let step (p : Word) : Word := postMod p (o.getP (8 + i.val)) (o.getP (16 + i.val)) (o.getP (24 + i.val))
    let place (j : Nat) : Nat := (Nat.repeat step j (o.getP i.val)).toNat
    let sound (a : Nat) : Prop := a % 4 = 0 ∧ a < 0x8000 ∧ o.wordErr a = 0
    let v := o.getG rs.val
    let e : Int := o.exp.toInt + sh.toInt
    let scaled : Int := if 0 ≤ e then v.toInt * 2 ^ e.toNat else if e ≤ -32 then 0 else (v.toInt + 2 ^ ((-e).toNat - 1)) / 2 ^ (-e).toNat
    let cross := v = 0 ∨ v.msb ≠ tabGet falseAt o.zcSign g.val
    let a := (o.getP pa.val).toNat
    let b := (o.getP pb.val).toNat
    let w := (o.getP pw.val).toNat
    let re (x : Nat) : Int := (ramWord o x).toInt
    let tr : Int := re w * re b - re (w + 4) * re (b + 4)
    let ti : Int := re w * re (b + 4) + re (w + 4) * re b
    let parts : List Int := [bflyRound (ramWord o a) tr k.val, bflyRound (ramWord o (a + 4)) ti k.val,
      bflyRound (ramWord o a) (-tr) k.val, bflyRound (ramWord o (a + 4)) (-ti) k.val]
    (count ≤ 1024 → o.sb = [] → (∀ j, j < count → sound (place j)) →
      ∃ m : Nat, Retires n (.bexp n rd i rt) s .seq (1 + count)
          (fun h => (h.setP i.val (Nat.repeat step count (o.getP i.val))).setG rd.val (BitVec.ofNat 32 m)) ∧
        (count = 0 → m = 31) ∧
        (∀ j, j < count → m ≤ leading (ramWord o (place j)).msb (ramWord o (place j)) - 1) ∧
        (0 < count → ∃ j, j < count ∧ m = leading (ramWord o (place j)).msb (ramWord o (place j)) - 1)) ∧
    (pa ≠ pb → k.val ≠ 3 → o.sb = [] → a % 8 = 0 → b % 8 = 0 → w % 8 = 0 → a < 0x8000 → b < 0x8000 → w < 0x8000 → a ≠ b →
      sound a → sound (a + 4) → sound b → sound (b + 4) → sound w → sound (w + 4) →
      Does (.bfly n pa pb pw k) s fun t => OnlyHearth n.val s t ∧
        (let h' := bumpPtr pw (bumpPtr pb (bumpPtr pa o.settleShadows))
         t.hearth n.val = { ({ h' with
              ram := (t.hearth n.val).ram, ramErr := (t.hearth n.val).ramErr,
              stat := { o.stat with sat := o.stat.sat || parts.any fun x => decide (x < -2 ^ 31) || decide (2 ^ 31 ≤ x) } } :
              Hearth).advance o.pc o.npc .seq with
            stalled := none, bpSkip := false, pace := o.pace.work (s.paceOn n.val) 10 }) ∧
        ramWord (t.hearth n.val) a = sumWord (parts.getD 0 0) true ∧
        ramWord (t.hearth n.val) (a + 4) = sumWord (parts.getD 1 0) true ∧
        ramWord (t.hearth n.val) b = sumWord (parts.getD 2 0) true ∧
        ramWord (t.hearth n.val) (b + 4) = sumWord (parts.getD 3 0) true ∧
        (∀ x, (x < a ∨ a + 8 ≤ x) → (x < b ∨ b + 8 ≤ x) →
          tabGet zeroByte (t.hearth n.val).ram x = tabGet zeroByte o.ram x) ∧
        ∀ x, (t.hearth n.val).wordErr x = o.wordErr x) ∧
    Retires n (.scl n rd rs sh) s .seq 1 (roundTo rd scaled) ∧
    Does (.zapply n rs g) s (fun t => OnlyHearth n.val s t ∧
      (t.hearth n.val).stat = o.stat ∧ (t.hearth n.val).g = o.settleShadows.g ∧ (t.hearth n.val).ram = o.ram ∧
      (∀ j, tabGet falseAt (t.hearth n.val).zcSign j = if j = g.val then v.msb else tabGet falseAt o.zcSign j) ∧
      (cross → ∀ j, (t.hearth n.val).slot j =
        if j / 16 = g.val ∧ (o.slot j).zcPend then { o.slot j with act := (o.slot j).sh, zcPend := false } else o.slot j) ∧
      (¬cross → (t.hearth n.val).slots = o.slots))

/-- STAT as R226 lays it out. -/
def statSeen (h : Hearth) : Word :=
  let bit (b : Bool) : Nat := if b then 1 else 0
  BitVec.ofNat 32 (bit h.stat.z + bit h.stat.n * 2 + bit h.stat.c * 4 + bit h.stat.v * 8 + bit h.stat.sat * 16 +
    bit h.stat.ie * 32 + bit h.stat.trap * 64 + bit h.stat.annul * 128 + h.stat.wcur * 2 ^ 8 + h.stat.wres * 2 ^ 11 +
    h.loops.length * 2 ^ 14 + h.stat.frame * 2 ^ 17)

/-- The system registers as SYSR of Hearth n reads them, by number (R228). -/
def sysSeen (s : State) (n : Nat) : List (Nat × Word) :=
  let o := s.hearth n
  let word := BitVec.ofNat 32
  let bit (b : Bool) : Nat := if b then 1 else 0
  [(0, statSeen o), (1, word o.spc), (2, word o.snpc), (3, o.sstat), (4, word o.xpc), (5, word o.xnpc), (6, o.xstat),
   (7, word o.xcause), (8, o.xval), (9, word o.xinfo), (10, word (s.fld (HRT_VEC n) HRT_VEC_xbase)),
   (11, word (s.fld (HRT_VEC n) HRT_VEC_ibase)), (12, word o.spill), (13, o.asr),
   (14, word (bit o.dz + bit o.dom * 2 + bit o.assist.isSome * 4)), (15, BitVec.ofInt 32 o.exp.toInt), (16, word o.ctag),
   (17, o.rally), (18, word ((s.reg (HRT_IRQ_PEND n)).toNat / 2 * 2 + bit (s.hearthLine n))), (19, 0), (20, 0), (21, 0), (22, 0),
   (23, word (n + bit (s.hearthSup n) * 2 ^ 8))]

/-- SYSR reads every register of R228; SYSW writes the writable ones, leaves the others, and rings, kicks and clears as named
(R223, R226, R228, R244, R290, R295, R225, R246, R250). Where a clause goes beyond these rules it is the model's choice (log
entries 12 and 13). -/
def Obligations.SystemRegisters : Prop :=
  (∀ (n : HearthId) (s : State) (rd : GReg) (nr : Fin 32), s.ready n.val false = true →
     let o := s.hearth n.val
     (∀ v, (nr.val, v) ∈ sysSeen s n.val → (o.assist = none ∨ (nr.val ≠ 13 ∧ nr.val ≠ 14)) →
       Retires n (.sysr n rd nr) s .seq 1 (fun k => k.setG rd.val v)) ∧
     (o.assist ≠ none → (nr.val = 13 ∨ nr.val = 14) → Does (.sysr n rd nr) s fun t => OnlyHearth n.val s t ∧
       t.hearth n.val = { o.settleShadows with stalled := some (.sysr n rd nr), bpSkip := true })) ∧
  (∀ (n : HearthId) (s : State) (nr : Fin 32) (rs : GReg), s.ready n.val false = true →
     let o := s.hearth n.val
     let v := o.getG rs.val
     let w := v.toNat
     let plain : List (Nat × (Hearth → Hearth)) :=
       [(0, fun k => { k with stat := { k.stat with
           z := v.getLsbD 0, n := v.getLsbD 1, c := v.getLsbD 2, v := v.getLsbD 3, sat := v.getLsbD 4, ie := v.getLsbD 5 } }),
        (1, fun k => { k with spc := w }), (2, fun k => { k with snpc := w }),
        (3, fun k => { k with sstat := BitVec.ofNat 32 w }),
        (4, fun k => { k with xpc := w }), (5, fun k => { k with xnpc := w }),
        (6, fun k => { k with xstat := BitVec.ofNat 32 w }), (7, id), (8, id), (9, id),
        (12, fun k => { k with spill := w / 64 * 64 }), (15, fun k => { k with exp := BitVec.ofNat 8 w }),
        (16, id), (17, id), (23, id)]
     let assist : List (Nat × (Hearth → Hearth)) :=
       [(13, fun k => { k with asr := v }), (14, fun k => { k with dz := v.getLsbD 0, dom := v.getLsbD 1 })]
     let vec (f : Fld) : Prop := RetiresWith n (.sysw n nr rs) s 1 id fun u => u.setFld (HRT_VEC n.val) f (w % 2 ^ 12)
     (∀ f, (nr.val, f) ∈ plain → Retires n (.sysw n nr rs) s .seq 1 f) ∧
     (∀ f, (nr.val, f) ∈ assist → o.assist = none → Retires n (.sysw n nr rs) s .seq 1 f) ∧
     (s.hearthSup n.val = true → (nr.val = 10 → vec HRT_VEC_xbase) ∧ (nr.val = 11 → vec HRT_VEC_ibase)) ∧
     (s.hearthSup n.val = false → o.stat.trap = false → (nr.val = 10 ∨ nr.val = 11) →
       Traps n (.sysw n nr rs) s o 2 5 0 0 o.pc o.npc) ∧
     (nr.val = 18 → RetiresWith n (.sysw n nr rs) s 1 id fun u =>
       u.setReg (HRT_IRQ_PEND n.val) (s.reg (HRT_IRQ_PEND n.val) &&& ~~~(v &&& 0xFE))) ∧
     (∀ i, i = .doorbell n ∨ (i = .sysw n nr rs ∧ nr.val = 21) → RetiresWith n i s 1 id fun u => u.raise (1 + n.val)) ∧
     (∀ i, i = .wdkick n ∨ (i = .sysw n nr rs ∧ nr.val = 22) →
       RetiresWith n i s 1 id fun u => u.setFld (HRT_WDOG n.val) HRT_WDOG_count 0))

/-- WSTOW moves the oldest resident window to the spill area and WFETCH brings one back, in 16 steps (R223, R224, R225, R228,
R231, R238). Where a clause goes beyond these rules it is the model's choice (log entries 16 and 174). -/
def Obligations.WindowsStowedAndFetched : Prop :=
  ∀ (n : HearthId) (s : State) (rs : GReg) (i j : Instr), s.ready n.val false = true →
    (i = .wstow n ∨ i = .sysw n 19 rs) → (j = .wfetch n ∨ j = .sysw n 20 rs) →
    let o := s.hearth n.val
    let u := o.settleShadows
    let next (t : State) (k : Hearth) : Prop := t.hearth n.val = { k.advance o.pc o.npc .seq with
      stalled := none, bpSkip := false, pace := o.pace.work (s.paceOn n.val) 16 }
    let key (w r : Nat) : Nat := 16 * w + r
    (o.stat.trap = false → Traps n i s o 2 4 0 0 o.pc o.npc ∧ Traps n j s o 2 4 0 0 o.pc o.npc) ∧
    (o.stat.trap = true → o.stat.wres = 1 → Retires n i s .seq 1 id) ∧
    (o.stat.trap = true → o.stat.wres = 5 → Retires n j s .seq 1 id) ∧
    (o.stat.trap = true → o.sb = [] → o.spill % 64 = 0 →
      (2 ≤ o.stat.wres → o.stat.wres ≤ 5 → o.stat.wcur < 5 →
        o.spill + 64 ≤ s.fld (HRT_SPILL_LIM n.val) HRT_SPILL_LIM_hi → Does i s fun t =>
        let w := (o.stat.wcur + 5 - (o.stat.wres - 1)) % 5
        OnlyHearth n.val s t ∧
        next t { u with ram := (t.hearth n.val).ram, ramErr := (t.hearth n.val).ramErr, spill := o.spill + 64,
                        stat := { o.stat with wres := o.stat.wres - 1 } } ∧
        (∀ a, tabGet zeroByte (t.hearth n.val).ram a =
          if o.spill ≤ a ∧ a < o.spill + 64 then
            BitVec.ofNat 8 ((tabGet zeroWord u.g (key w (16 + (a - o.spill) / 4))).toNat / 256 ^ ((a - o.spill) % 4))
          else tabGet zeroByte o.ram a) ∧
        ∀ a, (t.hearth n.val).wordErr a = if o.spill / 4 ≤ a / 4 ∧ a / 4 < o.spill / 4 + 16 then 0 else o.wordErr a) ∧
      (1 ≤ o.stat.wres → o.stat.wres ≤ 4 → o.stat.wcur < 5 →
        s.fld (HRT_SPILL_LIM n.val) HRT_SPILL_LIM_lo + 64 ≤ o.spill → o.spill ≤ 0x8000 →
        (∀ r, r < 16 → o.wordErr (o.spill - 64 + 4 * r) = 0) → Does j s fun t =>
        let w := (o.stat.wcur + 5 - o.stat.wres) % 5
        OnlyHearth n.val s t ∧
        next t { u with g := (t.hearth n.val).g, spill := o.spill - 64, stat := { o.stat with wres := o.stat.wres + 1 } } ∧
        ∀ x, tabGet zeroWord (t.hearth n.val).g x =
          if key w 16 ≤ x ∧ x < key w 32 then BitVec.ofNat 32 (o.ramBytes (o.spill - 64 + 4 * (x - key w 16)) 4)
          else tabGet zeroWord u.g x))

/-- Hearth n may read or write the Mantel bytes [lo, hi]: it is SUPERVISOR, or one enabled region of it that grants the right
holds them all (R44, R233). -/
def mayReach (s : State) (n lo hi : Nat) (write : Bool) : Prop :=
  s.hearthSup n = true ∨ ∃ r, r < 4 ∧ s.bit (HRT_MPR_BASE n r) HRT_MPR_BASE_en = true ∧
    s.bit (HRT_MPR_BASE n r) (if write then HRT_MPR_BASE_w else HRT_MPR_BASE_r) = true ∧
    s.fld (HRT_MPR_BASE n r) HRT_MPR_BASE_base * 64 ≤ lo ∧ hi ≤ s.fld (HRT_MPR_LIMIT n r) HRT_MPR_LIMIT_limit * 64 + 63

/-- The n bytes that an access at address a takes from its word, wrapping within it (R309). -/
def rotBytes (s : State) (a n : Nat) : Nat :=
  ((List.range n).map fun j => (s.mantelByte (a / 8 * 8 + (a + j) % 8)).toNat * 256 ^ j).sum

/-- Hearth n can issue an engine access at once: its gate is open, it has none that it waits for, no token of it waits to enter the
move plane, and the RAMs are open (R217, R276, R327). -/
def busReady (s : State) (n : Nat) : Prop :=
  s.ready n false = true ∧ s.quiet = true ∧ s.bit (HRT_FENCE n) HRT_FENCE_gate = false ∧ (s.hearth n).sent = false ∧
  s.ramOpen = true ∧ s.moutOf n = []

/-- Hearth n executes i, which has issued its access and finds the answer r to it (R237, R276). -/
def answered (s : State) (n : Nat) (i : Instr) (r : Reply) (rest : List (Waiter × Reply)) : Prop :=
  let o := s.hearth n
  s.awake = true ∧ s.quiet = true ∧ s.executes n = true ∧ o.stalled = some i ∧ o.sent = true ∧ o.bpSkip = true ∧
  o.stat.annul = false ∧ o.wpHit = none ∧ o.stepping = false ∧ o.haltDue = false ∧ tabGet falseAt o.progBad o.pc = false ∧
  (o.atLoopEnd = false ∨ o.inSlot = false) ∧ s.answers = (.load n, r) :: rest

/-- The Hearth's part of an instruction that retires in one step, in sequence. -/
def retired (n : Nat) (s t : State) (f : Hearth → Hearth) : Prop :=
  (∀ m, m ≠ n → t.hearth m = s.hearth m) ∧
  t.hearth n = { (f (s.hearth n).settleShadows).advance (s.hearth n).pc (s.hearth n).npc .seq with
    stalled := none, bpSkip := false, pace := (s.hearth n).pace.work (s.paceOn n) 1 }

/-- The node of the memory station that an access goes to: the Mantel bank address[7:4], else memory station 0 (R195, R229). -/
def mantelNode (a : Nat) : Nat := if a < 0x800000 then (if a / 16 % 16 < 8 then 0xE2 + a / 16 % 16 else 0xE6 + a / 16 % 16) else 0xE2

/-- In t Hearth n has sent the access x on the move plane, or the copy of `copy`: its command and data tokens wait at the L input,
in order, and it stands last among the accesses of the Hearth (R196, R229). -/
def sends (s t : State) (n : Nat) (x : Access) (copy : Option (Nat × Nat)) (waits : Bool) : Prop :=
  let tok (w : Word) : Token := ⟨.move, n, mantelNode x.addr, w⟩
  let toks := tok (BitVec.ofNat 32 x.addr) :: match copy, x.write with
    | some c, _ => [tok (BitVec.ofNat 32 c.1)]
    | none, none => []
    | none, some v => tok (v.truncate 32) :: if x.size = .b64 then [tok (BitVec.ofNat 32 (v.toNat / 2 ^ 32))] else []
  t = { s with hearths := t.hearths, flue := { s.flue with moves := t.flue.moves, mout := t.flue.mout } } ∧
  (∃ id, t.moves n = s.moves n ++ [⟨id, x, copy.map fun c => (c.1, c.2, none), waits, .going toks.length⟩]) ∧
  (∀ m, m ≠ n → t.moves m = s.moves m) ∧ ∀ m, t.moutOf m = if m = n then toks else s.moutOf m

/-- i issues the access x and waits for its answer. -/
def asks (s t : State) (n : Nat) (i : Instr) (x : Access) : Prop :=
  sends s t n x none true ∧ (∀ m, m ≠ n → t.hearth m = s.hearth m) ∧
  t.hearth n = { (s.hearth n).settleShadows with sent := true, stalled := some i, bpSkip := true }

/-- Writes rd, and for 64 bits its pair partner (R276). -/
def pairTo (rd : GReg) (sz : AccSize) (v : Nat) (k : Hearth) : Hearth :=
  if sz = .b64 then (k.setG rd.val (BitVec.ofNat 32 v)).setG (rd.val + 1) (BitVec.ofNat 32 (v / 2 ^ 32))
  else k.setG rd.val (BitVec.ofNat 32 v)

/-- The value of rd, or of its pair (R276). -/
def pairOf' (h : Hearth) (rd : GReg) (sz : AccSize) : Nat :=
  (h.getG rd.val).toNat + (if sz = .b64 then (h.getG (rd.val + 1)).toNat * 2 ^ 32 else 0)

/-- An engine address that Hearth n may access: outside the Mantel, or within its regions (R233). -/
def passes (s : State) (n lo hi : Nat) (write : Bool) : Prop := 0x800000 ≤ lo ∨ mayReach s n lo hi write

/-- LDM, ROTM, STM and MOVE issue their accesses on the move plane; LDM and ROTM take the answer, rotated and merged (R41,
R223, R233, R237, R276, R277, R278). Where a clause goes beyond these rules it is the model's choice (log entries 14, 18 and
158). -/
def Obligations.EngineMemoryAccess : Prop :=
  (∀ (n : HearthId) (s : State) (rd ra : GReg) (off : BitVec 13) (sz : AccSize) (u : Bool) (w : Fin 256), busReady s n.val →
     let o := s.hearth n.val
     let a := (o.getG ra.val + off.signExtend 32).toNat
     let z := sizeBytes sz
     let src := (o.getG ra.val).toNat
     let dst := (o.getG rd.val).toNat
     let k := 8 * (w.val + 1)
     let read : Access := ⟨a, sz, none, true⟩
     let put : Access := ⟨a, sz, some (BitVec.ofNat 64 (pairOf' o rd sz)), true⟩
     let after : Access := ⟨(o.getG ra.val + off.signExtend 32 + 8).toNat, sz, none, true⟩
     ((Instr.ldm n rd ra off sz u).wellFormed = true → passes s n.val (a / 8 * 8) (a / 8 * 8 + 7) false →
       s.mustWait n.val read = false → Does (.ldm n rd ra off sz u) s fun t => asks s t n.val (.ldm n rd ra off sz u) read) ∧
     ((Instr.stm n rd ra off sz).wellFormed = true → passes s n.val (a / 8 * 8) (a / 8 * 8 + 7) true →
       Does (.stm n rd ra off sz) s fun t => sends s t n.val put none false ∧ retired n.val s t id) ∧
     ((Instr.rotm n rd ra off sz).wellFormed = true → passes s n.val a (a + z - 1) false →
       (a % 8 + z ≤ 8 → Retires n (.rotm n rd ra off sz) s .seq 1 id) ∧
       (8 < a % 8 + z → s.mustWait n.val after = false →
         Does (.rotm n rd ra off sz) s fun t => asks s t n.val (.rotm n rd ra off sz) after)) ∧
     (src % 8 = 0 → dst % 8 = 0 → src + k ≤ 0x800000 → dst + k ≤ 0x800000 → mayReach s n.val src (src + k - 1) false →
       mayReach s n.val dst (dst + k - 1) true → Does (.move n rd ra w) s fun t =>
         sends s t n.val ⟨src, .b64, none, true⟩ (some (dst, w.val + 1)) false ∧ retired n.val s t id)) ∧
  (∀ (n : HearthId) (s : State) (rd ra : GReg) (off : BitVec 13) (sz : AccSize) (u : Bool) (r : Reply)
     (rest : List (Waiter × Reply)), respErr r.resp = false →
     let o := s.hearth n.val
     let a := (o.getG ra.val + off.signExtend 32).toNat
     let z := sizeBytes sz
     let v := r.data.toNat
     let low := v % 256 ^ z
     let old := pairOf' o rd sz
     let keep := 256 ^ (8 - a % 8)
     let takes (i : Instr) (f : Hearth → Hearth) : Prop := answered s n.val i r rest → Does i s fun t =>
       t = { s with hearths := t.hearths, answers := rest } ∧ retired n.val s t fun k => f { k with sent := false }
     ((Instr.ldm n rd ra off sz u).wellFormed = true → takes (.ldm n rd ra off sz u) fun k =>
       if u = false ∧ z < 4 then k.setG rd.val (BitVec.ofInt 32 (if low < 2 ^ (8 * z - 1) then low else low - 2 ^ (8 * z)))
       else pairTo rd sz low k) ∧
     ((Instr.rotm n rd ra off sz).wellFormed = true → passes s n.val a (a + z - 1) false → 8 < a % 8 + z →
       takes (.rotm n rd ra off sz) (pairTo rd sz (old % keep + low / keep * keep + old / 256 ^ z * 256 ^ z))))

/-- The last token of the one access of Hearth n on the move plane, `x`, stands at an inner input of the router of its memory
station and has its turn; nothing else waits there, and no answer is due to the router's Hearth (R195, R203, R229). -/
def reaches (s : State) (n r : HearthId) (q out : FPort) (x : Access) (waits : Bool) (id : Nat) (rest : List FTok) : Prop :=
  s.awake = true ∧ s.quiet = true ∧ s.ramOpen = true ∧ stationPlace (mantelNode x.addr - 0xC0) = (r.val, out) ∧ q ≠ .l ∧
  (neighbour r.val q).isSome = true ∧ s.outTurn true r.val q out = true ∧
  (∃ w b, s.bufOf true r.val q = ⟨⟨.move, n.val, mantelNode x.addr, w⟩, b, none⟩ :: rest) ∧
  (∀ st, planeStation true st = true → s.inboxOf st = []) ∧ (∀ o ∈ s.moves r.val, o.home = none) ∧
  s.moves n.val = [⟨id, x, none, waits, .going 1⟩]

/-- The memory station has made the access and sends its answer r in k tokens (Table: Move-plane tokens per Mantel access). -/
def answersWith (s t : State) (n r : HearthId) (q out : FPort) (x : Access) (waits : Bool) (id : Nat) (rest : List FTok)
    (a : Reply) (k : Nat) : Prop :=
  let st := mantelNode x.addr - 0xC0
  t.flue = { s.flue with bufs := t.flue.bufs, served := t.flue.served, stallSeen := t.flue.stallSeen, inbox := t.flue.inbox,
                         outbox := t.flue.outbox, moves := t.flue.moves } ∧
  (∀ m, t.moves m = if m = n.val then [⟨id, x, none, waits, .back k a⟩] else s.moves m) ∧
  (∀ j, t.inboxOf j = s.inboxOf j) ∧
  (∀ j, t.outboxOf j = if j = st then s.outboxOf st ++ List.replicate k ⟨.move, st, n.val + 2 * 2 ^ 8, a.data.truncate 32⟩
    else s.outboxOf j) ∧
  (∀ m k p, k < 192 → t.lastServed m k p = if (m, k, p) = (true, r.val, out) then portCode q else s.lastServed m k p) ∧
  ∀ m k p, k < 192 → t.bufOf m k p = if (m, k, p) = (true, r.val, q) then rest else s.bufOf m k p

/-- The last reply of master n is OK with a value of 64 bits, and the others stay. -/
def repliedTo (s t : State) (n : Nat) (v : BitVec 64) : Prop :=
  ∀ k, tabGet replyDefault t.replies k = if k = n then ⟨.ok, v⟩ else tabGet replyDefault s.replies k

/-- A memory station makes an access when its last token arrives, answers it, and the answer reaches the Hearth that waits
(R195, R196, R203, R204, R229, R276, R278, R309, R310). Where a clause goes beyond these rules it is the model's choice (log
entry 158). -/
def Obligations.MemoryStationsServe : Prop :=
  (∀ (n r : HearthId) (s : State) (q out : FPort) (a : Nat) (sz : AccSize) (d : Option (BitVec 64)) (waits : Bool) (id : Nat)
     (rest : List FTok), s.bit MEMC_INJ_CTRL MEMC_INJ_CTRL_arm = false → a < 0x800000 → s.flipsOf (a / 8) = 0 →
     let x : Access := ⟨a, sz, d, true⟩
     reaches s n r q out x waits id rest →
     let v := BitVec.ofNat 64 (rotBytes s a (sizeBytes sz))
     (d = none → Does (.tokenHop ⟨true, r⟩ q) s fun t => t = { s with flue := t.flue, replies := t.replies } ∧
       repliedTo s t n.val v ∧
       answersWith s t n r q out x waits id rest ⟨.ok, v⟩ (if sz = .b64 then 2 else 1)) ∧
     ∀ y, d = some y → Does (.tokenHop ⟨true, r⟩ q) s fun t =>
       t = { s with flue := t.flue, replies := t.replies, mantel := t.mantel, flips := t.flips } ∧
       repliedTo s t n.val 0 ∧ answersWith s t n r q out x waits id rest ⟨.ok, 0⟩ 1 ∧ (∀ k, t.flipsOf k = s.flipsOf k) ∧
       ∀ k, t.mantelByte k = if k / 8 = a / 8 ∧ (k + 8 - a % 8) % 8 < sizeBytes sz then
           BitVec.ofNat 8 (y.toNat / 256 ^ ((k + 8 - a % 8) % 8))
         else s.mantelByte k) ∧
  (∀ (n : HearthId) (s : State) (q : FPort) (w : Word) (b : Bool) (rest : List FTok) (id : Nat) (x : Access) (waits : Bool)
     (a : Reply), s.awake = true → s.quiet = true → q ≠ .l → (neighbour n.val q).isSome = true →
     s.outTurn true n.val q .l = true → (∀ st, planeStation true st = true → s.inboxOf st = []) →
     s.bufOf true n.val q = ⟨⟨.move, mantelNode x.addr - 0xC0, n.val + 2 * 2 ^ 8, w⟩, b, none⟩ :: rest →
     s.moves n.val = [⟨id, x, none, waits, .back 1 a⟩] →
     Does (.tokenHop ⟨true, n⟩ q) s fun t =>
       t = { s with flue := t.flue, answers := t.answers, hearths := t.hearths } ∧ t.moves n.val = [] ∧
       (∀ m, m ≠ n.val → t.hearth m = s.hearth m ∧ t.moves m = s.moves m) ∧
       t.answers = (if waits then s.answers ++ [(.load n.val, a)] else s.answers) ∧
       t.hearth n.val = (if waits = false ∧ respErr a.resp = true ∧ (s.hearth n.val).imprecise = none then
         { s.hearth n.val with imprecise := some (x.addr, some a.resp) } else s.hearth n.val)) ∧
  (∀ (n : HearthId) (s : State) (id src dst left : Nat) (bad : Option Nat) (c : Option (Nat × Nat × Option Nat)) (waits : Bool)
     (y : Access) (g : MoveStage), src % 8 = 0 → dst % 8 = 0 → src + 8 ≤ 0x800000 → dst + 8 ≤ 0x800000 →
     s.moves n.val = [⟨id, y, c, waits, g⟩] →
     let v := BitVec.ofNat 64 (rotBytes s src 8)
     let st := mantelNode src - 0xC0
     (s.flipsOf (src / 8) = 0 →
       let t := s.moveCopy n.val id src dst bad (left + 1)
       t = { s with flue := { s.flue with moves := t.flue.moves, outbox := t.flue.outbox } } ∧
       t.moves n.val = [⟨id, { y with addr := src }, some (dst, left + 1, bad), waits, .copying v⟩] ∧
       (∀ m, m ≠ n.val → t.moves m = s.moves m) ∧
       ∀ j, t.outboxOf j = if j = st then s.outboxOf st ++ [⟨.move, n.val, mantelNode dst + 2 ^ 8, v.truncate 32⟩]
         else s.outboxOf j) ∧
     (s.bit MEMC_INJ_CTRL MEMC_INJ_CTRL_arm = false → c = some (dst, 1, bad) → g = .copying v →
       let t := s.moveLand n.val ⟨id, y, c, waits, g⟩
       t = { s with flue := { s.flue with moves := t.flue.moves, outbox := t.flue.outbox }, mantel := t.mantel, flips := t.flips } ∧
       t.moves n.val = [⟨id, y, some (dst, 0, bad), waits, .back 1 ⟨if bad.isSome then .ecc else .ok, 0⟩⟩] ∧
       (∀ k, t.flipsOf k = if k = dst / 8 then 0 else s.flipsOf k) ∧
       ∀ k, t.mantelByte k = if dst ≤ k ∧ k < dst + 8 then s.mantelByte (src + (k - dst)) else s.mantelByte k))

/-- An LDM, ROTM, STM or MOVE outside the regions, a misaligned MOVE, and an access answered with an error take a BUS trap
(R43, R47, R50, R60, R233, R246, R247, R248, R276, R277, R278, R559). Where a clause goes beyond these rules it is the
model's choice (log entries 9, 11 and 14). -/
def Obligations.EngineAccessesRefused : Prop :=
  (∀ (n : HearthId) (s : State) (rd ra : GReg) (off : BitVec 13) (sz : AccSize) (u : Bool) (w : Fin 256), busReady s n.val →
    (s.hearth n.val).stat.trap = false →
    let o := s.hearth n.val
    let a := (o.getG ra.val + off.signExtend 32).toNat
    let src := (o.getG ra.val).toNat
    let dst := (o.getG rd.val).toNat
    let k := 8 * (w.val + 1)
    let traps (i : Instr) (x code size : Nat) (write : Bool) : Prop := Does i s fun t =>
      t = s.settle (({ s with regs := t.regs, hearths := t.hearths, fences := t.fences } : State).raise (193 + n.val)) ∧
      (∀ m, m ≠ n.val → t.hearth m = s.hearth m) ∧
      t.hearth n.val = { o.trapped (s.fld (HRT_VEC n.val) HRT_VEC_xbase) 7 (BitVec.ofNat 32 x) code o.pc o.npc with
        pace := o.pace.entered (s.paceOn n.val) 2 } ∧
      SameRegs s t [HRT_FAULT n.val, HRT_FAULT_VAL n.val, SYS_VIOL_COUNT, SYS_VIOL_ADDR, SYS_VIOL_INFO] ∧
      (if s.bit (HRT_FAULT n.val) HRT_FAULT_valid then
        t.reg (HRT_FAULT n.val) = s.reg (HRT_FAULT n.val) ∧ t.reg (HRT_FAULT_VAL n.val) = s.reg (HRT_FAULT_VAL n.val)
      else t.reg (HRT_FAULT n.val) = s.faultWord n.val 7 0 false o.pc ∧
        t.reg (HRT_FAULT_VAL n.val) = BitVec.ofNat 32 x) ∧
      (t.reg SYS_VIOL_COUNT).toNat = min ((s.reg SYS_VIOL_COUNT).toNat + 1) (2 ^ 32 - 1) ∧
      (if s.bit SYS_VIOL_INFO SYS_VIOL_INFO_valid then
        t.reg SYS_VIOL_ADDR = s.reg SYS_VIOL_ADDR ∧ t.reg SYS_VIOL_INFO = s.reg SYS_VIOL_INFO
      else t.reg SYS_VIOL_ADDR = BitVec.ofNat 32 x ∧ t.reg SYS_VIOL_INFO =
        BitVec.ofNat 32 (code + (if write then 8 else 0) + size * 16 + n.val * 2 ^ 8 + 2 ^ 31)) ∧
      ∀ m, tabGet fenceDefault t.fences m =
        let f := tabGet fenceDefault s.fences m
        if m = n.val ∧ write = true then ⟨if f.firstErr = 0 then code else f.firstErr, min (f.errCount + 1) 255⟩ else f
    let size : Nat := match sz with
      | .b8 => 0
      | .b16 => 1
      | .b32 => 2
      | .b64 => 3
    (a < 0x800000 → ¬mayReach s n.val (a / 8 * 8) (a / 8 * 8 + 7) false → (Instr.ldm n rd ra off sz u).wellFormed = true →
      traps (.ldm n rd ra off sz u) a 3 size false) ∧
    (a < 0x800000 → ¬mayReach s n.val (a / 8 * 8) (a / 8 * 8 + 7) true → (Instr.stm n rd ra off sz).wellFormed = true →
      traps (.stm n rd ra off sz) a 3 size true) ∧
    (a < 0x800000 → ¬mayReach s n.val a (a + sizeBytes sz - 1) false → (Instr.rotm n rd ra off sz).wellFormed = true →
      traps (.rotm n rd ra off sz) a 3 size false) ∧
    (src < 0x800000 → ¬mayReach s n.val src (src + k - 1) false → traps (.move n rd ra w) src 3 3 false) ∧
    (passes s n.val src (src + k - 1) false → dst < 0x800000 → ¬mayReach s n.val dst (dst + k - 1) true →
      traps (.move n rd ra w) dst 3 3 true) ∧
    (passes s n.val src (src + k - 1) false → passes s n.val dst (dst + k - 1) true → src % 8 ≠ 0 →
      traps (.move n rd ra w) src 1 3 false)) ∧
  (∀ (n : HearthId) (s : State) (rd ra : GReg) (off : BitVec 13) (sz : AccSize) (u : Bool) (r : Reply)
     (rest : List (Waiter × Reply)), respErr r.resp = true → (s.hearth n.val).stat.trap = false →
     let o := s.hearth n.val
     let a := (o.getG ra.val + off.signExtend 32).toNat
     (Instr.ldm n rd ra off sz u).wellFormed = true → answered s n.val (.ldm n rd ra off sz u) r rest →
     Does (.ldm n rd ra off sz u) s fun t =>
       t = s.settle (({ s with regs := t.regs, hearths := t.hearths, answers := rest } : State).raise (193 + n.val)) ∧
       (∀ m, m ≠ n.val → t.hearth m = s.hearth m) ∧
       t.hearth n.val = { ({ o with sent := false } : Hearth).trapped (s.fld (HRT_VEC n.val) HRT_VEC_xbase) 7 (BitVec.ofNat 32 a)
           (respCode r.resp) o.pc o.npc with
         pace := o.pace.entered (s.paceOn n.val) 2 } ∧
       Captures n.val s t 7 0 false o.pc (BitVec.ofNat 32 a))

/-- BALL claims a ball for the Hearth or reports its owner; BALL.r gives an owned ball back (R66, R68, R71, R229, R247,
R296). Where a clause goes beyond these rules it is the model's choice (log entries 18 and 158). -/
def Obligations.BallsOfHearths : Prop :=
  (∀ (n : HearthId) (s : State) (rd rs : GReg) (k : Byte), busReady s n.val →
    let o := s.hearth n.val
    let b := ((o.getG rs.val).toNat + k.toNat) % 256
    Does (.ball n rd rs k) s (fun t => asks s t n.val (.ball n rd rs k) ⟨SYS_BALL b, .b32, none, true⟩) ∧
    Does (.ballR n rs k) s (fun t => asks s t n.val (.ballR n rs k) ⟨SYS_BALL b, .b32, some 0, true⟩)) ∧
  (∀ (n : HearthId) (s : State) (rd rs : GReg) (k : Byte) (r : Reply) (rest : List (Waiter × Reply)), respErr r.resp = false →
    let takes (i : Instr) (f : Hearth → Hearth) : Prop := answered s n.val i r rest → Does i s fun t =>
      t = { s with hearths := t.hearths, answers := rest } ∧ retired n.val s t fun h => f { h with sent := false }
    takes (.ball n rd rs k) (fun h =>
      { h.setG rd.val (r.data.truncate 32) with stat := { h.stat with z := !r.data.getLsbD 31 } }) ∧
    takes (.ballR n rs k) id) ∧
  (∀ (n r : HearthId) (s : State) (q out : FPort) (b : Fin 256) (write waits : Bool) (id : Nat) (rest : List FTok),
    let x : Access := ⟨SYS_BALL b.val, .b32, if write then some 0 else none, true⟩
    reaches s n r q out x waits id rest →
    let lease := s.fld (SYS_BALL_LEASE b.val) SYS_BALL_LEASE_lease
    let does (v : Nat) (ball : Ball) : Prop := Does (.tokenHop ⟨true, r⟩ q) s fun t =>
      t = { s with flue := t.flue, replies := t.replies, balls := t.balls } ∧ repliedTo s t n.val (BitVec.ofNat 64 v) ∧
      answersWith s t n r q out x waits id rest ⟨.ok, BitVec.ofNat 64 v⟩ 1 ∧
      ∀ k, t.ball k = if k = b.val then ball else s.ball k
    (write = false →
      ((s.ball b.val).owner = none → does (n.val + 2 ^ 31) ⟨some n.val, lease, 0⟩) ∧
      ((s.ball b.val).owner = some n.val → does (n.val + 2 ^ 31) { s.ball b.val with count := 0 }) ∧
      ∀ m, m < 1024 → m ≠ n.val → (s.ball b.val).owner = some m → does m (s.ball b.val)) ∧
    (write = true → (s.ball b.val).owner = some n.val → does 0 ⟨none, 0, 0⟩))

/-- Every Hearth but n is in t as in s. -/
def othersStay (n : Nat) (s t : State) : Prop := ∀ m, m ≠ n → t.hearth m = s.hearth m

/-- Nothing but registers and the Hearths changes. -/
def hearthsOnly (t u : State) : State := { u with hearths := t.hearths }

/-- A slot that a VALUE writes: one that is zc-pending takes its shadow first (R252, R255). -/
def slotValued (x : Slot) (v : Word) (zc : Bool) : Slot :=
  ⟨if x.zcPend then x.sh else x.act, v, true, zc, false⟩

/-- What a VALUE to slot i leaves of Hearth n; k is the Hearth with the token taken (R252, R255). -/
def slotTakes (n i : Nat) (s t : State) (k : Hearth) (v : Word) (zc : Bool) : Prop :=
  othersStay n s t ∧ t.hearth n = { k with slots := (t.hearth n).slots } ∧
  (∀ j, (t.hearth n).slot j = if j = i then slotValued (k.slot i) v zc else k.slot j) ∧
  t.reg (HRT_PARAM_STAT n) =
    if (k.slot i).zcPend then HRT_PARAM_STAT_forced.set (s.reg (HRT_PARAM_STAT n)) 1 else s.reg (HRT_PARAM_STAT n)

/-- PARAM tokens and shadow writes stage slot values, arm and cancel the swap; the window of zc-pending slots ends (R252,
R253, R254, R255). -/
def Obligations.ParameterSlots : Prop :=
  ∀ (n : HearthId) (s : State) (m : Mid) (i : Fin 256) (v : Word) (tok : Token) (rest : List Token), s.awake = true →
    let o := s.hearth n.val
    let k : Hearth := { o with paramIn := rest }
    let p := tok.payload.toNat
    let kept (t : State) (f : Hearth) : Prop := othersStay n.val s t ∧ t.hearth n.val = f
    (o.paramIn = tok :: rest →
      (tok.ctag / 256 = 0 → Happens (.paramValue n) s [HRT_PARAM_STAT n.val] hearthsOnly fun t =>
        slotTakes n.val tok.stag s t k tok.payload false) ∧
      (tok.ctag / 256 = 1 → Happens (.paramValueZc n) s [HRT_PARAM_STAT n.val] hearthsOnly fun t =>
        slotTakes n.val tok.stag s t k tok.payload true) ∧
      (tok.ctag / 256 = 2 → Happens (.paramArm n) s [HRT_PARAM_STAT n.val] hearthsOnly fun t =>
        kept t { k with armed := some (p % 2 ^ 8, p / 2 ^ 8 % 2 ^ 12 + 1) } ∧
        t.reg (HRT_PARAM_STAT n.val) =
          if o.armed.isSome then HRT_PARAM_STAT_rearm.set (s.reg (HRT_PARAM_STAT n.val)) 1 else s.reg (HRT_PARAM_STAT n.val)) ∧
      (tok.ctag / 256 = 3 → Happens (.paramCancel n) s [] hearthsOnly fun t => kept t { k with armed := none })) ∧
    (s.isSup m.val = true → s.windowFree m.val = true → Accepts (.slotShadowWrite m n i v) s m.val 0 [HRT_PARAM_STAT n.val] hearthsOnly fun t =>
      slotTakes n.val i.val s t o v false) ∧
    ((∃ j, (o.slot j).zcPend = true) → o.zcLeft = 0 →
      Happens (.zcWindowExpiry n) s [] hearthsOnly fun t => kept t { o with zcDue := true })

/-- HRT_CTRL halts, resumes and resets a Hearth; the fence gate, IRQ_SET, the privilege words and a debug step act (R235,
R244, R249, R256, R257, R258, R259, R517). Where a clause goes beyond these rules it is the model's choice (log entry 15). -/
def Obligations.HearthsHaltedAndReset : Prop :=
  ∀ (n : HearthId) (s : State) (m : Mid) (i : Fin 6) (v : Word) (run : Bool), s.awake = true → s.isSup m.val = true →
    s.windowFree m.val = true →
    let o := s.hearth n.val
    let ctl := s.reg (HRT_CTRL n.val)
    let double := s.bit (HRT_FAULT n.val) HRT_FAULT_halted
    let rung (t u : State) : State := (hearthsOnly t u).raiseIf (s.bit (HRT_DBG_CTRL n.val) HRT_DBG_CTRL_irq) (1 + n.val)
    let halted : Hearth := { o.settleShadows with
      stalled := none, sent := false, haltDue := false, stepping := false, wpHit := none,
      pace := { o.pace with ended := none } }
    (s.running n.val = true → (o.sent = true ∨ s.stallOver n.val = true) →
      Accepts (.hearthHalt m n) s m.val 0 [] hearthsOnly fun t =>
        othersStay n.val s t ∧ t.hearth n.val = { o with haltDue := true }) ∧
    (s.running n.val = true → o.sent = false → s.stallOver n.val = false →
      Accepts (.hearthHalt m n) s m.val 0 [HRT_CTRL n.val, HRT_DBG_STAT n.val] rung fun t =>
        othersStay n.val s t ∧ t.hearth n.val = halted ∧ t.reg (HRT_CTRL n.val) = HRT_CTRL_run.set ctl 0 ∧
        t.reg (HRT_DBG_STAT n.val) = 1) ∧
    (s.running n.val = false → s.quiet = true →
      (double = false → Accepts (.hearthResume m n) s m.val 0 [HRT_CTRL n.val] hearthsOnly fun t =>
        othersStay n.val s t ∧ t.hearth n.val = { o with bpSkip := true, stepping := false, pcFresh := false } ∧
        t.reg (HRT_CTRL n.val) = HRT_CTRL_run.set ctl 1) ∧
      (double = true → Refuses (.hearthResume m n) s m.val (HRT_CTRL n.val) true)) ∧
    (s.running n.val = true → Refuses (.hearthReset m n run) s m.val (HRT_CTRL n.val) true) ∧
    (s.running n.val = false → o.sb = [] →
      Accepts (.hearthReset m n run) s m.val 0 [HRT_QDISC n.val, HRT_FAULT n.val] hearthsOnly fun t =>
        let h := t.hearth n.val
        let pc := s.fld (HRT_RESET_PC n.val) HRT_RESET_PC_pc
        othersStay n.val s t ∧
        h = { (hearthReset : Hearth) with
          pc := pc, npc := (pc + 1) % 4096, pcFresh := false, spill := s.fld (HRT_SPILL_LIM n.val) HRT_SPILL_LIM_lo, ram := o.ram,
          ramErr := o.ramErr, prog := o.prog, progBad := o.progBad, slots := h.slots, paramIn := o.paramIn, ctlIn := o.ctlIn,
          pace := o.pace } ∧
        (∀ x, h.getG x = 0 ∧ h.getP x = 0 ∧ h.getA x = 0 ∧ h.queue x = []) ∧
        h.stat = ⟨false, false, false, false, false, false, false, false, 0, 1, 0⟩ ∧
        h.spc = 0 ∧ h.snpc = 0 ∧ h.sstat = 0 ∧ h.xpc = 0 ∧ h.xnpc = 0 ∧ h.xstat = 0 ∧ h.ctag = 0 ∧ h.rally = 0 ∧
        h.latch = none ∧ h.armed = none ∧ h.loops = [] ∧ h.asr = 0 ∧ h.dz = false ∧ h.dom = false ∧ h.exp = 0 ∧
        (∀ g, tabGet falseAt h.zcSign g = false) ∧
        (∀ j, h.slot j = if (o.slot j).zcPend then { o.slot j with act := (o.slot j).sh, zcPend := false } else o.slot j) ∧
        (t.reg (HRT_QDISC n.val)).toNat = min ((s.reg (HRT_QDISC n.val)).toNat + ((o.queue 0).length + (o.queue 1).length +
          (o.queue 2).length + (o.queue 3).length + o.out.length)) (2 ^ 32 - 1) ∧
        t.reg (HRT_FAULT n.val) = HRT_FAULT_halted.set (s.reg (HRT_FAULT n.val)) 0) ∧
    Accepts (.fenceGate m n v) s m.val 0 [HRT_FENCE n.val] (fun _ u => u) (fun t =>
      t.bit (HRT_FENCE n.val) HRT_FENCE_gate = v.getLsbD 0) ∧
    Accepts (.irqSet m n v) s m.val 0 [HRT_IRQ_PEND n.val] (fun _ u => u) (fun t =>
      t.reg (HRT_IRQ_PEND n.val) = s.reg (HRT_IRQ_PEND n.val) ||| (v &&& 0xFE)) ∧
    Accepts (.privWrite m i v) s m.val 0 [SYS_HEARTH_PRIV i.val] (fun _ u => u) (fun t => t.reg (SYS_HEARTH_PRIV i.val) = v) ∧
    (s.quiet = true → s.ramOpen = true → s.running n.val = false → double = false → n.val ≠ 0 → o.stalled = none → o.imprecise = none →
      o.stat.annul = false → tabGet falseAt o.progBad o.pc = false → (o.atLoopEnd = false ∨ o.inSlot = false) →
      tabGet zeroWord o.prog o.pc = 0xBC000000 → o.wpHit = none →
      Accepts (.hrtDbgStep m n v) s m.val 0 [HRT_CTRL n.val, HRT_DBG_CTRL n.val, HRT_DBG_STAT n.val]
          (fun t u => (hearthsOnly t u).raiseIf (v.getLsbD 2) (1 + n.val)) fun t =>
        othersStay n.val s t ∧ t.running n.val = false ∧ t.reg (HRT_DBG_STAT n.val) = 2 ∧
        t.reg (HRT_DBG_CTRL n.val) = v &&& 6 ∧
        t.hearth n.val = { o.settleShadows.advance o.pc o.npc .seq with
          stalled := none, sent := false, haltDue := false, stepping := false, wpHit := none, bpSkip := false, pcFresh := false,
          pace := { o.pace.work (s.paceOn n.val) 1 with ended := none } })

/-- While a Hearth is halted HRT_DBG_DATA reads and writes the register that HRT_DBG_SEL chooses (R260, R262, R272, R518).
Where a clause goes beyond these rules it is the model's choice (log entry 17). -/
def Obligations.DebugRegistersOfHearths : Prop :=
  ∀ (n : HearthId) (s : State) (m : Mid) (v w : Word), s.awake = true → s.isSup m.val = true →
    s.windowFree m.val = true →
    let o := s.hearth n.val
    let code := s.fld (HRT_DBG_SEL n.val) HRT_DBG_SEL_code
    let win := s.fld (HRT_DBG_SEL n.val) HRT_DBG_SEL_sel_win
    let key (c : Nat) : Nat := if c < 16 then c else 16 * win + c
    let x := (code - 64) / 4
    let reads (v : Word) : Prop := Accepts (.hrtDbgData m n none) s m.val v [] (fun _ u => u) fun _ => True
    let writes (P : Hearth → Prop) : Prop := Accepts (.hrtDbgData m n (some v)) s m.val 0 [] hearthsOnly fun t =>
      othersStay n.val s t ∧ P (t.hearth n.val)
    (s.running n.val = true → Refuses (.hrtDbgData m n none) s m.val (HRT_DBG_DATA n.val) false ∧
      Refuses (.hrtDbgData m n (some v)) s m.val (HRT_DBG_DATA n.val) true) ∧
    (s.running n.val = false →
      (code = 0 → reads 0 ∧ writes fun h => h = o) ∧
      (0 < code → code < 32 → reads (tabGet zeroWord o.g (key code)) ∧
        writes fun h => h = { o with g := h.g } ∧
          ∀ k, tabGet zeroWord h.g k = if k = key code then v else tabGet zeroWord o.g k) ∧
      (32 ≤ code → code < 64 → reads (o.getP (code - 32)) ∧
        writes fun h => h = { o with ptr := h.ptr } ∧ ∀ p, h.getP p = if p = code - 32 then v else o.getP p) ∧
      (64 ≤ code → code < 80 →
        (code % 4 = 0 → reads ((o.getA x).extractLsb' 32 32)) ∧ (code % 4 = 1 → reads ((o.getA x).extractLsb' 0 32)) ∧
        (code % 4 = 2 → reads (((o.getA x).extractLsb' 64 16).signExtend 32) ∧
          writes fun h => h = { o with acc := h.acc } ∧ ∀ y, h.getA y =
            if y = x then v.extractLsb' 0 16 ++ (o.getA x).extractLsb' 0 64 else o.getA y)) ∧
      (96 ≤ code → (code - 96, w) ∈ sysSeen s n.val → reads w) ∧
      (128 ≤ code → (code - 128) / 2 < o.loops.length → reads (imageWord o.loops.reverse (code - 127))) ∧
      (code = 96 → (4 < v.toNat / 2 ^ 8 % 8 ∨ v.toNat / 2 ^ 11 % 8 = 0 ∨ 5 < v.toNat / 2 ^ 11 % 8) →
        Refuses (.hrtDbgData m n (some v)) s m.val (HRT_DBG_DATA n.val) true))

/-- A target lies at the address (R41): the Mantel, a Hearth window or a register block. -/
def targetAt (a : Nat) : Prop := a < 0x800000 ∨ (0x1000000 ≤ a ∧ a < 0x1C00000) ∨ (0x2000000 ≤ a ∧ a < 0x2120000)

/-- A bus access completes with DECERR, PERM or SLVERR in that order, or reaches its target with OK (R9, R10, R41, R43, R44,
R45, R47, R50, R59, R60, R309, R559). Where a clause goes beyond these rules it is the model's choice (log entries 7 and 9).
-/
def Obligations.AccessesAndResponses : Prop :=
  ∀ (m : Mid) (s : State) (a v : Word) (sz : AccSize) (w : Option (BitVec 64)) (d : BitVec 64) (n : HearthId),
    s.awake = true →
    let x := a.toNat
    let f := tabGet fenceDefault s.fences m.val
    let armed := s.bit MEMC_INJ_CTRL MEMC_INJ_CTRL_arm
    let fence : Access := ⟨HRT_FENCE n.val, .b32, some (v.zeroExtend 64), true⟩
    (s.windowFree m.val = false → Does (.fenceGate m n v) s fun t =>
      t = s.settle { s with jobs := s.jobs ++ [⟨m.val, [fence], false, [], .plain⟩] }) ∧
    (s.quiet = true →
      (¬targetAt x → Fails (.busAccess m a sz w) s m.val x sz w.isSome .decerr) ∧
      (targetAt x → 0x800000 ≤ x → m.val < 192 → s.hearthSup m.val = false → x ≠ SYS_FENCE →
        (x < 0x2001000 ∨ 0x2001800 ≤ x) → Fails (.busAccess m a sz w) s m.val x sz w.isSome .perm) ∧
      (targetAt x → 0x2000000 ≤ x → s.isSup m.val = true → (sz ≠ .b32 ∨ x % 4 ≠ 0) →
        Fails (.busAccess m a sz w) s m.val x sz w.isSome .slverr) ∧
      (s.isSup m.val = true → x < 0x800000 → s.ramOpen = true → s.flipsOf (x / 8) = 0 →
        (Does (.busAccess m a sz none) s fun t => t = { s with replies := t.replies } ∧
          repliedTo s t m.val (BitVec.ofNat 64 (rotBytes s x (sizeBytes sz)))) ∧
        (armed = false → Does (.busAccess m a sz (some d)) s fun t =>
          t = { s with replies := t.replies, mantel := t.mantel, flips := t.flips } ∧ repliedTo s t m.val 0 ∧
          (∀ y, t.flipsOf y = s.flipsOf y) ∧
          ∀ y, t.mantelByte y = if y / 8 = x / 8 ∧ (y + 8 - x % 8) % 8 < sizeBytes sz then
            BitVec.ofNat 8 (d.toNat / 256 ^ ((y + 8 - x % 8) % 8)) else s.mantelByte y)) ∧
      (s.isSup m.val = true →
        (x = HRT_IRQ_EN n.val → s.windowFree m.val = true →
          Accepts (.registerWrite m a v) s m.val 0 [HRT_IRQ_EN n.val] (fun _ u => u) fun t =>
            t.reg (HRT_IRQ_EN n.val) = (s.reg (HRT_IRQ_EN n.val) &&& 0xFFFFFF00) ||| (v &&& 0xFF)) ∧
        (x = SYS_VIOL_INFO → Accepts (.registerWrite m a v) s m.val 0 [SYS_VIOL_INFO] (fun _ u => u) fun t =>
          t.reg SYS_VIOL_INFO = s.reg SYS_VIOL_INFO &&& ~~~(v &&& 0x80000000)) ∧
        (x = SYS_VIOL_COUNT → Accepts (.busAccess m a .b32 none) s m.val (s.reg SYS_VIOL_COUNT) [SYS_VIOL_COUNT]
          (fun _ u => u) fun t => t.reg SYS_VIOL_COUNT = 0)) ∧
      (s.isSup m.val = true ∨ m.val < 192 → s.inFlight m.val = false →
        Accepts (.fenceRead m) s m.val (BitVec.ofNat 32 (f.firstErr + f.errCount * 2 ^ 8)) []
          (fun t u => { u with fences := t.fences }) fun t =>
          ∀ k, tabGet fenceDefault t.fences k = if k = m.val then ⟨0, 0⟩ else tabGet fenceDefault s.fences k))

/-- A read of a LO word takes a snapshot, a write of a HI word makes a load pending, and the load is taken (R53, R54, R55,
R57, R58, R111, R124, R491). Where a clause goes beyond these rules it is the model's choice (log entry 8). -/
def Obligations.WideCountersReadAndLoaded : Prop :=
  ∀ (m : Mid) (s : State) (w : WideVal) (c : WideCtr) (v : Word) (frac : BitVec 16) (y : Nat), s.awake = true →
    let key := wideKey (ctrVal c)
    let old := s.wideOf key
    let servo := s.srvState s.deuceActive
    let refused := (c = .tod ∧ (servo = 2 ∨ servo = 3)) ∨ (c = .rally ∧ s.rallySrc = 1)
    let only (t u : State) : State := { u with wide := t.wide }
    let others (t : State) (k : Nat) : Prop := ∀ j, j ≠ k → t.wideOf j = s.wideOf j
    (s.isSup m.val = true → s.noneWaits m.val = true →
      (Accepts (.counterLoRead m w) s m.val (BitVec.ofNat 32 (s.wideNow w)) [] only fun t =>
        others t (wideKey w) ∧ t.wideOf (wideKey w) = { s.wideOf (wideKey w) with shadow := s.wideNow w }) ∧
      (refused → Refuses (.counterHiWrite m c v) s m.val (ctrHi c) true) ∧
      (¬refused → Accepts (.counterHiWrite m c v) s m.val 0 [] only fun t =>
        others t key ∧ t.wideOf key = { old with
          staged0 := 0, staged1 := 0,
          load := some (old.staged0.toNat + (if c = .tod then old.staged1.toNat * 2 ^ 32 + v.toNat % 2 ^ 16 * 2 ^ 64
            else v.toNat % 2 ^ 16 * 2 ^ 32)) })) ∧
    (c = .rtc → old.load = some y → s.bit EMB_ALARM_HI EMB_ALARM_HI_en = false → s.bit EMB_XP_CFG EMB_XP_CFG_en = false →
      Happens (.counterLoad c frac) s [] (fun t u => { u with
          wide := t.wide, pwr := { s.pwr with rtc := y % 2 ^ 48, xp := { s.pwr.xp with hist := [] } } }) fun t =>
        others t key ∧ t.wideOf key = { old with load := none })

/-- Master m reaches the balls: a supervisor, or any Hearth (R45). -/
def reachesBalls (s : State) (m : Nat) : Prop := s.isSup m = true ∨ m < 192

/-- The rest but for the balls. -/
def ballsOnly (t u : State) : State := { u with balls := t.balls }

/-- Ball b becomes x, and the other balls stay. -/
def ballIs (s t : State) (b : Nat) (x : Ball) : Prop := ∀ k, t.ball k = if k = b then x else s.ball k

/-- A release by the owner frees the ball; a write of 0 by another returns PERM, any other value SLVERR (R68). -/
def Obligations.BallReleases : Prop :=
  ∀ (m : Mid) (b : Fin 256) (v : Word) (s : State), s.awake = true → reachesBalls s m.val → s.noneWaits m.val = true →
    (v = 0 → (s.ball b.val).owner = some m.val → Accepts (.ballRelease m b v) s m.val 0 [] ballsOnly fun t =>
      ballIs s t b.val ⟨none, 0, 0⟩) ∧
    (v = 0 → (s.ball b.val).owner ≠ some m.val → Fails (.ballRelease m b v) s m.val (SYS_BALL b.val) .b32 true .perm) ∧
    (v ≠ 0 → Fails (.ballRelease m b v) s m.val (SYS_BALL b.val) .b32 true .slverr)

/-- A read acquires a free ball, restarts the owner's lease or names the owner; leases and supervisors turn balls over (R66,
R67, R71, R72, R73, R74, R256, R257). Where a clause goes beyond these rules it is the model's choice (log entries 9 and
172). -/
def Obligations.BallsGrantedAndTurnedOver : Prop :=
  ∀ (m : Mid) (b : Fin 256) (v : Word) (s : State) (o : Nat), s.awake = true →
    let x := s.ball b.val
    let lease := s.fld (SYS_BALL_LEASE b.val) SYS_BALL_LEASE_lease
    let mine : Word := BitVec.ofNat 32 (m.val + 2 ^ 31)
    let acquires (w : Word) (y : Ball) : Prop := Accepts (.ballAcquire m b) s m.val w [] ballsOnly fun t => ballIs s t b.val y
    let turned (c : Nat) : State → Prop := fun t => ballIs s t c ⟨none, 0, 0⟩ ∧
      t.reg (SYS_BALL_TURNED (c / 32)) = s.reg (SYS_BALL_TURNED (c / 32)) ||| BitVec.ofNat 32 (2 ^ (c % 32))
    let info (c cause : Nat) (t : State) : Prop := t.reg SYS_BALL_TURN_INFO =
      if s.bit SYS_BALL_TURN_INFO SYS_BALL_TURN_INFO_valid then s.reg SYS_BALL_TURN_INFO
      else BitVec.ofNat 32 (c + o * 2 ^ 8 + cause * 2 ^ 18 + 2 ^ 31)
    let c := v.toNat % 256
    let still : Prop := s.running o = false ∧ s.bit (HRT_FENCE o) HRT_FENCE_gate = true ∧ s.drained o = true
    (reachesBalls s m.val → s.noneWaits m.val = true → (x.owner = none → acquires mine ⟨some m.val, lease, 0⟩) ∧
      (x.owner = some m.val → acquires mine { x with count := 0 }) ∧
      (x.owner = some o → o ≠ m.val → acquires (BitVec.ofNat 32 o) x)) ∧
    (s.pwr.xoLost = false → x.owner = some o → x.lease ≠ 0 → x.lease ≤ x.count →
      Happens (.leaseExpiry b) s [SYS_BALL_TURNED (b.val / 32), SYS_BALL_TURN_INFO] ballsOnly fun t =>
        turned b.val t ∧ info b.val 1 t) ∧
    (s.isSup m.val = true → s.noneWaits m.val = true →
      ((s.ball c).owner = none → Accepts (.forcedTurnover m v) s m.val 0 [] (fun _ u => u) fun _ => True) ∧
      ((s.ball c).owner = some o → (192 ≤ o ∨ still) →
        Accepts (.forcedTurnover m v) s m.val 0 [SYS_BALL_TURNED (c / 32), SYS_BALL_TURN_INFO] ballsOnly fun t =>
          turned c t ∧ info c 2 t) ∧
      ((s.ball c).owner = some o → o < 192 → ¬still →
        Fails (.forcedTurnover m v) s m.val SYS_BALL_TURNOVER .b32 true .perm))

/-- The Pace window ends, the late notice is counted, enabling restarts the record, and near is cleared in both places (R32,
R33, R34, R35, R36, R37, R38, R198). Where a clause goes beyond these rules it is the model's choice (log entry 171). -/
def Obligations.PaceMonitor : Prop :=
  ∀ (n : HearthId) (m : Mid) (s : State) (i : Fin 6) (v : Word) (tok : Token) (rest : List Token) (t0 : Nat), s.awake = true →
    let o := s.hearth n.val
    let j := n.val / 32
    let bit : Word := BitVec.ofNat 32 (2 ^ (n.val % 32))
    let window := 2 ^ max 4 (s.fld (HRT_PACE_CTRL n.val) HRT_PACE_CTRL_window)
    let min' := s.fld (HRT_PACE_MIN n.val) HRT_PACE_MIN_run_min
    let only (t : State) (f : Hearth) : Prop := othersStay n.val s t ∧ t.hearth n.val = f
    (s.pwr.xoLost = false → window ≤ o.pace.arrivals → Happens (.paceWindowEnd n) s [HRT_PACE_MIN n.val] hearthsOnly fun t =>
      only t { o with pace := { o.pace with arrivals := 0 } } ∧
      t.reg (HRT_PACE_MIN n.val) = BitVec.ofNat 32 (0xFFFF + min' * 2 ^ 16)) ∧
    (o.ctlIn = tok :: rest → tok.ctag / 256 = 0 →
      Happens (.paceLateNotice n) s [HRT_PACE_LATE n.val, HRT_PACE_STATUS n.val] hearthsOnly fun t =>
        only t { o with ctlIn := rest } ∧
        (t.reg (HRT_PACE_LATE n.val)).toNat = min ((s.reg (HRT_PACE_LATE n.val)).toNat + 1) (2 ^ 32 - 1) ∧
        t.reg (HRT_PACE_STATUS n.val) = HRT_PACE_STATUS_late.set (s.reg (HRT_PACE_STATUS n.val)) 1) ∧
    (s.isSup m.val = true → s.windowFree m.val = true →
      (s.paceOn n.val = false → HRT_PACE_CTRL_en.get v = 1 →
        Accepts (.paceEnable m n v) s m.val 0 [HRT_PACE_CTRL n.val, HRT_PACE_LAST n.val, HRT_PACE_MIN n.val] hearthsOnly fun t =>
          only t { o with pace := ⟨false, none, 0, 0⟩ } ∧ t.paceOn n.val = true ∧ t.reg (HRT_PACE_LAST n.val) = 0xFFFF ∧
          t.reg (HRT_PACE_MIN n.val) = 0xFFFFFFFF ∧
          t.fld (HRT_PACE_CTRL n.val) HRT_PACE_CTRL_window = HRT_PACE_CTRL_window.get v) ∧
      (v.getLsbD 0 = true →
        Accepts (.paceNearClear m (.hrt n) v) s m.val 0 [HRT_PACE_STATUS n.val, SYS_PACE_NEAR j] (fun _ u => u) fun t =>
          t.bit (HRT_PACE_STATUS n.val) HRT_PACE_STATUS_near = false ∧ t.reg (SYS_PACE_NEAR j) = s.reg (SYS_PACE_NEAR j) &&& ~~~bit) ∧
      Accepts (.paceNearClear m (.sys i) v) s m.val 0
        (SYS_PACE_NEAR i.val :: (List.range 32).map fun b => HRT_PACE_STATUS (32 * i.val + b)) (fun _ u => u) fun t =>
        t.reg (SYS_PACE_NEAR i.val) = s.reg (SYS_PACE_NEAR i.val) &&& ~~~v ∧
        ∀ b, b < 32 → t.reg (HRT_PACE_STATUS (32 * i.val + b)) =
          if v.getLsbD b then HRT_PACE_STATUS_near.set (s.reg (HRT_PACE_STATUS (32 * i.val + b))) 0
          else s.reg (HRT_PACE_STATUS (32 * i.val + b))) ∧
    (s.paceOn n.val = true → o.pace.started = true → o.pace.ended = some t0 → o.pace.steps < 2 ^ 16 → t0 ≤ s.now →
      let t := s.paceArrival n.val
      let slack := min (s.now - t0) 0xFFFF
      t = { s with regs := t.regs, hearths := t.hearths } ∧ only t { o with pace := ⟨true, none, 0, o.pace.arrivals + 1⟩ } ∧
      SameRegs s t [HRT_PACE_LAST n.val, HRT_PACE_MAXSTEPS n.val, HRT_PACE_MIN n.val, HRT_PACE_STATUS n.val, SYS_PACE_NEAR j] ∧
      t.reg (HRT_PACE_LAST n.val) = BitVec.ofNat 32 (slack + o.pace.steps * 2 ^ 16) ∧
      t.fld (HRT_PACE_MIN n.val) HRT_PACE_MIN_run_min = min min' slack ∧
      (t.bit (HRT_PACE_STATUS n.val) HRT_PACE_STATUS_near = true ↔
        s.bit (HRT_PACE_STATUS n.val) HRT_PACE_STATUS_near = true ∨
        slack < s.fld (HRT_PACE_THRESH n.val) HRT_PACE_THRESH_thresh))

/-- Nothing but the event controller, registers of the list and master m's reply changes. -/
def EvcTakes (i : Instr) (s : State) (m : Nat) (v : Word) (l : List Nat) (P : State → Prop) : Prop :=
  Does i s fun t => t = { s with regs := t.regs, replies := t.replies, evc := t.evc } ∧ SameRegs s t l ∧ Answers s t m v ∧ P t

/-- The stored state of a source. -/
def srcAt (s : State) (k : Nat) : SrcState := tabGet srcDefault s.evc.src k

/-- The stored state of source k becomes x, and that of every other source stays. -/
def srcIs (s t : State) (k : Nat) (x : SrcState) : Prop := ∀ j, srcAt t j = if j = k then x else srcAt s j

/-- The stack of target k becomes l, and that of every other target stays. -/
def stackIs (s t : State) (k : Nat) (l : List (Nat × Nat)) : Prop := ∀ j, t.stackOf j = if j = k then l else s.stackOf j

/-- Source n may be delivered to target t (R439, R445). -/
def delivers (s : State) (t n : Nat) : Prop :=
  sourceExists n = true ∧ s.bit (EVC_SRC_CFG n) EVC_SRC_CFG_en = true ∧ s.targetOf n = t ∧ s.srcState n = .pending ∧
  s.fld (tgtCfg t) EVC_TGT_CFG_H_floor ≤ s.prioOf n ∧ (∀ e ∈ (s.stackOf t).head?, e.2 < s.prioOf n) ∧ s.isFrozen t = false

/-- A raise moves an edge source on or counts as merged; configuration writes act at once or when ACTIVE is left (R433, R434,
R435, R437, R438, R450, R508). Where a clause goes beyond these rules it is the model's choice (log entry 42). -/
def Obligations.SourcesRaisedAndConfigured : Prop :=
  ∀ (m : Mid) (s : State) (n : Fin 512) (p : Fin 16) (t : Fin 8) (v : Word) (up : Bool) (h : Nat), s.awake = true →
    let edge : Prop := sourceExists n.val = true ∧ levelSource n.val = false ∧ gpioSource n.val = false
    let raised (P : State → Prop) : Prop := Does (.sourceRaise n true) s fun t =>
      t = { s with evc := t.evc } ∧ t.evc.stack = s.evc.stack ∧ t.evc.deferred = s.evc.deferred ∧ P t
    let cfg := EVC_TGT_CFG_H t.val
    let who := v.toNat % 256
    let en := v.getLsbD 8
    let old := s.reg (EVC_SRC_CFG n.val)
    let ctl := MSIX_CTRL (s.fld (EVC_TGT_CFG_X (h - 4)) EVC_TGT_CFG_X_vector)
    (edge →
      (srcAt s n.val = .idle → raised fun t => srcIs s t n.val .pending ∧ t.evc.merged = s.evc.merged) ∧
      (srcAt s n.val = .active → raised fun t => srcIs s t n.val .activeAgain ∧ t.evc.merged = s.evc.merged) ∧
      (srcAt s n.val = .pending ∨ srcAt s n.val = .activeAgain → raised fun t =>
        (∀ j, srcAt t j = srcAt s j) ∧ t.evc.merged = min (s.evc.merged + 1) (2 ^ 32 - 1)) ∧
      (4 ≤ h → h < 8 → s.tgtMsix h = true → s.line h = false → s.pcie.msixEn = true → s.pcie.busMaster = true →
        s.pcie.funcMask = false → s.pcie.d3hot = false → s.bit ctl MSIX_CTRL_mask = false → Does (.sourceRaise n true) s fun t =>
        let w := s.fld (EVC_TGT_CFG_X (h - 4)) EVC_TGT_CFG_X_vector
        t.line h = true → ⟨w, (s.reg (MSIX_TABLE w 0)).toNat + (s.reg (MSIX_TABLE w 1)).toNat * 2 ^ 32,
          (s.reg (MSIX_TABLE w 2)).toNat⟩ ∈ t.evc.msix)) ∧
    (gpioSource n.val = true → Does (.sourceRaise n up) s fun t =>
      t = { s with evc := t.evc, pins := { s.pins with gpio := t.pins.gpio } } ∧
      ∀ j, j < 32 → t.pins.gpio.getLsbD j = if j = n.val - 473 then up else s.pins.gpio.getLsbD j) ∧
    (s.isSup m.val = true → s.noneWaits m.val = true →
      (EvcTakes (.evcPendClear m p v) s m.val 0 [] fun t => ∀ j, srcAt t j =
        if j / 32 = p.val ∧ v.getLsbD (j % 32) = true ∧ s.isLevel j = false ∧ srcAt s j = .pending then .idle else srcAt s j) ∧
      (v.getLsbD 0 = true → srcAt s 472 = .idle → EvcTakes (.evcSoft m v) s m.val 0 [] fun t => srcIs s t 472 .pending) ∧
      (sourceExists n.val = true → gpioSource n.val = false →
        (s.srcState n.val = .idle ∨ s.srcState n.val = .pending →
          EvcTakes (.evcSrcCfgWrite m n v) s m.val 0 [EVC_SRC_CFG n.val] fun t =>
            (∀ j, srcAt t j = srcAt s j) ∧ t.reg (EVC_SRC_CFG n.val) = (old &&& ~~~0xFF) ||| (v &&& 0xFF)) ∧
        (s.srcState n.val = .active ∨ s.srcState n.val = .activeAgain →
          EvcTakes (.evcSrcCfgWrite m n v) s m.val 0 [] fun t => ∀ j, tabGet deferredDefault t.evc.deferred j =
            if j = n.val then some v else tabGet deferredDefault s.evc.deferred j)) ∧
      (gpioSource n.val = true → 5 ≤ v.toNat / 2 ^ 8 % 8 →
        Refuses (.evcSrcCfgWrite m n v) s m.val (EVC_SRC_CFG n.val) true) ∧
      (t.val < 4 → (192 ≤ who ∨ (en = true ∧ (s.hearthSup who = false ∨ ∃ u, u < 4 ∧ u ≠ t.val ∧
          s.bit (EVC_TGT_CFG_H u) EVC_TGT_CFG_H_en = true ∧ s.fld (EVC_TGT_CFG_H u) EVC_TGT_CFG_H_hearth = who)) ∨
          (s.stackOf t.val ≠ [] ∧ (who ≠ s.fld cfg EVC_TGT_CFG_H_hearth ∨ en ≠ s.bit cfg EVC_TGT_CFG_H_en))) →
        Refuses (.evcTgtCfgWrite m t v) s m.val cfg true) ∧
      (t.val < 4 → who < 192 → en = false → s.stackOf t.val = [] → EvcTakes (.evcTgtCfgWrite m t v) s m.val 0 [cfg] fun u =>
        u.reg cfg = (s.reg cfg &&& ~~~0xF01FF) ||| (v &&& 0xF01FF)) ∧
      (4 ≤ t.val → EvcTakes (.evcTgtCfgWrite m t v) s m.val 0 [EVC_TGT_CFG_X (t.val - 4)] fun u =>
        u.reg (EVC_TGT_CFG_X (t.val - 4)) = (s.reg (EVC_TGT_CFG_X (t.val - 4)) &&& ~~~0xF033F) ||| (v &&& 0xF033F)))

/-- A claim pushes the best deliverable source; a completion pops it; a wrong one freezes the target; a reset empties it
(R435, R439, R440, R441, R443, R444, R446). -/
def Obligations.ClaimsCompletionsAndOffsides : Prop :=
  ∀ (m : Mid) (s : State) (t : Fin 8) (v : Word) (n p : Nat) (rest : List (Nat × Nat)), s.awake = true → s.isSup m.val = true →
    s.noneWaits m.val = true →
    let best : Prop := n < 512 ∧ delivers s t.val n ∧
      ∀ k, k < 512 → delivers s t.val k → s.prioOf k < s.prioOf n ∨ (s.prioOf k = s.prioOf n ∧ n ≤ k)
    let left : SrcState := if srcAt s n = .activeAgain then .pending else .idle
    let edge : Prop := s.isLevel n = false ∧ tabGet deferredDefault s.evc.deferred n = none
    let exp : Nat := match s.stackOf t.val with
      | [] => 0
      | e :: _ => e.1
    (best → EvcTakes (.evcClaim m t) s m.val (BitVec.ofNat 32 (n + s.prioOf n * 2 ^ 16)) [] fun u =>
      srcIs s u n .active ∧ stackIs s u t.val ((n, s.prioOf n) :: s.stackOf t.val) ∧ u.evc.frozen = s.evc.frozen) ∧
    ((∀ k, k < 512 → ¬delivers s t.val k) → EvcTakes (.evcClaim m t) s m.val 0 [] fun u => u.evc = s.evc) ∧
    (s.isFrozen t.val = true → EvcTakes (.evcComplete m t v) s m.val 0 [] fun u => u.evc = s.evc) ∧
    (s.isFrozen t.val = false →
      (s.stackOf t.val = (n, p) :: rest → v.toNat % 512 = n → edge → EvcTakes (.evcComplete m t v) s m.val 0 [] fun u =>
        srcIs s u n left ∧ stackIs s u t.val rest ∧ u.evc.frozen = s.evc.frozen) ∧
      ((s.stackOf t.val = [] ∨ v.toNat % 512 ≠ exp) → srcAt s 471 = .idle →
        EvcTakes (.evcComplete m t v) s m.val 0 [EVC_OFFSIDE_INFO] fun u =>
          srcIs s u 471 .pending ∧ (∀ j, u.stackOf j = s.stackOf j) ∧
          (∀ j, u.isFrozen j = if j = t.val then true else s.isFrozen j) ∧
          u.reg EVC_OFFSIDE_INFO = if s.bit EVC_OFFSIDE_INFO EVC_OFFSIDE_INFO_valid then s.reg EVC_OFFSIDE_INFO
            else BitVec.ofNat 32 (v.toNat % 512 + exp * 2 ^ 16 + t.val * 2 ^ 28 + 2 ^ 31))) ∧
    (v.getLsbD 0 = true → (s.stackOf t.val = [(n, p)] → edge → EvcTakes (.stackReset m t v) s m.val 0 [] fun u =>
        srcIs s u n left ∧ stackIs s u t.val [] ∧ ∀ j, u.isFrozen j = if j = t.val then false else s.isFrozen j) ∧
      (s.stackOf t.val = [] → EvcTakes (.stackReset m t v) s m.val 0 [] fun u =>
        (∀ j, srcAt u j = srcAt s j) ∧ ∀ j, u.isFrozen j = if j = t.val then false else s.isFrozen j))

/-- Input p of router r of a plane holds what the list gives, and every other router input holds what it held. -/
def bufsAre (s t : State) (l : List ((Bool × Nat × FPort) × List FTok)) : Prop :=
  ∀ mv r p, r < 192 → t.bufOf mv r p = match l.find? (fun e => decide (e.1 = (mv, r, p))) with
    | some e => e.2
    | none => s.bufOf mv r p

/-- Output `out` of router r has served input `inp`; every other output's round robin stands where it stood (R203). -/
def servedIs (s t : State) (mv : Bool) (r : Nat) (out inp : FPort) : Prop :=
  ∀ m k p, k < 192 → t.lastServed m k p = if (m, k, p) = (mv, r, out) then portCode inp else s.lastServed m k p

/-- The Flue's buffers, its round robins and its stall marks change. -/
def hops (t u : State) : State :=
  { u with flue := { u.flue with bufs := t.flue.bufs, served := t.flue.served, stallSeen := t.flue.stallSeen } }

/-- A token enters from the Hearth with the active bank, goes on in its turn to the router its table names, and reaches its
sink (R194, R196, R199, R200, R201, R202, R203, R204, R205, R213, R214, R217). -/
def Obligations.TokensHopAndReachSinks : Prop :=
  (∀ (mv : Bool) (r : Nat) (inp out : FPort) (s : State),
    let place (p : FPort) : Nat := (portCode p + 4 - s.lastServed mv r out % 5) % 5
    s.outTurn mv r inp out = true ↔
      ∀ q f rest, q ≠ inp → s.bufOf mv r q = f :: rest → out ∈ s.waitsFor r q f → place inp < place q) ∧
  (∀ (r : HearthId) (inp out : FPort) (s : State) (f : FTok) (tok : Token) (rest : List FTok) (left : List Token) (r2 : Nat),
    s.awake = true → s.quiet = true → inp ≠ .l → (neighbour r.val inp).isSome = true → out ≠ .l →
    let o := s.hearth r.val
    let entry (g : FTok) : Nat := s.routeEntry g.bank r.val g.tok.ctag
    let names (g : FTok) (i p : FPort) : Prop := entry g / 2 ^ portCode p % 2 = 1 ∧ allowedOut r.val i p = true
    let only (g : FTok) (i p : FPort) : Prop := ∀ x, names g i x ↔ x = p
    let g : FTok := ⟨tok, s.activeBank, none⟩
    let table (k : TokKind) : Prop := k = .audio ∨ k = .event
    let hop := Instr.tokenHop ⟨false, r⟩ inp
    let q := entry f / 2 ^ 5 % 4
    let here : (Bool × Nat × FPort) × List FTok := ((false, r.val, inp), rest)
    let waits (p : FPort) (t : State) : Prop := bufsAre s t [((false, r.val, inp), { f with outs := some [p] } :: rest)] ∧
      ∀ m k p, t.lastServed m k p = s.lastServed m k p
    (neighbour r.val out = some r2 → o.out = tok :: left → table tok.kind → s.bit (HRT_FENCE r.val) HRT_FENCE_gate = false →
      s.bufOf false r.val .l = [] → only g .l out → (s.bufOf false r2 (opposite out)).length < 2 →
      s.outTurn false r.val .l out = true →
      Happens (.tokenHop ⟨false, r⟩ .l) s [] (fun t u => hops t (hearthsOnly t u)) fun t =>
        othersStay r.val s t ∧ t.hearth r.val = { o with out := left } ∧ servedIs s t false r.val out .l ∧
        bufsAre s t [((false, r2, opposite out), s.bufOf false r2 (opposite out) ++ [g])]) ∧
    (s.bufOf false r.val inp = f :: rest → f.outs = none →
      (table f.tok.kind → only f inp out → neighbour r.val out = some r2 → (r2, opposite out) ≠ (r.val, inp) →
        ((s.bufOf false r2 (opposite out)).length < 2 → s.outTurn false r.val inp out = true →
          Happens hop s [] hops fun t => servedIs s t false r.val out inp ∧
            bufsAre s t [here, ((false, r2, opposite out), s.bufOf false r2 (opposite out) ++ [f])]) ∧
        (2 ≤ (s.bufOf false r2 (opposite out)).length ∨ s.outTurn false r.val inp out = false →
          Happens hop s [] hops (waits out))) ∧
      (table f.tok.kind → only f inp .l → s.paceOn r.val = false →
        ((o.queue q).length < 8 → s.outTurn false r.val inp .l = true →
          Happens hop s [] (fun t u => hops t (hearthsOnly t u)) fun t =>
            othersStay r.val s t ∧ t.hearth r.val = { o with q := (t.hearth r.val).q } ∧
            (∀ j, (t.hearth r.val).queue j = if j = q then o.queue q ++ [f.tok] else o.queue j) ∧
            servedIs s t false r.val .l inp ∧ bufsAre s t [here]) ∧
        (8 ≤ (o.queue q).length → Happens hop s [] hops (waits .l))) ∧
      (∀ st, table f.tok.kind → only f inp out → neighbour r.val out = none → stationAt false r.val out = some st →
        s.outTurn false r.val inp out = true →
        Happens hop s [] (fun t u => hops t { u with flue := { u.flue with inbox := t.flue.inbox } }) fun t =>
          bufsAre s t [here] ∧ servedIs s t false r.val out inp ∧
          ∀ j, t.inboxOf j = if j = st then s.inboxOf st ++ [f.tok] else s.inboxOf j) ∧
      (table f.tok.kind → (∀ x, ¬names f inp x) → Happens hop s [FLUE_MIS_COUNT, FLUE_MIS_INFO] hops fun t =>
        bufsAre s t [here] ∧
        (t.reg FLUE_MIS_COUNT).toNat = min ((s.reg FLUE_MIS_COUNT).toNat + 1) (2 ^ 32 - 1) ∧
        t.reg FLUE_MIS_INFO = if s.bit FLUE_MIS_INFO FLUE_MIS_INFO_valid then s.reg FLUE_MIS_INFO
          else BitVec.ofNat 32 (r.val + portCode inp * 2 ^ 8 + kindCode f.tok.kind * 2 ^ 12 + f.tok.ctag * 2 ^ 16 + 2 ^ 31)) ∧
      (f.tok.kind = .param → f.tok.ctag % 256 = r.val → f.tok.ctag / 256 < 4 → s.outTurn false r.val inp .l = true →
        Happens hop s [] (fun t u => hops t (hearthsOnly t u)) fun t =>
          othersStay r.val s t ∧ t.hearth r.val = { o with paramIn := o.paramIn ++ [f.tok] } ∧
          servedIs s t false r.val .l inp ∧ bufsAre s t [here])))

/-- Route tables are written in the shadow bank, swapped when due, and copied when the old bank is out of use (R127, R205,
R206, R207, R208, R216). -/
def Obligations.RouteTablesSwapped : Prop :=
  ∀ (m : Mid) (n r : HearthId) (w : Fin 1024) (v : Word) (s : State) (out inp : FPort) (tag : Fin 4096) (late mv : Bool) (f : FTok)
    (rest : List FTok), s.awake = true →
    let ctl := s.reg FLUE_RT_CTRL
    let stat := s.reg FLUE_RT_STAT
    let armed := s.routeArmed
    let bank := s.activeBank
    let copying := s.routeCopying
    let key := (s.reg FLUE_RT_KEY_LO).toNat + s.fld FLUE_RT_KEY_HI FLUE_RT_KEY_HI_key * 2 ^ 32
    let past := (key + 2 ^ 48 - s.rallyCount) % 2 ^ 48 = 0 ∨ 2 ^ 47 ≤ (key + 2 ^ 48 - s.rallyCount) % 2 ^ 48
    let marks (l : Bool) (_ u : State) : State := { u with flue := { u.flue with swapLate := l, swapDue := none } }
    let seen := tabGet noPorts s.flue.stallSeen (bufKey mv r.val inp)
    (s.isSup m.val = true → s.windowFree m.val = true →
      (armed = false → copying = false → Accepts (.routeShadowWrite m n w v) s m.val 0 []
        (fun t u => { u with flue := { u.flue with routes := t.flue.routes } }) fun t => ∀ b i tag, i < 192 → tag < 4096 →
          t.routeEntry b i tag = if b = !bank ∧ i = n.val ∧ tag / 4 = w.val then v.toNat / 256 ^ (tag % 4) % 128
            else s.routeEntry b i tag) ∧
      (armed = true ∨ copying = true → Refuses (.routeShadowWrite m n w v) s m.val (HRT_ROUTE_SH n.val w.val) true)) ∧
    (s.isSup m.val = true → s.noneWaits m.val = true →
      (v.toNat % 4 = 1 → copying = false → armed = false → ∀ l : Bool, (l = true ↔ past) →
        Accepts (.routeSwapArm m v) s m.val 0 [FLUE_RT_CTRL] (marks l) fun t =>
          t.reg FLUE_RT_CTRL = FLUE_RT_CTRL_arm.set ctl 1) ∧
      (v.toNat % 4 = 3 ∨ (v.toNat % 4 = 1 ∧ copying = true) → Refuses (.routeSwapArm m v) s m.val FLUE_RT_CTRL true) ∧
      Accepts (.routeSwapCancel m) s m.val 0 [FLUE_RT_CTRL] (marks false) fun t =>
        t.reg FLUE_RT_CTRL = FLUE_RT_CTRL_arm.set ctl 0) ∧
    (s.pwr.xoLost = false → s.pwr.hold = false → s.flue.swapDue = some late →
      Happens .routeSwap s [FLUE_RT_CTRL, FLUE_RT_STAT] (marks false) fun t =>
        t.reg FLUE_RT_CTRL = FLUE_RT_CTRL_arm.set ctl 0 ∧ t.activeBank = !bank ∧ t.routeCopying = true ∧
        t.bit FLUE_RT_STAT FLUE_RT_STAT_late = (late || s.bit FLUE_RT_STAT FLUE_RT_STAT_late) ∧
        t.bit FLUE_RT_STAT FLUE_RT_STAT_done = s.bit FLUE_RT_STAT FLUE_RT_STAT_done) ∧
    (copying = true → (∀ e ∈ s.flue.routes, e.1 < 2 * 192 * 4096) →
      (∀ e ∈ s.flue.bufs, ∀ x ∈ e.2, (x.tok.kind = .audio ∨ x.tok.kind = .event) → x.bank = bank) →
      Happens .routeCopyComplete s [FLUE_RT_STAT] (fun t u => { u with flue := { u.flue with routes := t.flue.routes } }) fun t =>
        (∀ b i tag, i < 192 → tag < 4096 → t.routeEntry b i tag = s.routeEntry bank i tag) ∧
        t.reg FLUE_RT_STAT = FLUE_RT_STAT_done.set (FLUE_RT_STAT_copying.set stat 0) 1) ∧
    (s.pwr.xoLost = false → s.fld FLUE_STALL FLUE_STALL_limit ≠ 0 → s.bufOf mv r.val inp = f :: rest → f.tok.ctag = tag.val →
      out ∈ s.waitsFor r.val inp f → out ∉ seen → Happens (.flueStall mv r out inp tag) s [FLUE_STALL_COUNT, FLUE_STALL_INFO]
        (fun t u => { u with flue := { u.flue with stallSeen := t.flue.stallSeen } }) fun t =>
        (∀ k, tabGet noPorts t.flue.stallSeen k =
          if k = bufKey mv r.val inp then out :: seen else tabGet noPorts s.flue.stallSeen k) ∧
        (t.reg FLUE_STALL_COUNT).toNat = min ((s.reg FLUE_STALL_COUNT).toNat + 1) (2 ^ 32 - 1) ∧
        t.reg FLUE_STALL_INFO = if s.bit FLUE_STALL_INFO FLUE_STALL_INFO_valid then s.reg FLUE_STALL_INFO
          else BitVec.ofNat 32 (r.val + portCode out * 2 ^ 8 + (if mv then 2 ^ 11 else 0) + kindCode f.tok.kind * 2 ^ 12 +
            tag.val * 2 ^ 16 + 2 ^ 31))

/-- The rest but for the RSG's own state. -/
def rsgOnly (t u : State) : State := { u with rsg := t.rsg }

/-- The rest but for the RSG's own state and the count of free values. -/
def rsgDrawn (t u : State) : State := { u with rsg := t.rsg, freeCtr := t.freeCtr }

/-- Candidate c is absent with the measurement m; the speed of MEDIUM is the engine's own (R79, R80, R102, R359). -/
def rsgAbsent (s : State) (c : Nat) (m : CandMeas) : Prop :=
  (∀ x : CandMeas, (c < 14 → x = m) → s.candPresent c x = false) ∨
  (14 ≤ c ∧ c ≤ 17 ∧
    let nom : Int := (s.reg (RSG_MED_NOM (c - 14))).toNat
    16 * nom * (s.limitOf 4 + 1) ≤ ((s.reg (MIF_SPEED (c - 14))).toInt * 1000000000 - 16000000 * nom).natAbs)

/-- The first of entries 0 to 7 that is enabled and names a qualified candidate, FREE among them (R82, R105). -/
def firstQualified (t : State) (e : Nat) : Prop :=
  let ok (f : Nat) : Prop := RSG_PRIO_en.get (t.entryWord f) = 1 ∧
    (RSG_PRIO_cand.get (t.entryWord f) = 0 ∨ (t.cand (RSG_PRIO_cand.get (t.entryWord f))).qual = 1)
  e < 8 ∧ ok e ∧ ∀ f, f < e → ¬ok f

/-- An evaluation takes the table, disqualifies what is absent, and makes the transition its state and selection give (R80,
R81, R82, R84, R89, R90, R92, R93, R94, R95, R97, R105). Where a clause goes beyond these rules it is the model's choice (log
entries 19, 21, 23, 161 and 162). -/
def Obligations.ReferenceSelection : Prop :=
  ∀ (s : State) (meas : List CandMeas) (phase e : Nat), s.awake = true → s.pwr.xoLost = false → s.inLight = false →
    let en := s.bit RSG_CTRL RSG_CTRL_en
    let st := s.fld RSG_STATE RSG_STATE_state
    let act := s.fld RSG_STATE RSG_STATE_entry
    let active : Prop := st = 1 ∨ st = 2
    Happens (.rsgEvaluation meas phase) s
      ([RSG_STATE, RSG_STATUS, RSG_HOLD_ELAPSED] ++ (List.range 19).map RSG_CAND_STAT ++ (List.range 19).map RSG_CAND_OFFS)
      rsgDrawn fun t =>
      let cand := s.fld RSG_STATE RSG_STATE_cand
      let win := s.fld RSG_LOCK RSG_LOCK_window
      let within : Prop := if cand = 1 then 256 * max s.rsg.phase s.rallyErr.natAbs ≤ win * tsUnits else phase ≤ win
      let locks : Prop := st = 1 ∧ within ∧ s.fld RSG_LOCK RSG_LOCK_time ≤ min (s.rsg.lockSpan + 1) 65535
      let free : Prop := ∃ f, f < 8 ∧ RSG_PRIO_en.get (t.entryWord f) = 1 ∧ RSG_PRIO_cand.get (t.entryWord f) = 0
      let now := t.fld RSG_STATE RSG_STATE_state
      let lost : Prop := active ∧ ¬(RSG_PRIO_en.get (t.entryWord act) = 1 ∧
        RSG_PRIO_cand.get (t.entryWord act) = cand ∧
        (cand = 0 ∨ (t.cand cand).qual = 1))
      let valid : Prop := s.fld RSG_HOLD_CFG RSG_HOLD_CFG_guard + 60 ≤ s.rsg.hist.length
      (s.bit RSG_CTRL RSG_CTRL_tbl_freeze = false → ∀ f, f < 8 → t.entryWord f = s.reg (RSG_PRIO f)) ∧
      (s.bit RSG_CTRL RSG_CTRL_tbl_freeze = true → ∀ f, t.entryWord f = s.entryWord f) ∧
      (∀ c m, 1 ≤ c → c ≤ 18 → meas[c - 1]? = some m → rsgAbsent s c m → (s.cand c).seen = true →
        (t.cand c).qual = 2 ∧ ((s.cand c).qual = 1 → t.bit RSG_STATUS RSG_STATUS_qual = true)) ∧
      (active → RSG_PRIO_en.get (t.entryWord act) = 0 → (s.cand cand).qual = 1 →
        (t.cand cand).qual = 2 ∧ t.bit RSG_STATUS RSG_STATUS_qual = true) ∧
      (en = true → locks → ¬free → now = 2 ∧ t.fld RSG_STATE RSG_STATE_entry = act ∧ t.fld RSG_STATE RSG_STATE_cand = cand ∧
        t.bit RSG_STATE RSG_STATE_ever_locked = true) ∧
      t.rsg.w = s.rsg.w ∧ t.rsg.wHold = s.rsg.wHold ∧ t.rsg.hist = s.rsg.hist ∧
      (now ≠ st → t.bit RSG_STATUS RSG_STATUS_state_chg = true ∧ (now = 4 → t.bit RSG_STATUS RSG_STATUS_lost = true)) ∧
      (en = false → now = 0) ∧
      (en = true → ¬active → firstQualified t e →
        if RSG_PRIO_cand.get (t.entryWord e) = 0 then now = 0
        else now = 1 ∧ t.fld RSG_STATE RSG_STATE_entry = e ∧
          t.fld RSG_STATE RSG_STATE_cand = RSG_PRIO_cand.get (t.entryWord e)) ∧
      (en = true → lost → ¬locks → (∀ f, ¬firstQualified t f) → now =
        if valid then 3 else if s.bit RSG_STATE RSG_STATE_ever_locked then 4 else 0) ∧
      (en = true → lost → ¬locks → firstQualified t e → RSG_PRIO_cand.get (t.entryWord e) ≠ 0 → now = if valid then 3 else 1) ∧
      (en = true → st = 3 → (∀ f, ¬firstQualified t f) → now =
        if s.fld RSG_HOLD_CFG RSG_HOLD_CFG_limit ≤ s.fld RSG_HOLD_ELAPSED RSG_HOLD_ELAPSED_seconds then 4 else 3)

/-- w moves towards its target within the slew limit; history, holdover value, temperature and the RSG's writes (R77, R78,
R79, R81, R84, R92, R96, R97, R99, R100, R101). Where a clause goes beyond these rules it is the model's choice (log entries
22, 24, 25, 162 and 163). -/
def Obligations.MediaClockSteering : Prop :=
  ∀ (s : State) (m : Mid) (v : Word) (e : Fin 8) (n : Fin 2) (us : Nat) (w temp : Int) (d : Fin 3) (up : Bool),
    s.awake = true → s.pwr.xoLost = false →
    let st := s.fld RSG_STATE RSG_STATE_state
    let en := s.bit RSG_CTRL RSG_CTRL_en
    let cand := s.fld RSG_STATE RSG_STATE_cand
    let medium := (decide (st = 1 ∨ st = 2) && decide (14 ≤ cand ∧ cand ≤ 17)) || s.rsg.medSlew
    let lim : Int := if medium then 100 * s.fld (RSG_TYPE_QUAL 4) RSG_TYPE_QUAL_drift * us
      else (max 1 (s.fld RSG_SLEW RSG_SLEW_rate) * us / 100 : Nat)
    let hold := max (-130000000000) (min 130000000000 s.rsg.wHold)
    let goal : Option Int := if en = false ∨ st = 0 then some 0 else if st = 3 then some hold
      else if st = 4 then some (if s.bit RSG_CTRL RSG_CTRL_policy && s.rsg.hist != [] then hold else 0) else none
    let used := (s.rsg.hist.drop (s.fld RSG_HOLD_CFG RSG_HOLD_CFG_guard)).take (s.fld RSG_HIST_COUNT RSG_HIST_COUNT_avg)
    let sum := (used.map fun x => x.w).sum
    let now := signed 16 s.tempNow.toNat
    let x : RsgSpan := match s.rsg.span with
      | none => ⟨s.rsg.w, s.rsg.w, now, now⟩
      | some y => ⟨min y.wLo s.rsg.w, max y.wHi s.rsg.w, min y.tLo now, max y.tHi now⟩
    let turned : Prop := RSG_CTRL_temp_src.get v = 1 ∧ s.bit RSG_CTRL RSG_CTRL_temp_src = false ∧ s.rsg.extStale = true
    let same : Prop := v.toNat / 2 % 8 = (s.reg RSG_CTRL).toNat / 2 % 8
    let bad : Prop := 18 < RSG_PRIO_cand.get v ∨ 3600 < RSG_PRIO_wtr.get v ∨ (RSG_PRIO_en.get v = 1 ∧
      ∃ f, f < 8 ∧ f ≠ e.val ∧ s.fld (RSG_PRIO f) RSG_PRIO_en = 1 ∧ s.fld (RSG_PRIO f) RSG_PRIO_cand = RSG_PRIO_cand.get v)
    (s.inLight = false →
      (0 < us → (-130000000000 ≤ s.rsg.w ∧ s.rsg.w ≤ 130000000000) → Happens (.dcoUpdate us) s [RSG_STATE] rsgDrawn fun t =>
        t.rsg.hist = s.rsg.hist ∧ t.rsg.wHold = s.rsg.wHold ∧ t.rsg.cands = s.rsg.cands ∧
        s.rsg.w - lim ≤ t.rsg.w ∧ t.rsg.w ≤ s.rsg.w + lim ∧ -130000000000 ≤ t.rsg.w ∧ t.rsg.w ≤ 130000000000 ∧
        (s.chm.trim = 0 → ∀ g, goal = some g → t.rsg.w = max (s.rsg.w - lim) (min (s.rsg.w + lim) g))) ∧
      (st = 2 → ¬(14 ≤ cand ∧ cand ≤ 17) → Happens (.historyAppend w temp d) s [] rsgOnly fun t =>
        t.rsg = { s.rsg with hist := t.rsg.hist, span := t.rsg.span } ∧
        t.rsg.hist = (⟨max x.wLo (min x.wHi w), max x.tLo (min x.tHi temp),
          (s.pwr.rtc + 2 ^ 48 - 16385 + d.val) % 2 ^ 48⟩ :: s.rsg.hist).take 900) ∧
      (used ≠ [] → s.bit RSG_CTRL RSG_CTRL_policy = false → (∀ x ∈ used, -130000000000 ≤ x.w ∧ x.w ≤ 130000000000) →
        Happens (.holdoverRecompute up) s [] (fun _ u => { u with rsg := { s.rsg with
          wHold := sum / used.length + if up = true ∧ ¬(used.length : Int) ∣ sum then 1 else 0 } }) fun _ => True) ∧
      (st = 3 → Happens .holdElapsedTick s [RSG_HOLD_ELAPSED] (fun _ u => u) fun t =>
        t.fld RSG_HOLD_ELAPSED RSG_HOLD_ELAPSED_seconds =
          min (s.fld RSG_HOLD_ELAPSED RSG_HOLD_ELAPSED_seconds + 1)
            (2 ^ (RSG_HOLD_ELAPSED_seconds.hi + 1 - RSG_HOLD_ELAPSED_seconds.lo) - 1)) ∧
      Happens (.wclkEdge n) s [] rsgOnly fun t => t.rsg = { s.rsg with wclk := t.rsg.wclk } ∧
        ∀ k, tabGet zeroNat t.rsg.wclk k = if k = n.val then tabGet zeroNat s.rsg.wclk k + 1 else tabGet zeroNat s.rsg.wclk k) ∧
    (s.bit RSG_CTRL RSG_CTRL_temp_src = true → Happens .tempExtStale s [RSG_STATUS]
      (fun _ u => { u with rsg := { s.rsg with extStale := true } }) fun t =>
      t.reg RSG_STATUS = RSG_STATUS_temp_stale.set (s.reg RSG_STATUS) 1) ∧
    (s.isSup m.val = true → s.noneWaits m.val = true →
      (v.toNat / 4 % 4 = 3 ∨ (en = true ∧ ¬same) → Refuses (.rsgEnableWrite m v) s m.val RSG_CTRL true) ∧
      (v.toNat / 4 % 4 ≠ 3 → same → (v.getLsbD 6 = false ∨ s.bit RSG_CTRL RSG_CTRL_tbl_freeze = true) →
        Accepts (.rsgEnableWrite m v) s m.val 0 [RSG_CTRL, RSG_STATUS] (fun _ u => u) fun t =>
          (turned → t.reg RSG_STATUS = RSG_STATUS_temp_stale.set (s.reg RSG_STATUS) 1) ∧
          (¬turned → t.reg RSG_STATUS = s.reg RSG_STATUS) ∧ t.reg RSG_CTRL = (s.reg RSG_CTRL &&& ~~~0x7F) ||| (v &&& 0x7F)) ∧
      (bad → Refuses (.rsgPrioWrite m e v) s m.val (RSG_PRIO e.val) true) ∧
      (¬bad → Accepts (.rsgPrioWrite m e v) s m.val 0 [RSG_PRIO e.val] (fun _ u => u) fun t =>
        t.reg (RSG_PRIO e.val) = (s.reg (RSG_PRIO e.val) &&& ~~~0x0FFF007F) ||| (v &&& 0x0FFF007F)) ∧
      Accepts (.tempExtWrite m v) s m.val 0 [RSG_TEMP_EXT, RSG_STATUS]
        (fun _ u => { u with rsg := { s.rsg with extStale := false } }) fun t =>
        t.reg RSG_TEMP_EXT = (s.reg RSG_TEMP_EXT &&& 0xFFFF0000) ||| (v &&& 0xFFFF) ∧
        t.reg RSG_STATUS = RSG_STATUS_temp_stale.set (s.reg RSG_STATUS) 0)

/-- An exact quotient, or either neighbour where it is not whole: the rounding is open (R109). -/
def nearQuot (x num : Int) (den : Nat) : Prop := x = num / den ∨ (¬(den : Int) ∣ num ∧ x = num / den + 1)

/-- The registers of servo d and of the Deuce that a measurement may change. -/
def servoRegs (d : Nat) : List Nat :=
  [TSU_SRV_FREQ d, TSU_SRV_STATE d, TSU_SRV_MPD d, TSU_SRV_OUTLIERS d, TSU_STATUS, TSU_DEUCE_STAT, TSU_DEUCE_CTRL,
   TSU_DEUCE_SWITCHES, TSU_TOD_FREQ]

/-- The rest but for the TSU's own state and the counter of free values. -/
def tsuDrawn (t u : State) : State := { u with tsu := t.tsu, freeCtr := t.freeCtr }

/-- The state of servo d after an offset o is measured (Table: Servo states, R113). -/
def servoNext (s : State) (d : Nat) (o : Int) : Nat :=
  let st := s.fld (TSU_SRV_STATE d) TSU_SRV_STATE_state
  if st = 1 ∨ st = 4 then 2
  else if st = 2 then
    if o.natAbs ≤ s.fld (TSU_SRV_LOCK d) TSU_SRV_LOCK_lock_win ∧
        s.fld (TSU_SRV_LOCK d) TSU_SRV_LOCK_lock_count ≤ (s.servo d).inWin + 1 then 3 else 2
  else if st = 3 then
    if s.fld (TSU_SRV_FILT d) TSU_SRV_FILT_unlock_win < o.natAbs ∧ 4 ≤ (s.servo d).outWin + 1 then 2 else 3
  else st

/-- A complete Sync with times t1 (in 1/65536 ns) and t2 (in ns) has been measured by servo d. -/
def syncMeasured (s t : State) (d : Nat) (t1 t2 : Int) : Prop :=
  let v := s.servo d
  let w := t.servo d
  (∀ e, e ≠ d → t.servo e = s.servo e) ∧ w.sync = none ∧ w.last = some (t1, t2) ∧ w.delays = v.delays ∧
  (v.delays = [] → w = { v with sync := none, last := some (t1, t2) } ∧ t.reg (TSU_SRV_STATE d) = s.reg (TSU_SRV_STATE d)) ∧
  (∀ mpd ∈ v.delays.head?, nearQuot w.offs (t1 + (mpd - t2) * 65536) 65536 ∧
    t.fld (TSU_SRV_STATE d) TSU_SRV_STATE_state = servoNext s d w.offs ∧
    (servoNext s d w.offs ≠ s.fld (TSU_SRV_STATE d) TSU_SRV_STATE_state → t.bit TSU_STATUS TSU_STATUS_servo_chg = true))

/-- A path delay of twice / 131072 ns has been judged by servo d, which stood as v (R114). -/
def delayMeasured (s t : State) (d : Nat) (v : Servo) (twice : Int) : Prop :=
  ∃ m, nearQuot m twice 131072 ∧ (∀ e, e ≠ d → t.servo e = s.servo e) ∧
    if v.delays = [] ∨ ((m * v.delays.length - v.delays.sum).natAbs : Int) ≤
        s.fld (TSU_SRV_FILT d) TSU_SRV_FILT_outlier * v.delays.length then
      t.servo d = { v with delays := (m :: v.delays).take 16 } ∧ t.reg (TSU_SRV_MPD d) = BitVec.ofInt 32 m
    else t.servo d = v ∧
      (t.reg (TSU_SRV_OUTLIERS d)).toNat = min ((s.reg (TSU_SRV_OUTLIERS d)).toNat + 1) (2 ^ 32 - 1)

/-- The servos measure Sync, Follow_Up and delay answers, form requests and answers, and change state as their table says
(R107, R108, R109, R113, R114). Where a clause goes beyond these rules it is the model's choice (log entries 45, 46, 47, 48,
49, 70 and 166). -/
def Obligations.PtpServos : Prop :=
  ∀ (s : State) (d p : Fin 2) (m : Mid) (seq : BitVec 16) (dom : BitVec 7) (origin corr t1 t2 c q4 : Int) (w : Word) (one : Bool)
    (req : PdelayFrom),
    s.awake = true → s.pwr.xoLost = false → s.bit TSU_DEUCE_CTRL TSU_DEUCE_CTRL_en = false →
    let v := s.servo d.val
    let cfg := TSU_SRV_CFG d.val
    let port := s.fld cfg TSU_SRV_CFG_port
    let on := s.bit cfg TSU_SRV_CFG_en
    let p2p := s.bit cfg TSU_SRV_CFG_delay
    let st := s.fld (TSU_SRV_STATE d.val) TSU_SRV_STATE_state
    let asym : Int := (s.reg (TSU_MAC_ASYM port)).toInt * 4096
    let rx (x : Int) (k : Nat) : Prop := nearQuot x (16 * (s.tsu.ns : Int) - s.fld (TSU_MAC_LAT k) TSU_MAC_LAT_rx_lat) 16
    let does (i : Instr) (P : State → Prop) : Prop := Happens i s (servoRegs d.val) tsuDrawn P
    let sent (k : Nat) (f : PtpFrame) (t : State) : Prop := ∀ j, tabGet noPtp t.tsu.ptpTx j =
      if j = k then tabGet noPtp s.tsu.ptpTx k ++ [f] else tabGet noPtp s.tsu.ptpTx j
    let ls := w.toNat / 2 ^ 16 % 16
    let ld := w.toNat / 2 ^ 20 % 16
    (s.inLight = false →
      (on = true →
        does (.sync d true seq origin corr) (fun t => ∃ x, rx x port ∧
          t.servo d.val = { v with sync := some (seq.toNat, corr + asym, x) }) ∧
        does (.sync d false seq origin corr) (fun t => ∃ x, rx x port ∧
          syncMeasured s t d.val (origin * 65536 + (corr + asym)) x) ∧
        (v.sync = some (seq.toNat, c, t2) → does (.followUp d seq origin corr) fun t =>
          syncMeasured s t d.val (origin * 65536 + c + corr) t2) ∧
        (p2p = false → v.req = some (seq.toNat, q4) → v.last = some (t1, t2) → does (.delayResp d seq origin corr) fun t =>
          delayMeasured s t d.val { v with req := none } ((t2 - q4 + origin) * 65536 - t1 - corr)) ∧
        (p2p = true → v.req = some (seq.toNat, q4) →
          does (.pdelayResp d false true seq origin corr) (fun t => ∃ x, rx x port ∧
            t.servo d.val = { v with resp := some (seq.toNat, origin, corr + asym, x) }) ∧
          does (.pdelayResp d false false seq origin corr) (fun t => ∃ x, rx x port ∧
            delayMeasured s t d.val { v with req := none } ((x - q4) * 65536 - (corr + asym))) ∧
          (v.resp = some (seq.toNat, t2, c, t1) → does (.pdelayResp d true one seq origin corr) fun t =>
            delayMeasured s t d.val { v with req := none, resp := none }
              ((t1 - q4 - (origin - t2)) * 65536 - c - corr))) ∧
        (p2p = true → port = p.val → s.fld cfg TSU_SRV_CFG_domain = dom.toNat → does (.pdelayReq p dom seq req) fun t =>
          ∃ x e, rx x p.val ∧ (e = 0 ∨ e = d.val) ∧
            sent p.val (.pdelayResp e req.udp seq.toNat x req.corr req.who.toNat) t) ∧
        does (.delayReqSend d) (fun t => t.servo d.val = { v with seq := (v.seq + 1) % 2 ^ 16 } ∧
          sent port (if p2p then .pdelayReq d.val v.seq else .delayReq d.val v.seq) t))) ∧
    (st = 2 → does (.syncTimeout d) fun t => t.fld (TSU_SRV_STATE d.val) TSU_SRV_STATE_state = 1) ∧
    (st = 3 → does (.syncTimeout d) fun t => t.fld (TSU_SRV_STATE d.val) TSU_SRV_STATE_state = 4) ∧
    (s.isSup m.val = true → s.noneWaits m.val = true →
      Accepts (.parentWrite m d w) s m.val 0 (TSU_SRV_PARENT_HI d.val :: servoRegs d.val) tsuDrawn (fun t =>
        (t.servo d.val).parent = (s.reg (TSU_SRV_PARENT_LO d.val)).toNat + (s.reg (TSU_SRV_PARENT_MID d.val)).toNat * 2 ^ 32 +
          w.toNat % 2 ^ 16 * 2 ^ 64 ∧ (t.servo d.val).delays = [] ∧ (t.servo d.val).last = none ∧
        t.fld (TSU_SRV_STATE d.val) TSU_SRV_STATE_state = if st = 0 then 0 else if st = 3 then 4 else 1) ∧
      ((4 < ls ∧ ls < 9) ∨ (5 < ld ∧ ld < 9) → Refuses (.servoEnable m d w) s m.val cfg true) ∧
      (¬(4 < ls ∧ ls < 9) → ¬(5 < ld ∧ ld < 9) → on = false →
        Accepts (.servoEnable m d w) s m.val 0 (cfg :: servoRegs d.val) tsuDrawn fun t =>
          t.reg cfg = (s.reg cfg &&& ~~~0xFF7F0F) ||| (w &&& 0xFF7F0F) ∧
          t.fld (TSU_SRV_STATE d.val) TSU_SRV_STATE_state = (if w.getLsbD 0 then 1 else 0) ∧
          (w.getLsbD 0 = true → (t.servo d.val).delays = [] ∧ (t.servo d.val).parent = v.parent)))

/-- A switch records its offset and steps or slews TOD; a rebase ends at 0; a Rally instant advances the count by one (R116,
R117, R118, R119, R120, R121, R123, R241). Where a clause goes beyond these rules it is the model's choice (log entries 47,
50, 55 and 164). -/
def Obligations.DeuceAndRallyCount : Prop :=
  ∀ (s : State) (m : Mid) (v : Word) (frac : BitVec 16) (n : HearthId), s.awake = true → s.pwr.xoLost = false →
    let a := s.fld TSU_DEUCE_STAT TSU_DEUCE_STAT_active
    let b := v.toNat / 2 % 2
    let sel := v.toNat / 4 % 4
    let new := s.servo b
    let st (d : Nat) : Nat := s.fld (TSU_SRV_STATE d) TSU_SRV_STATE_state
    let bad : Prop := sel = 3 ∨ 3600 < v.toNat / 2 ^ 16 % 2 ^ 12
    let off : Prop := sel = 0 ∧ b ≠ a
    let prefer := s.fld TSU_DEUCE_CTRL TSU_DEUCE_CTRL_prefer
    let regs := [TSU_DEUCE_CTRL, TSU_DEUCE_STAT, TSU_DEUCE_SWITCHES, TSU_STATUS, TSU_TOD_FREQ]
    let only (t u : State) : State := { u with tsu := t.tsu }
    let switched (d : Nat) (t : State) : Prop := t.fld TSU_DEUCE_STAT TSU_DEUCE_STAT_active = d ∧
      t.fld TSU_DEUCE_CTRL TSU_DEUCE_CTRL_active = d ∧ t.tsu.deuceOffs = (s.servo d).offs ∧
      (t.reg TSU_DEUCE_SWITCHES).toNat = min ((s.reg TSU_DEUCE_SWITCHES).toNat + 1) (2 ^ 32 - 1) ∧
      t.bit TSU_STATUS TSU_STATUS_deuce_sw = true
    let switches (P : State → Prop) : Prop := Accepts (.deuceActiveWrite m v) s m.val 0 regs only fun t => switched b t ∧ P t
    (s.isSup m.val = true → s.noneWaits m.val = true →
      (bad ∨ (off ∧ st b ≠ 3) → Refuses (.deuceActiveWrite m v) s m.val TSU_DEUCE_CTRL true) ∧
      (¬bad → off → st b = 3 →
        (v.getLsbD 0 = true → v.getLsbD 5 = true → switches fun t =>
          (t.tsu.ns : Int) = ((s.tsu.ns : Int) + new.offs) % (2 ^ 48 * 1000000000) ∧
          t.tsu.rallyOffs = s.tsu.rallyOffs + new.offs ∧ (t.servo b).offs = 0) ∧
        (v.getLsbD 0 = true → v.getLsbD 5 = false → new.offs ≠ 0 → new.offs.natAbs ≤ 10000 * (v.toNat / 2 ^ 8 % 2 ^ 8) →
          switches fun t => t.bit TSU_DEUCE_STAT TSU_DEUCE_STAT_slewing = true ∧ t.tsu.ns = s.tsu.ns ∧
            t.tsu.rallyOffs = s.tsu.rallyOffs) ∧
        (v.getLsbD 0 = false → switches fun t => t.tsu.ns = s.tsu.ns ∧ t.tsu.rallyOffs = s.tsu.rallyOffs)) ∧
      (¬bad → ¬off → sel = 0 → s.tsu.rallyOffs ≠ 0 →
        Accepts (.rebase m v) s m.val 0 regs only fun t => t.bit TSU_DEUCE_STAT TSU_DEUCE_STAT_rebasing = true ∧
          t.bit TSU_DEUCE_CTRL TSU_DEUCE_CTRL_rebase = true ∧ t.tsu.rallyOffs = s.tsu.rallyOffs)) ∧
    (s.fld TSU_DEUCE_CTRL TSU_DEUCE_CTRL_sel = 2 → st prefer = 3 → prefer ≠ a →
      Happens .deuceRevert s regs only fun t => switched prefer t) ∧
    (s.bit TSU_DEUCE_STAT TSU_DEUCE_STAT_slewing = true →
      ((s.servo a).offs = 0 → Happens .slewComplete s regs tsuDrawn fun t =>
        t.bit TSU_DEUCE_STAT TSU_DEUCE_STAT_slewing = false ∧ (∀ d, t.servo d = s.servo d) ∧ t.tsu.ns = s.tsu.ns) ∧
      ((s.servo a).offs ≠ 0 → Happens .slewComplete s [] (fun _ u => u) fun _ => True)) ∧
    (s.bit TSU_DEUCE_STAT TSU_DEUCE_STAT_rebasing = true →
      (s.tsu.rallyOffs = 0 → Happens .rebaseComplete s [TSU_DEUCE_STAT, TSU_DEUCE_CTRL]
        (fun _ u => { u with tsu := { s.tsu with rebaseAcc := 0 } }) fun t =>
        t.bit TSU_DEUCE_STAT TSU_DEUCE_STAT_rebasing = false ∧ t.bit TSU_DEUCE_CTRL TSU_DEUCE_CTRL_rebase = false) ∧
      (s.tsu.rallyOffs ≠ 0 → Happens .rebaseComplete s [] (fun _ u => u) fun _ => True)) ∧
    ((s.wideOf 1).load = none → s.bit EMB_STAT EMB_STAT_xp_running = false → s.tsu.realign = false → s.chm.realign = none →
      Does (.rallyInstant frac) s fun t => t.rallyCount = (s.rallyCount + 1) % 2 ^ 48 ∧
        (s.bit CUE_CTRL CUE_CTRL_en = false → s.inLight = false →
          (t.hearth n.val).latch = some ((s.rallyCount + 1) % 2 ^ 48)))

/-- A trigger latches its key when armed, fires and records when due, and repeats by PERIOD; captures queue and pop (R127,
R128, R129, R130, R131, R133, R134). Where a clause goes beyond these rules it is the model's choice (log entries 52, 53, 56
and 165). -/
def Obligations.TriggersPulsesAndCaptures : Prop :=
  ∀ (s : State) (m : Mid) (n : Fin 16) (k : Fin 8) (i : Fin 32) (v : Word) (low rising late : Bool) (phase : BitVec 8) (e : CapEnt)
    (rest : List CapEnt), s.awake = true → s.pwr.xoLost = false →
    let c := TSU_TTRIG_CTRL n.val
    let stat := TSU_TTRIG_STAT n.val
    let word (w : Word) : Nat := w.toNat
    let key := word (s.reg (TSU_TTRIG_KEY_LO n.val))
    let mid := word (s.reg (TSU_TTRIG_KEY_MID n.val))
    let hi := word (s.reg (TSU_TTRIG_KEY_HI n.val))
    let period := word (s.reg (TSU_TTRIG_PERIOD n.val))
    let armed := s.bit c TSU_TTRIG_CTRL_arm
    let past (x : Nat) : Bool := let d := (x + 2 ^ 48 - s.rallyCount) % 2 ^ 48; decide (d = 0 ∨ 2 ^ 47 ≤ d)
    let same : Prop := s.reg c &&& 0x1F7C = v &&& 0x1F7C
    let ptp := s.bit c TSU_TTRIG_CTRL_key_type
    let now := s.trig n.val
    let due : Option Bool := if armed = false then none else if ptp then (if now.key ≤ s.tsu.ns then some now.late else none)
      else now.due
    let step (j : Nat) : Nat := if ptp then now.key + (j + 1) * period else (now.key + (j + 1) * period) % 2 ^ 48
    let gone (x : Nat) : Prop := if ptp then x < s.tsu.ns else past x = true
    let short : Prop := v.getLsbD 3 = true ∧ period < if v.getLsbD 2 then 5000 else 1
    let trigIs (t : State) (x : Trig) : Prop := ∀ j, t.trig j = if j = n.val then x else s.trig j
    let trigs (t u : State) : State := { u with tsu := { u.tsu with trigs := t.tsu.trigs } }
    let arms (x : Trig) : Prop := Accepts (.ttrigArm m n v) s m.val 0 [c] trigs fun t =>
      trigIs t x ∧ t.reg c = (v &&& 0xFFFF7F7C) ||| 1
    let capIs (t : State) (x : Cap) : Prop := ∀ j, t.cap j = if j = k.val then x else s.cap j
    let caps (t u : State) : State := { u with tsu := { u.tsu with caps := t.tsu.caps } }
    let tc := TSU_TCAP_CTRL k.val
    let pin (u : State) : State := u.setPin (16 + k.val) rising
    let takes : Prop := s.bit tc TSU_TCAP_CTRL_en = true ∧ s.gpioFn (16 + k.val) = 2 ∧
      s.fld tc TSU_TCAP_CTRL_edge / (if rising then 1 else 2) % 2 = 1
    let p := s.pulsesOf i.val
    let act := s.fld c TSU_TTRIG_CTRL_action
    let irq := s.bit c TSU_TTRIG_CTRL_irq
    let recorded (t : State) : Prop := t.bit stat TSU_TTRIG_STAT_fired = true ∧
      t.bit stat TSU_TTRIG_STAT_late = (late || s.bit stat TSU_TTRIG_STAT_late) ∧
      t.bit TSU_STATUS TSU_STATUS_ttrig_late = (late || s.bit TSU_STATUS TSU_STATUS_ttrig_late)
    let fires (g : State → State → State) (P : State → Prop) : Prop :=
      Happens (.ttrigFire n) s [c, stat, TSU_STATUS] (fun t u => (g t u).raiseIf irq (405 + n.val)) fun t => recorded t ∧ P t
    (s.isSup m.val = true → s.noneWaits m.val = true →
      (armed = false → v.getLsbD 1 = false → v.toNat / 2 ^ 4 % 8 ≤ 4 → ¬short →
        (v.getLsbD 2 = false → arms ⟨key + mid % 2 ^ 16 * 2 ^ 32, past (key + mid % 2 ^ 16 * 2 ^ 32), none⟩) ∧
        (v.getLsbD 2 = true → arms ⟨(mid + hi % 2 ^ 16 * 2 ^ 32) * 1000000000 + key,
          decide ((mid + hi % 2 ^ 16 * 2 ^ 32) * 1000000000 + key < s.tsu.ns), none⟩)) ∧
      (armed = true → same → v.getLsbD 1 = false → v.toNat / 2 ^ 4 % 8 ≤ 4 → arms now) ∧
      (v.getLsbD 1 = true ∨ 4 < v.toNat / 2 ^ 4 % 8 ∨ (armed = false ∧ short) ∨ (armed = true ∧ ¬same) →
        Refuses (.ttrigArm m n v) s m.val c true) ∧
      ((armed = true → same) → v.getLsbD 0 = false → v.toNat / 2 ^ 4 % 8 ≤ 4 →
        Accepts (.ttrigDisarm m n v) s m.val 0 [c] trigs fun t => trigIs t ⟨0, false, none⟩ ∧ t.reg c = v &&& 0xFFFF7F7C) ∧
      (v.getLsbD 0 = true ∨ 4 < v.toNat / 2 ^ 4 % 8 ∨ (armed = true ∧ ¬same) →
        Refuses (.ttrigDisarm m n v) s m.val c true) ∧
      ((s.cap k.val).fifo = e :: rest → Accepts (.tcapPop m k) s m.val (BitVec.ofNat 32 (e.ns % 1000000000)) [] caps fun t =>
        capIs t ⟨rest, e⟩) ∧
      ((s.cap k.val).fifo = [] → Accepts (.tcapPop m k) s m.val 0xFFFFFFFF [] (fun _ u => u) fun _ => True)) ∧
    (s.pwr.hold = false → due = none → Happens (.ttrigFire n) s [] (fun _ u => u) fun _ => True) ∧
    (s.pwr.hold = false → due = some late →
      (s.bit c TSU_TTRIG_CTRL_periodic = false →
        (act = 0 → fires trigs fun t => trigIs t ⟨0, false, none⟩ ∧ t.bit c TSU_TTRIG_CTRL_arm = false) ∧
        (act = 4 → fires (fun t u => { trigs t u with pins := { s.pins with pulses := t.pins.pulses } }) fun t =>
          trigIs t ⟨0, false, none⟩ ∧ t.bit c TSU_TTRIG_CTRL_arm = false ∧
          ∀ j, t.pulsesOf j = if j = s.fld c TSU_TTRIG_CTRL_target % 32 then
            (if s.bit c TSU_TTRIG_CTRL_pol then ⟨(s.pulsesOf j).high, (s.pulsesOf j).low + 1⟩
             else ⟨(s.pulsesOf j).high + 1, (s.pulsesOf j).low⟩) else s.pulsesOf j)) ∧
      (s.bit c TSU_TTRIG_CTRL_periodic = true → act = 0 → 1 ≤ period → (ptp = true ∨ ¬gone (step 0)) → fires trigs fun t =>
        t.bit c TSU_TTRIG_CTRL_arm = true ∧ ∃ j, trigIs t ⟨step j, false, none⟩ ∧ ¬gone (step j) ∧ (∀ i, i < j → gone (step i)) ∧
          t.fld stat TSU_TTRIG_STAT_skipped = min (s.fld stat TSU_TTRIG_STAT_skipped + j) (2 ^ 16 - 1))) ∧
    Happens (.gpioPulseEnd i low) s [] (fun t u => { u with pins := { s.pins with pulses := t.pins.pulses } }) (fun t =>
      ∀ j, t.pulsesOf j = if j = i.val then (if low then ⟨p.high, p.low - 1⟩ else ⟨p.high - 1, p.low⟩) else s.pulsesOf j) ∧
    (¬takes → Happens (.tcapEdge k rising phase) s [] (fun _ u => pin u) fun _ => True) ∧
    (takes →
      ((s.cap k.val).fifo.length < 4 → Happens (.tcapEdge k rising phase) s []
        (fun t u => (pin (caps t u)).raiseIf (s.bit tc TSU_TCAP_CTRL_irq) 421) fun t =>
          capIs t { s.cap k.val with fifo := (s.cap k.val).fifo ++ [⟨s.tsu.ns, s.rallyCount, phase.toNat, rising⟩] }) ∧
      (4 ≤ (s.cap k.val).fifo.length → Happens (.tcapEdge k rising phase) s [TSU_TCAP_STAT k.val, TSU_STATUS]
        (fun _ u => (pin u).raise 421) fun t =>
          t.bit (TSU_TCAP_STAT k.val) TSU_TCAP_STAT_ovf = true ∧ t.bit TSU_STATUS TSU_STATUS_tcap_ovf = true ∧
          t.fld (TSU_TCAP_STAT k.val) TSU_TCAP_STAT_dropped =
            min (s.fld (TSU_TCAP_STAT k.val) TSU_TCAP_STAT_dropped + 1) (2 ^ 16 - 1)))

/-- The rest but for the ports' own state. -/
def portsOnly (t u : State) : State := { u with ports := t.ports }

/-- Port k is x, and every other port is as it was. -/
def portIs (s t : State) (k : Nat) (x : Port) : Prop := ∀ j, t.port j = if j = k then x else s.port j

/-- A register written whole with the bits of a mask. -/
def masked (old v mask : Word) : Word := (old &&& ~~~mask) ||| (v &&& mask)

/-- The 32-bit word at an aligned Mantel address. -/
def mantelWord32 (s : State) (a : Nat) : Word :=
  BitVec.ofNat 32 ((s.mantelByte a).toNat + (s.mantelByte (a + 1)).toNat * 2 ^ 8 + (s.mantelByte (a + 2)).toNat * 2 ^ 16 +
    (s.mantelByte (a + 3)).toNat * 2 ^ 24)

/-- Converter i is locked. -/
def lockBit (t : State) (i : Nat) : Bool := (t.reg (ASRC_LOCK (i / 32))).getLsbD (i % 32)

/-- The registers of the converters' locks. -/
def lockRegs : List Nat := ASRC_STAT :: (List.range 4).map ASRC_LOCK

/-- Converter i is tied to a direction of port k. -/
def tiedTo (s : State) (k : Nat) (out : Bool) (i : Nat) : Bool := s.asrcTied k out (fun _ => true) i

/-- Port k, a receiver or a SAP in both directions, has ended: its buffer shows empty, and the converters tied to it lose their
lock (R163, R165). -/
def inputEnds (s t : State) (k : Nat) : Prop :=
  let mine (i : Nat) : Bool := tiedTo s k false i || (decide (k < 16) && tiedTo s k true i)
  t.reg (portFill k) = 0 ∧ (∀ i, i < 128 → lockBit t i = (lockBit s i && !mine i)) ∧
  (t.bit ASRC_STAT ASRC_STAT_lost = true ↔ s.bit ASRC_STAT ASRC_STAT_lost = true ∨
    ∃ i, i < 128 ∧ lockBit s i = true ∧ mine i = true)

/-- A port that starts with control word w: its maps are the registers', its last words, status block, commit, line and ratios stay
(R145). -/
def started (s t : State) (k : Nat) (w : Word) : Prop :=
  let old := s.port k
  (k < 32 → t.reg (portFill k) = 0) ∧ ∃ im om, portIs s t k { portReset with
    last := old.last, wire := old.wire, txCs := old.txCs, commit := old.commit, subs := old.subs, line := old.line,
    ratioIn := old.ratioIn, ratioOut := old.ratioOut, imap := im, omap := om,
    substZero := w.getLsbD 6, tagOffs := w.toNat / 2 ^ 24 } ∧
    (k < 16 → ∀ j, j < 32 → tabGet zeroWord im j = s.reg (SAP_IMAP k j) ∧ tabGet zeroWord om j = s.reg (SAP_OMAP k j))

/-- A port starts on a control word in range, stops, takes its maps and DMA configuration, and refuses the rest with SLVERR
(R141, R142, R144, R145, R147, R152, R160, R163, R164, R167, R540). Where a clause goes beyond these rules it is the model's
choice (log entries 63, 65, 167 and 173). -/
def Obligations.PortsStartedAndMapped : Prop :=
  ∀ (s : State) (m : Mid) (p : Fin 16) (i : Fin 8) (d : Fin 2) (j : Fin 32) (q : PortId) (out : Bool) (v : Word),
    s.awake = true → s.isSup m.val = true → s.noneWaits m.val = true →
    let ctrl := SAP_CTRL p.val
    let fmt := SAP_FMT p.val
    let n (w : Word) (lo len : Nat) : Nat := w.toNat / 2 ^ lo % 2 ^ len
    let on (a : Nat) : Bool := s.bit a pEn
    let master := n v 1 1
    let inRange (mask : Nat) : Prop := (n v 2 2 = 0 ∨ (n v 2 2 = 2 ∧ mask = 0)) ∧ n v 8 3 ≤ 5
    let bits := 2 ^ s.fld fmt SAP_FMT_frame_bits
    let slot := 16 + 8 * s.fld fmt SAP_FMT_slot_bits
    let slots := if s.fld fmt SAP_FMT_fmt = 2 then s.fld fmt SAP_FMT_slots + 1 else 2
    let wide := s.fld fmt SAP_FMT_word_bits
    let clk := bits * ((if s.bit RSG_CTRL RSG_CTRL_family then 44100 else 48000) * 2 ^ s.fld RSG_CTRL RSG_CTRL_mult)
    let skew := s.fld (SAP_TURN p.val) SAP_TURN_skew
    let ok : Prop := bitOf s.pins.bankOff (p.val / 4) = false ∧ inRange master ∧ 2 ≤ n v 16 6 ∧ clk ≤ 49152000 ∧ slots * slot ≤ bits ∧
      (if wide = 3 then 32 else 16 + 4 * wide) ≤ slot ∧ (n v 5 1 = 1 → (clk + 999999) / 1000000 ≤ skew ∧ slot + skew < bits)
    let wait (x : Nat) (t : State) : Prop := t.reg (SAP_STAT p.val) = stWaiting.set (s.reg (SAP_STAT p.val)) x
    let starts (a st k : Nat) (mask : Word) : Prop := on a = false → v.getLsbD 0 = true →
      Accepts (.aesmPortEnable m (if k < 32 then .aesRx i else .aesTx i) v) s m.val 0 ([a, st] ++ if k < 32 then [portFill k] else [])
        portsOnly fun t =>
        t.reg a = masked (s.reg a) v mask ∧ t.reg st = stRunning.set (s.reg st) 1 ∧ started s t k v
    let k := portKey q
    let o := portOut q out
    let cfg := portDma k o + 4
    let f := n v 1 4
    let chans := n v 5 7
    let frees : Prop := on (portCtrl k) = true → (s.reg cfg ^^^ v) &&& 0xFFFFE = 0
    let fits : Prop := frees ∧ (o = true → n v 12 4 ≠ 0) ∧ 0 < f ∧ f ≤ 12 ∧ 0 < chans ∧ chans ≤ 64 ∧
      (s.reg (portDma k o)).toNat + 2 ^ f * ((4 * chans + 7) / 8 * 8) ≤ 0x800000
    let map := if out then SAP_OMAP p.val j.val else SAP_IMAP p.val j.val
    let same (a : Nat) (mask : Word) : Prop := (s.reg a ^^^ v) &&& mask = 0
    let txc := AES_TX_CTRL i.val
    let mc := MADI_CTRL d.val
    (on ctrl = false → n v 2 2 ≠ 1 → (ok → Accepts (.sapEnable m p v) s m.val 0 [ctrl, SAP_STAT p.val, SAP_FILL p.val] portsOnly fun t =>
        t.reg ctrl = masked (s.reg ctrl) (v ||| 1) 0xFF3F077F ∧ started s t p.val v ∧ wait (master * n v 4 1) t) ∧
      (¬ok → Refuses (.sapEnable m p v) s m.val ctrl true)) ∧
    ((on ctrl = true → same ctrl 0x003F073E) → inRange master → 2 ≤ n v 16 6 →
      Accepts (.sapDisable m p v) s m.val 0 [ctrl, SAP_STAT p.val] (fun _ u => u) fun t =>
        t.reg ctrl = masked (s.reg ctrl) (v &&& ~~~1) 0xFF3F077F ∧ wait 0 t) ∧
    (on ctrl = false → s.bit (SAP_STAT p.val) stRunning = true → Happens (.sapStop p) s
      ([SAP_STAT p.val, SAP_FILL p.val] ++ lockRegs) portsOnly fun t => inputEnds s t p.val ∧
      t.reg (SAP_STAT p.val) = stWaiting.set (stRunning.set (s.reg (SAP_STAT p.val)) 0) 0 ∧
      portIs s t p.val { s.port p.val with
        ending := true, named := false, fifo := [], dmaIn := [], dropped := false, repeated := false }) ∧
    (inRange 0 → 2 ≤ n v 16 6 → starts (AES_RX_CTRL i.val) (AES_RX_STAT i.val) (16 + i.val) 0xFF3F077F) ∧
    (inRange 1 → v.getLsbD 5 = false → starts txc (AES_TX_STAT i.val) (32 + i.val) 0xFFFF075F) ∧
    (on txc = v.getLsbD 0 → (v.getLsbD 0 = true → same txc 0x00FF071E) → inRange 1 →
      Accepts (.csCommit m (.aesTx i) v) s m.val 0 [txc] portsOnly fun t =>
        t.reg txc = masked (s.reg txc) v 0xFFFF075F ||| 0x20 ∧ portIs s t (32 + i.val) { s.port (32 + i.val) with commit := true }) ∧
    (inRange 0 → 2 ≤ n v 16 6 → v.getLsbD 1 = false → n v 12 2 < 2 →
      (on mc = false → v.getLsbD 0 = true → v.getLsbD 7 = false →
        Accepts (.aesmPortEnable m (.madi d) v) s m.val 0 [mc, MADI_STAT d.val, MADI_FILL d.val] portsOnly fun t =>
          t.reg mc = masked (s.reg mc) v 0xFF3F377F ∧ t.reg (MADI_STAT d.val) = stRunning.set (s.reg (MADI_STAT d.val)) 1 ∧
          ∀ x, x ≠ 24 + d.val → x ≠ 40 + d.val → t.port x = s.port x) ∧
      (on mc = v.getLsbD 0 → (v.getLsbD 0 = true → same mc 0x003F373E) →
        Accepts (.csCommit m (.madi d) v) s m.val 0 [mc] portsOnly fun t =>
          t.reg mc = masked (s.reg mc) v 0xFF3F377F ||| 0x80 ∧
          portIs s t (40 + d.val) { s.port (40 + d.val) with commit := true })) ∧
    ((out = true ∧ n v 0 2 = 3 → Refuses (.mapWrite m p out j v) s m.val map true) ∧
      (¬(out = true ∧ n v 0 2 = 3) → Accepts (.mapWrite m p out j v) s m.val 0 [map] (fun _ u => u) fun t =>
        t.reg map = masked (s.reg map) v (if out then 0xFF3FFFF3 else 0x003FFFF3))) ∧
    (fits → v.getLsbD 0 = true → Accepts (.portDmaEnable m q out v) s m.val 0 [cfg] portsOnly fun t =>
      t.reg cfg = masked (s.reg cfg) v 0xFFFFF ∧ portIs s t k (if s.bit cfg dmaEn then s.port k
        else if o then { s.port k with outFrames := 0, dmaOut := [] } else { s.port k with inFrames := 0, dmaIn := [] })) ∧
    (¬fits → v.getLsbD 0 = true → Refuses (.portDmaEnable m q out v) s m.val cfg true)

/-- A slave SAP names its frames and slips, forms tokens, takes and substitutes words at load points, and moves DMA frames
(R20, R26, R27, R28, R141, R143, R145, R157, R158, R164, R165, R166). Where a clause goes beyond these rules it is the
model's choice (log entries 57, 60, 62 and 167). -/
def Obligations.PortFramesSlotsAndDma : Prop :=
  ∀ (s : State) (p : Fin 16) (j : Fin 32) (q : PortId) (frac : BitVec 16) (v meas : Word) (tok : Token) (left : List Token)
    (name : Nat) (f : List Word) (more : List (Nat × List Word)),
    s.awake = true → s.pwr.xoLost = false → s.inLight = false →
    let k := p.val
    let c := SAP_CTRL k
    let st := SAP_STAT k
    let pt := s.port k
    let slots := if s.fld (SAP_FMT k) SAP_FMT_fmt = 2 then s.fld (SAP_FMT k) SAP_FMT_slots + 1 else 2
    let runs : Prop := s.bit st stRunning = true ∧ j.val < slots
    let wide := s.fld (SAP_FMT k) SAP_FMT_word_bits
    let cut := 2 ^ (32 - if wide = 3 then 32 else 16 + 4 * wide)
    let w : Word := BitVec.ofNat 32 (v.toNat / cut * cut)
    let ie := tabGet zeroWord pt.imap j.val
    let oe := tabGet zeroWord pt.omap j.val
    let audio := ((s.outboxOf k).filter fun t => t.kind = .audio).length
    let e : Nat := (pt.cur + 1) % 2 ^ 48
    let d : Nat := (s.rallyCount + 2 ^ 48 - e) % 2 ^ 48
    let ph : Int := 65536 * (if d < 2 ^ 47 then (d : Int) else (d : Int) - 2 ^ 48) + frac.toNat
    let turn := s.bit c SAP_CTRL_turn_en
    let begins (n : Nat) (x : Int) (drop rep : Bool) : Prop :=
      Happens (.frameStart (.sap p) frac meas) s [st, SAP_SLIPS k, SAP_MEAS k] portsOnly fun t => t.reg (SAP_MEAS k) = meas ∧
        t.fld st stRunning = 1 ∧ ((t.fld st stPhase : Nat) : Int) = (max (-128) (min 127 (x / 256))) % (256 : Int) ∧
        t.bit st stSlip = (s.bit st stSlip || drop || rep) ∧
        t.bit st stMismatch = (s.bit st stMismatch || drop || rep || decide (10000 < meas.toInt.natAbs)) ∧
        t.fld (SAP_SLIPS k) slipDrops = min (s.fld (SAP_SLIPS k) slipDrops + if drop then 1 else 0) 0xFFFF ∧
        t.fld (SAP_SLIPS k) slipRepeats = min (s.fld (SAP_SLIPS k) slipRepeats + if rep then 1 else 0) 0xFFFF ∧
        ∃ im om, portIs s t k { pt with
          named := true, prev := pt.cur, cur := n, seq := pt.seq + 1, dropped := drop, repeated := rep, imap := im,
          omapNext := some om, outName := if turn then pt.outName else some n, sent := 64, substZero := if turn then pt.substZero else s.bit c pSubst,
          tagOffs := if turn then pt.tagOffs else s.fld c pTagOffset } ∧
          ∀ i, i < 32 → tabGet zeroWord im i = s.reg (SAP_IMAP k i) ∧ tabGet zeroWord om i = s.reg (SAP_OMAP k i)
    let takes (i : Nat) : Prop := s.outputLive k i = true ∧ (tabGet zeroWord pt.omap i).toNat % 4 = 1 ∧
      (tabGet zeroWord pt.omap i).toNat / 2 ^ 4 % 2 ^ 12 = tok.ctag
    let late := FLUE_ST_LATE k
    let owner := oe.toNat / 2 ^ 24
    let sends (x : Word) (t : State) (hold : Tab (Option Word)) : Prop :=
      portIs s t k { pt with
        hold := hold, last := (t.port k).last, loaded := (t.port k).loaded, wire := (t.port k).wire } ∧
      ∀ i, tabGet zeroWord (t.port k).last i = (if i = j.val then x else tabGet zeroWord pt.last i) ∧
        tabGet zeroWord (t.port k).wire i = (if i = j.val then x else tabGet zeroWord pt.wire i) ∧
        (i ≠ j.val → tabGet zeroName (t.port k).loaded i = tabGet zeroName pt.loaded i)
    let load := Instr.loadPoint (.port (.sap p) (j.castLE (by decide)))
    let kq := portKey q
    let din := portDma kq false
    let dout := portDma kq true
    let frames (b : Nat) : Nat := 2 ^ s.fld (b + 4) dmaFrames
    let stride (b : Nat) : Nat := (4 * s.fld (b + 4) dmaChans + 7) / 8 * 8
    let at' (b x : Nat) : Nat := (s.reg b).toNat + x % frames b * stride b
    let event (b x : Nat) : Bool := s.fld (b + 4) dmaIrq != 15 && decide (x % 2 ^ s.fld (b + 4) dmaIrq = 0)
    let ahead := (s.rallyCount + s.fld (dout + 4) dmaLead) % 2 ^ 48
    (s.bit c pEn = true → s.bit st stWaiting = false → s.fld c pMode = 0 → s.bit c SAP_CTRL_master = false →
      pt.named = true → s.bit (SAP_DIN_BASE k + 4) dmaEn = false →
      (-49152 < ph → ph < 49152 → begins e ph false false) ∧ (ph < -49152 → begins pt.cur (ph + 65536) true false) ∧
      (49152 < ph → begins ((pt.cur + 2) % 2 ^ 48) (ph - 65536) false true)) ∧
    (runs → s.fld c pMode = 0 → pt.dropped = false → pt.repeated = false → j.val + 1 ≠ slots → ie.toNat % 2 = 1 → audio < 4 →
      Happens (.inputSlotEnd p j v) s [] (fun t u => portsOnly t { u with flue := { u.flue with outbox := t.flue.outbox } }) fun t =>
        (∀ i, t.outboxOf i = if i = k then s.outboxOf k ++ [⟨.audio, pt.cur % 256, ie.toNat / 2 ^ 4 % 2 ^ 12, w⟩]
          else s.outboxOf i) ∧
        portIs s t k { pt with words := (t.port k).words } ∧
        ∀ i, tabGet zeroWord (t.port k).words i = if i = j.val then w else tabGet zeroWord pt.words i) ∧
    (s.inboxOf k = tok :: left → tok.kind = .audio → (∀ i, i < slots → (takes i ↔ i = j.val)) → j.val < slots →
      tok.stag = s.expectTag k j.val → tabGet noWord pt.hold j.val = none →
      Happens (.stationTokenArrival (p.castLE (by decide))) s []
        (fun t u => portsOnly t { u with flue := { u.flue with inbox := t.flue.inbox } }) fun t =>
          (∀ i, t.inboxOf i = if i = k then left else s.inboxOf i) ∧ portIs s t k { pt with hold := (t.port k).hold } ∧
          ∀ i, tabGet noWord (t.port k).hold i = if i = j.val then some tok.payload else tabGet noWord pt.hold i) ∧
    (runs → pt.omapNext = none → s.fld c pMode = 0 → turn = false → oe.toNat % 4 = 1 →
      (∀ x, tabGet noWord pt.hold j.val = some x → Happens load s [] portsOnly fun t =>
        sends (BitVec.ofNat 32 (x.toNat / cut * cut)) t (t.port k).hold ∧
        ∀ i, tabGet noWord (t.port k).hold i = if i = j.val then none else tabGet noWord pt.hold i) ∧
      (tabGet noWord pt.hold j.val = none → s.bit (FLUE_ST_STAT k) ⟨0, 0⟩ = true →
        Happens load s [late]
          (fun t u => portsOnly t { u with flue := { u.flue with outbox := t.flue.outbox } }) fun t =>
          sends (BitVec.ofNat 32 ((if pt.substZero then 0 else tabGet zeroWord pt.last j.val).toNat / cut * cut)) t pt.hold ∧
          (t.reg late).toNat = min ((s.reg late).toNat + 1) (2 ^ 32 - 1) ∧
          ∀ i, t.outboxOf i = if i = k ∧ owner ≠ 0xFF then
              s.outboxOf k ++ [⟨.control, s.expectTag k j.val, owner, BitVec.ofNat 32 (0xC0 + k + j.val * 2 ^ 8)⟩]
            else s.outboxOf i)) ∧
    (s.ramOpen = true → kq < 32 → s.bit (portStat kq) stRunning = true → (16 ≤ kq → s.bit (portStat kq) stLock = true) →
      s.bit (din + 4) dmaEn = true → (s.port kq).dmaIn = (name, f) :: more →
      (s.reg din).toNat % 8 = 0 → at' din name + (f.length + 1) / 2 * 8 ≤ 0x800000 → s.bit MEMC_INJ_CTRL MEMC_INJ_CTRL_arm = false →
      Happens (.dmaFrameWrite q) s [din + 8] (fun t u => ({ portsOnly t u with mantel := t.mantel, flips := t.flips } : State).raiseIf
          (event din ((s.port kq).inFrames + 1)) 426) fun t =>
        t.reg (din + 8) = BitVec.ofNat 32 name ∧
        portIs s t kq { s.port kq with dmaIn := more, inFrames := (s.port kq).inFrames + 1 } ∧
        (∀ i, i < f.length → mantelWord32 t (at' din name + 4 * i) = f.getD i 0) ∧
        (f.length % 2 = 1 → mantelWord32 t (at' din name + 4 * f.length) = 0) ∧
        ∀ a, a < at' din name ∨ at' din name + (f.length + 1) / 2 * 8 ≤ a → t.mantelByte a = s.mantelByte a) ∧
    (s.ramOpen = true → s.portEn kq = true → s.bit (dout + 4) dmaEn = true → (kq < 16 ∨ 32 ≤ kq) →
      (s.reg dout).toNat % 8 = 0 → at' dout ahead + stride dout ≤ 0x800000 → (∀ i, i < stride dout / 8 → s.flipsOf (at' dout ahead / 8 + i) = 0) →
      Happens (.dmaFrameRead q) s [] (fun t u => (portsOnly t u).raiseIf (event dout ((s.port kq).outFrames + 1)) 426) fun t =>
        ∃ g : List Word, g.length = stride dout / 4 ∧ (∀ i, i < g.length → g.getD i 0 = mantelWord32 s (at' dout ahead + 4 * i)) ∧
          portIs s t kq { s.port kq with
            dmaOut := ((ahead, g) :: (s.port kq).dmaOut).take 17, outFrames := (s.port kq).outFrames + 1 })

/-- A receiver's port after it loses lock: no frame, no block, no frame that waits (R148, R150, R155). -/
def unlocked (x : Port) : Port :=
  { x with
    named := false, badPre := 0, viol := 0, block := none, csA := 0, csB := 0, uA := 0, uB := 0, fifo := [], dmaIn := [],
    dropped := false, repeated := false }

/-- The rest but for the ports and the tokens that wait at output stations' ports into the Flue. -/
def portsAndOutbox (t u : State) : State := { u with ports := t.ports, flue := { u.flue with outbox := t.flue.outbox } }

/-- Station st holds one more token. -/
def oneMore (s t : State) (st : Nat) (x : Token) : Prop :=
  ∀ i, t.outboxOf i = if i = st then s.outboxOf st ++ [x] else s.outboxOf i

/-- A word of a port's present frame. -/
def wordIs (s t : State) (k j : Nat) (w : Word) : Prop :=
  ∀ i, tabGet zeroWord (t.port k).words i = if i = j then w else tabGet zeroWord (s.port k).words i

/-- AES3 and MADI receivers lock, lose lock, decode words into tokens and status blocks; a MADI frame too full is counted
(R17, R20, R148, R149, R150, R152, R153, R154, R155, R156, R167). Where a clause goes beyond these rules it is the model's
choice (log entry 63). -/
def Obligations.ReceiversLockAndReceive : Prop :=
  ∀ (s : State) (i : Fin 8) (d : Fin 2) (ch : Fin 64) (sent : Fin 65) (lock preOk v u c parityOk start : Bool) (viol b : Nat)
    (audio : BitVec 24), s.awake = true → s.pwr.xoLost = false → s.inLight = false →
    let k := 16 + i.val
    let pt := s.port k
    let st := AES_RX_STAT i.val
    let errs := AES_RX_ERRS i.val
    let mk := 24 + d.val
    let mp := s.port mk
    let ms := MADI_STAT d.val
    let live (a k : Nat) : Prop := s.bit a stRunning = true ∧ s.bit a stLock = true ∧ s.portMode k = 0 ∧
      (s.port k).dropped = false ∧ (s.port k).repeated = false ∧
      ((s.outboxOf k).filter fun t => t.kind = .audio).length < 4
    let sub := Instr.aesSubframeReceive i false preOk false viol audio v u c parityOk
    let body : Nat := if s.bit (AES_RX_CTRL i.val) AES_RX_CTRL_word20 then audio.toNat / 16 * 16 else audio.toNat
    let w : Word := if parityOk = false then tabGet zeroWord pt.words 0
      else if v && s.bit (AES_RX_CTRL i.val) AES_RX_CTRL_v_mute then 0 else BitVec.ofNat 32 (body * 256)
    let mw : Word := if parityOk = false then tabGet zeroWord mp.words ch.val else BitVec.ofNat 32 (audio.toNat * 256)
    let counted (t : State) (a : Nat) (f : Fld) (x : Nat) : Prop := t.fld a f = min (s.fld a f + x) 0xFFFF
    let bad := if parityOk then 0 else 1
    let chans := (if s.bit (MADI_CTRL d.val) MADI_CTRL_ch56 then 56 else 64) /
      (if s.bit (MADI_CTRL d.val) MADI_CTRL_f96 then 2 else 1)
    let xk := 40 + d.val
    let xp := s.port xk
    let take : Bool := decide (xp.txFrame = 0) && xp.commit
    let lanes (x : Nat) (j : Nat) : Word := BitVec.ofNat 32 (x / 2 ^ (32 * j))
    let blocks := (List.range 6).flatMap fun j =>
      [AES_RX_CS_A i.val j, AES_RX_CS_B i.val j, AES_RX_U_A i.val j, AES_RX_U_B i.val j]
    (s.bit (AES_RX_CTRL i.val) pEn = true → s.bit st stLock = false → Happens (.aesRxLock i) s
      ([st, AES_RX_FILL i.val] ++ lockRegs) portsOnly fun t => inputEnds s t k ∧ t.reg st = stLock.set (s.reg st) 1 ∧ portIs s t k (unlocked pt)) ∧
    ((lock = true → s.bit (MADI_CTRL d.val) pEn = true ∧ s.bit ms stLock = false) →
      Happens (.madiRxLock d lock) s ([ms, MADI_FILL d.val] ++ lockRegs) portsOnly fun t => inputEnds s t mk ∧
        t.reg ms = stLock.set (s.reg ms) (if lock then 1 else 0) ∧ portIs s t mk (unlocked mp)) ∧
    (s.bit st stRunning = true → s.bit st stLock = true → ((preOk = false ∧ 1 ≤ pt.badPre) ∨ 8 ≤ pt.viol + viol) →
      Happens sub s ([st, errs, AES_RX_FILL i.val] ++ lockRegs) portsOnly fun t => inputEnds s t k ∧ t.reg st = stLock.set (s.reg st) 0 ∧ counted t errs errLine viol ∧
        t.fld errs errParity = s.fld errs errParity ∧ portIs s t k (unlocked pt)) ∧
    (live st k → (preOk = false → pt.badPre = 0) → pt.viol + viol < 8 → s.fld (AES_RX_TAGS i.val) AES_RX_TAGS_dest = 1 →
      pt.block = some b → b < 192 → Happens sub s [errs] portsAndOutbox fun t =>
        counted t errs errLine viol ∧ counted t errs errParity bad ∧
        oneMore s t k ⟨.audio, pt.cur % 256, s.fld (AES_RX_TAGS i.val) AES_RX_TAGS_tag_a, w⟩ ∧ wordIs s t k 0 w ∧
        portIs s t k { pt with
          words := (t.port k).words, badPre := if preOk then 0 else 1, viol := pt.viol + viol, block := some (b + 1),
          csA := pt.csA ||| (if c then 2 ^ b else 0), uA := pt.uA ||| (if u then 2 ^ b else 0) }) ∧
    (live st k → pt.block = some 192 → s.fld (AES_RX_TAGS i.val) AES_RX_TAGS_dest = 0 →
      Happens (.aesSubframeReceive i false true true 0 audio v u c true) s (st :: blocks) portsOnly fun t =>
        t.bit st stCsNew = true ∧ (∀ j, j < 6 →
          t.reg (AES_RX_CS_A i.val j) = lanes pt.csA j ∧ t.reg (AES_RX_CS_B i.val j) = lanes pt.csB j ∧
          t.reg (AES_RX_U_A i.val j) = lanes pt.uA j ∧ t.reg (AES_RX_U_B i.val j) = lanes pt.uB j) ∧
        (t.port k).block = some 1 ∧ (t.port k).csA = if c then 1 else 0) ∧
    (live ms mk → ch.val + 1 < chans → ch.val ≠ s.fld (MADI_OWN d.val) MADI_OWN_cs_sel →
      s.fld (MADI_TAGS d.val) MADI_TAGS_rx_dest = 1 →
      Happens (.madiChannelReceive d ch start audio v u c parityOk) s [MADI_ERRS d.val] portsAndOutbox fun t =>
        counted t (MADI_ERRS d.val) errParity bad ∧ t.fld (MADI_ERRS d.val) errLine = s.fld (MADI_ERRS d.val) errLine ∧
        oneMore s t mk ⟨.audio, mp.cur % 256, (s.fld (MADI_TAGS d.val) MADI_TAGS_rx_tag_base + ch.val) % 4096, mw⟩ ∧
        wordIs s t mk ch.val mw ∧
        portIs s t mk { mp with words := (t.port mk).words, chans := max mp.chans (ch.val + 1) }) ∧
    (s.bit (MADI_CTRL d.val) pEn = true → s.bit (MADI_CTRL d.val) MADI_CTRL_tx_en = true →
      s.fld (MADI_CTRL d.val) MADI_CTRL_tx_rate_mode = 0 →
      Happens (.madiTxFrame d sent) s [MADI_CTRL d.val, ms, MADI_ERRS d.val] portsOnly fun t =>
        let y := t.port xk
        let cs := if take then ((List.range 6).map fun j => (s.reg (MADI_TX_CS d.val j)).toNat * 2 ^ (32 * j)).sum else xp.txCs
        let nth := ((xp.txFrame + 1) % 192 + 191) % 192
        let bits := subframeBits ((tabGet zeroWord xp.wire 0).toNat / 256) false false (bitOf cs nth)
        let head := madiMode 0 (decide (nth = 0))
        let gone (c : Nat) : Prop := sent.val < chans ∧ 0 < c ∧ sent.val ≤ c ∧ c < 64
        portIs s t xk { xp with
          named := true, prev := xp.cur, cur := s.rallyCount, seq := xp.seq + 1, dropped := false, repeated := false,
          omapNext := none, outName := some s.rallyCount, substZero := s.bit (MADI_CTRL d.val) pSubst,
          tagOffs := s.fld (MADI_CTRL d.val) pTagOffset, txFrame := (xp.txFrame + 1) % 192, commit := xp.commit && !take,
          txCs := cs, sent := sent.val, hold := y.hold, loaded := y.loaded, subs := y.subs,
          line := madiLine xp.line (head + 16 * bits) } ∧
        (∀ c, tabGet noWord y.hold c = (if gone c then none else tabGet noWord xp.hold c) ∧
          tabGet zeroName y.loaded c = (if gone c then xp.seq + 1 else tabGet zeroName xp.loaded c) ∧
          tabGet noSub y.subs c = if c = 0 then ⟨head, bits⟩ else tabGet noSub xp.subs c) ∧
        t.reg (MADI_CTRL d.val) = (if take then MADI_CTRL_cs_commit.set (s.reg (MADI_CTRL d.val)) 0 else s.reg (MADI_CTRL d.val)) ∧
        t.reg ms = (if sent.val < chans then MADI_STAT_overfill.set (s.reg ms) 1 else s.reg ms) ∧
        counted t (MADI_ERRS d.val) errLine (chans - sent.val))

/-- Converters are allocated once per channel and only while their port is off, lock, and emit; STEERING repeats when empty
(R160, R161, R162, R163). Where a clause goes beyond these rules it is the model's choice (log entries 61, 64 and 167). -/
def Obligations.RateConversion : Prop :=
  ∀ (s : State) (m : Mid) (n : Fin 128) (v ratio : Word) (q : PortId) (out : Bool) (j : Nat) (f : BufFrame)
    (rest : List BufFrame), s.awake = true → s.pwr.xoLost = false → s.inLight = false →
    let a := ASRC_ALLOC n.val
    let old := s.reg a
    let dup : Prop := v.getLsbD 0 = true ∧ ∃ i, i < 128 ∧ i ≠ n.val ∧ s.bit (ASRC_ALLOC i) ASRC_ALLOC_en = true ∧
      s.reg (ASRC_ALLOC i) &&& 0x3FFE = v &&& 0x3FFE
    let runs (w : Word) : Prop := w.getLsbD 0 = true ∧ ∃ k o, allocPort w = some (k, o) ∧
      (s.portEn k = true ∨ s.bit (portCtrl k) pEn = true ∨ s.portRuns k = true)
    let busy : Prop := runs old ∨ runs v
    let tracked (t : State) : Prop := t.reg (ASRC_RATIO n.val) = match allocPort v with
      | none => 0
      | some (k, o) => if v.getLsbD 0 = false then 0 else if o then (s.port k).ratioOut else (s.port k).ratioIn
    let k := portKey q
    let st := portStat k
    let pt := s.port k
    let o := portOut q out
    let tied (i : Nat) : Bool := tiedTo s k o i
    let locks := (List.range 4).map ASRC_LOCK
    let flueOnly (i : Nat) : Prop := (s.inEntBy f.imap k i).dest % 2 = 1 ↔ i = j
    let live : Prop := 16 ≤ k → s.bit st stLock = true
    let ready : Prop := k < 32 ∧ s.bit st stRunning = true ∧ s.bit (portDma k false + 4) dmaEn = false ∧
      ((s.outboxOf k).filter fun t => t.kind = .audio).length < 4
    let token (tag : Nat) (w : Word) (t : State) : Prop := oneMore s t k ⟨.audio, s.rallyCount % 256, tag, w⟩
    let readTag := (s.inEntBy f.imap k j).tag
    (s.isSup m.val = true → s.noneWaits m.val = true →
      ((dup ∨ busy ∨ v.toNat / 4 % 4 = 3) → Refuses (.asrcAllocWrite m n v) s m.val a true) ∧
      (¬(dup ∨ busy ∨ v.toNat / 4 % 4 = 3) → Accepts (.asrcAllocWrite m n v) s m.val 0
        [a, ASRC_LOCK (n.val / 32), ASRC_RATIO n.val] (fun _ u => u) fun t => t.reg a = masked old v 0x3FFF ∧ tracked t ∧
          ∀ i, i < 128 → lockBit t i = (lockBit s i && decide (i ≠ n.val)))) ∧
    (2 ^ 28 ≤ 5 * ratio.toNat → ratio.toNat ≤ 5 * 2 ^ 28 → s.portRuns k = true → (k < 32 → live) →
      Happens (.asrcLock q out ratio) s (locks ++ (List.range 128).map ASRC_RATIO) portsOnly fun t =>
        portIs s t k (if o then { pt with fadeOut := 0, ratioOut := ratio } else { pt with fadeIn := 0, ratioIn := ratio }) ∧
        ∀ i, i < 128 → lockBit t i = (tied i || lockBit s i) ∧
          t.reg (ASRC_RATIO i) = if tied i then ratio else s.reg (ASRC_RATIO i)) ∧
    ((∃ i, i < 128 ∧ tied i = true ∧ lockBit s i = true) →
      Happens (.asrcLockLoss q out) s (ASRC_STAT :: locks) (fun _ u => u) fun t =>
        t.reg ASRC_STAT = ASRC_STAT_lost.set (s.reg ASRC_STAT) 1 ∧
        ∀ i, i < 128 → lockBit t i = (lockBit s i && !tied i)) ∧
    (ready → s.portMode k = 1 → j < s.portSlots k → (∀ i, i < s.portSlots k → (s.inEnt k i).dest = if i = j then 1 else 0) →
      Happens (.asrcEmit q) s [] (fun t u => { portsAndOutbox t u with freeCtr := t.freeCtr }) fun t =>
        ∃ w, token (s.inEnt k j).tag w t ∧ ((∀ i, s.asrcOf k false j = some i → lockBit s i = false) → w = 0) ∧
          portIs s t k { pt with fadeIn := min (pt.fadeIn + 1) 1024 }) ∧
    (ready → live → s.portMode k = 2 → pt.fifo = f :: rest → j < f.words.length → (∀ i, i < f.words.length → flueOnly i) →
      Happens (.steeringReadout q) s [portFill k] portsAndOutbox fun t =>
        token readTag (f.words.getD j 0) t ∧ portIs s t k { pt with fifo := rest, steerLast := f } ∧
        t.reg (portFill k) = BitVec.ofNat 32 (256 * rest.length)) ∧
    (ready → live → s.portMode k = 2 → pt.fifo = [] → pt.steerLast = f → j < f.words.length →
      (∀ i, i < f.words.length → flueOnly i) → Happens (.steeringReadout q) s [st, portSlips k] portsAndOutbox fun t =>
        token readTag (f.words.getD j 0) t ∧ portIs s t k pt ∧ t.bit st stSlip = true ∧ t.bit st stMismatch = true ∧
        t.fld (portSlips k) slipRepeats = min (s.fld (portSlips k) slipRepeats + 1) 0xFFFF)

/-- The rest but for the streams, queues and frames of NET. -/
def netOnly (t u : State) : State := { u with net := t.net }

/-- Of NET only receive stream i changed, to x. -/
def rxsIs (s t : State) (i : Nat) (x : RxStream) : Prop :=
  t.net = { s.net with rx := t.net.rx } ∧ ∀ j, t.rxs j = if j = i then x else s.rxs j

/-- Of NET only transmit stream i changed, to x. -/
def txsIs (s t : State) (i : Nat) (x : TxStream) : Prop :=
  t.net = { s.net with tx := t.net.tx } ∧ ∀ j, t.txs j = if j = i then x else s.txs j

/-- A count that stays at its largest value has risen by x. -/
def countUp (s t : State) (a x : Nat) : Prop := (t.reg a).toNat = min ((s.reg a).toNat + x) (2 ^ 32 - 1)

/-- Streams start in range, read out and substitute, load, packetise and queue; MACs send in order, receive, drop and count
(R164, R168, R170, R173, R175, R178, R179, R185, R186, R188, R190, R191). Where a clause goes beyond these rules it is the
model's choice (log entries 70, 71, 72, 76, 77 and 159). -/
def Obligations.NetworkStreamsAndFrames : Prop :=
  ∀ (s : State) (m : Mid) (i : Fin 64) (p : Fin 2) (v : Word) (lane : LaneStatus) (ok : Bool) (k : Nat) (l : List (List Word)) (bytes : List Byte)
    (more : List (List Byte)) (w : Word), s.awake = true → s.pwr.xoLost = false → s.inLight = false → s.ramOpen = true →
    s.bit MEMC_INJ_CTRL MEMC_INJ_CTRL_arm = false →
    let n (lo len : Nat) : Nat := v.toNat / 2 ^ lo % 2 ^ len
    let mult := 2 ^ s.fld RSG_CTRL RSG_CTRL_mult
    let rc := NET_RXS_CTRL i.val
    let tc := NET_TXS_CTRL i.val
    let buf (b : Nat) : Prop := 1 ≤ s.fld (b + 4) NET_RXS_BUF_CFG_frames_log2 ∧ s.fld (b + 4) NET_RXS_BUF_CFG_frames_log2 ≤ 12 ∧
      (s.reg b).toNat + 2 ^ s.fld (b + 4) NET_RXS_BUF_CFG_frames_log2 * ((4 * (n 8 4 + 1) + 7) / 8 * 8) ≤ 0x800000
    let d := s.fld (NET_RXS_TIMING i.val) NET_RXS_TIMING_d
    let rxOk : Prop := n 2 1 = 0 ∧ (s.chansOn false i.val + n 8 4 + 1) * mult ≤ 512 ∧ d ≠ 0 ∧
      d < 2 ^ s.fld (NET_RXS_BUF_CFG i.val) NET_RXS_BUF_CFG_frames_log2 ∧ buf (NET_RXS_BUF_BASE i.val)
    let txOk : Prop := (s.chansOn true i.val + n 8 4 + 1) * mult ≤ 512 ∧
      (n 8 4 + 1) * sppOf (n 6 2) mult * (2 + n 4 1) ≤ 1440 ∧ (n 2 1 = 1 → buf (NET_TXS_BUF_BASE i.val))
    let starts (tx : Bool) (P : State → Prop) : Prop := v.getLsbD 0 = true →
      let c := if tx then tc else rc
      let st := if tx then NET_TXS_STAT i.val else NET_RXS_STAT i.val
      Accepts (.netStreamEnable m tx i v) s m.val 0 [c, st] netOnly fun t =>
        t.reg c = masked (s.reg c) v (if tx then 0x0FFF0FF7 else 0x0FFF1FFF) ∧
        t.reg st = (if tx then NET_TXS_STAT_running else NET_RXS_STAT_running).set (s.reg st) 1 ∧ P t
    let rx := s.rxs i.val
    let tx := s.txs i.val
    let now := s.rallyCount
    let chans := s.fld rc NET_RXS_CTRL_chans + 1
    let stride := (4 * chans + 7) / 8 * 8
    let frame (x : Nat) : Nat := (s.reg (NET_RXS_BUF_BASE i.val)).toNat +
      x % 2 ^ s.fld (NET_RXS_BUF_CFG i.val) NET_RXS_BUF_CFG_frames_log2 * stride
    let sound (a len : Nat) : Prop := a % 8 = 0 ∧ a + len ≤ 0x800000 ∧ ∀ j, j < len / 8 → s.flipsOf (a / 8 + j) = 0
    let before := frame ((now + 2 ^ 48 - 1) % 2 ^ 48)
    let readout (regs : List Nat) (f : Nat → Word) (P : State → Prop) : Prop :=
      Happens (.streamReadout i) s (NET_RXS_POS i.val :: regs)
        (fun t u => ({ netOnly t u with
          mantel := t.mantel, flips := t.flips, flue := { u.flue with outbox := t.flue.outbox } } : State).raiseIf
          (s.fld (NET_RXS_BUF_CFG i.val) NET_RXS_BUF_CFG_irq_log2 != 15 &&
            decide ((rx.frames + 1) % 2 ^ s.fld (NET_RXS_BUF_CFG i.val) NET_RXS_BUF_CFG_irq_log2 = 0)) 429) fun t =>
        t.reg (NET_RXS_POS i.val) = BitVec.ofNat 32 now ∧ (∀ j, t.outboxOf j = if j = 26 then s.outboxOf 26 ++
          (List.range chans).map fun c => ⟨.audio, now % 256, (s.fld rc NET_RXS_CTRL_tag_base + c) % 4096, f c⟩
          else s.outboxOf j) ∧
        rxsIs s t i.val { rx with last := now, marks := (t.rxs i.val).marks, frames := rx.frames + 1 } ∧ P t
    let spp := sppOf (s.fld tc NET_TXS_CTRL_spp) mult
    let width := if s.bit tc NET_TXS_CTRL_fmt then 3 else 2
    let seq := s.fld (NET_TXS_SEQ i.val) NET_TXS_SEQ_seq
    let rtp : List Byte := beBytes 1 0x80 ++ beBytes 1 (s.fld (NET_TXS_HDR i.val) NET_TXS_HDR_pt) ++ beBytes 2 seq ++
      beBytes 4 (k + (s.reg (NET_TXS_RTP_OFFSET i.val)).toNat) ++ beBytes 4 (s.reg (NET_TXS_SSRC i.val)).toNat ++
      l.reverse.flatMap fun x => x.flatMap fun y => beBytes width (y.toNat / 2 ^ (32 - 8 * width))
    let q := s.fld (NET_TXS_LEG0_CFG i.val) NET_TXS_LEG0_CFG_mac
    let room : Prop := s.bit (NET_MAC_STAT q) NET_MAC_STAT_link = true ∧ (s.mediaOf q).length < 128
    let packs (regs : List Nat) (irq : Bool) (P : State → Prop) : Prop := Happens (.txPacketQueue i) s
      (NET_TXS_SEQ i.val :: NET_TXS_PKTS i.val :: regs) (fun t u => (netOnly t u).raiseIf irq 430) fun t =>
        t.reg (NET_TXS_SEQ i.val) = NET_TXS_SEQ_seq.set (s.reg (NET_TXS_SEQ i.val)) (seq + 1) ∧ countUp s t (NET_TXS_PKTS i.val) 1 ∧
        (∀ j, t.txs j = if j = i.val then { tx with pkt := none } else s.txs j) ∧ P t
    let queueIs (t : State) (b : Nat) (x : List (List Byte)) : Prop := ∀ j, t.mediaOf j = if j = b then x else s.mediaOf j
    let sent (t : State) (b : Nat) (x : List Byte) : Prop := countUp s t (NET_MAC_TX_FRAMES b) 1 ∧
      ∀ j, tabGet noFrames t.net.out j =
        if j = b then tabGet noFrames s.net.out b ++ [x ++ leBytes 4 (crc32 x)] else tabGet noFrames s.net.out j
    let up : Bool := lane.link && (s.bit (NET_MAC_CTRL p.val) NET_MAC_CTRL_mode || (lane.gigabit && lane.fullDuplex))
    let macUp (b : Nat) : Prop := s.bit (NET_MAC_CTRL b) NET_MAC_CTRL_en = true ∧ s.bit (NET_MAC_STAT b) NET_MAC_STAT_link = true
    let tail := s.fld NET_HTX_TAIL NET_HTX_TAIL_index % 2 ^ s.fld NET_HTX_CFG NET_HTX_CFG_slots_log2
    let slot := (s.reg NET_HTX_BASE).toNat + tail * 2048
    let head := (mantelWord32 s slot).toNat
    let len := head % 65536
    let b := head / 2 ^ 16 % 2
    let moved (t : State) : Prop := t.reg NET_HTX_TAIL = BitVec.ofNat 32
      ((s.fld NET_HTX_TAIL NET_HTX_TAIL_index + 1) % 2 ^ s.fld NET_HTX_CFG NET_HTX_CFG_slots_log2)
    let ring := 2 ^ s.fld NET_HRX_CFG NET_HRX_CFG_slots_log2
    let hr := s.fld NET_HRX_HEAD NET_HRX_HEAD_index % ring
    let full : Prop := (hr + 1) % ring = s.fld NET_HRX_TAIL NET_HRX_TAIL_index % ring
    let place := (s.reg NET_HRX_BASE).toNat + hr * 2048
    let recv := Instr.ethFrameReceive p bytes ok
    let plainFrame : Prop := beAt bytes 12 2 ∉ [0x0800, 0x8100, 0x88A8, 0x88F7, 0x8808]
    let size : Prop := 60 ≤ bytes.length ∧ bytes.length ≤ 1518
    (s.isSup m.val = true → s.noneWaits m.val = true → (s.bit rc NET_RXS_CTRL_en = false → (rxOk → starts false fun t =>
          rxsIs s t i.val { rxDefault 0 with last := now }) ∧
        (¬rxOk → Refuses (.netStreamEnable m false i v) s m.val rc true)) ∧
      (s.bit tc NET_TXS_CTRL_en = false → (txOk → starts true fun t => txsIs s t i.val { txDefault 0 with
          last := tx.last, loaded := if NET_TXS_CTRL_src.get v = 1 then some now else none }) ∧
        (¬txOk → Refuses (.netStreamEnable m true i v) s m.val tc true))) ∧
    (s.bit rc NET_RXS_CTRL_en = true → s.fld rc NET_RXS_CTRL_rate_mode ≠ 2 → s.bit rc ⟨6, 6⟩ = true →
      sound (frame now) stride → sound before stride →
      (now ∈ rx.marks → readout [] (fun c => mantelWord32 s (frame now + 4 * c)) fun t => t.mantel = s.mantel ∧ t.flips = s.flips) ∧
      (now ∉ rx.marks →
        let old (c : Nat) : Word := if s.bit rc NET_RXS_CTRL_subst then 0 else mantelWord32 s (before + 4 * c)
        readout [NET_RXS_SUBST i.val] old fun t => countUp s t (NET_RXS_SUBST i.val) 1 ∧
          (∀ c, c < stride / 4 → mantelWord32 t (frame now + 4 * c) = old c) ∧
          ∀ a, a < frame now ∨ frame now + stride ≤ a → t.mantelByte a = s.mantelByte a)) ∧
    (s.bit tc NET_TXS_CTRL_en = true → s.bit tc NET_TXS_CTRL_src = false →
      (tx.loaded ≠ some now → s.fld tc NET_TXS_CTRL_chans = 0 → tabGet noWord tx.hold 0 = some w →
        Happens (.loadPoint (.net i)) s [] netOnly fun t => txsIs s t i.val { tx with
            hold := (t.txs i.val).hold, last := (t.txs i.val).last, loaded := some now,
            pkt := if now % spp = 0 then some (now, [[w]]) else tx.pkt.map fun x => (x.1, [w] :: x.2) } ∧
          tabGet noWord (t.txs i.val).hold 0 = none ∧ tabGet zeroWord (t.txs i.val).last 0 = w) ∧
      (now % spp = 0 → tx.pkt = some (k, l) → s.bit tc NET_TXS_CTRL_dual = false →
        (room → packs [] false fun t => ∃ hd, (hd.length = 42 ∨ hd.length = 46) ∧ queueIs t q (s.mediaOf q ++ [hd ++ rtp])) ∧
        (¬room → packs [NET_TXS_DROPS i.val, NET_MAC_TX_DROPS q, NET_MAC_STAT q, NET_TXS_STAT i.val] true fun t =>
          queueIs t q (s.mediaOf q) ∧ countUp s t (NET_MAC_TX_DROPS q) 1 ∧
          t.fld (NET_TXS_DROPS i.val) NET_TXS_DROPS_leg0 = min (s.fld (NET_TXS_DROPS i.val) NET_TXS_DROPS_leg0 + 1) 0xFFFF ∧
          t.bit (NET_MAC_STAT q) NET_MAC_STAT_tx_ovf = true ∧ t.bit (NET_TXS_STAT i.val) NET_TXS_STAT_drop = true))) ∧
    (macUp p.val → tabGet noPtp s.tsu.ptpTx p.val = [] → s.mediaOf p.val = bytes :: more →
      Happens (.macTransmit p) s [NET_MAC_TX_FRAMES p.val] netOnly fun t => sent t p.val bytes ∧ queueIs t p.val more) ∧
    (s.bit (NET_MAC_STAT p.val) NET_MAC_STAT_link = !up → Happens (.netLinkChange p lane) s [NET_MAC_STAT p.val] (fun _ u => u) fun t =>
      t.reg (NET_MAC_STAT p.val) =
        NET_MAC_STAT_link_chg.set (NET_MAC_STAT_link.set (s.reg (NET_MAC_STAT p.val)) (if up then 1 else 0)) 1) ∧
    (tail ≠ s.fld NET_HTX_HEAD NET_HTX_HEAD_index % 2 ^ s.fld NET_HTX_CFG NET_HTX_CFG_slots_log2 → sound slot 2048 →
      ((len < 60 ∨ 1518 < len) → Happens .hostTxSend s [NET_MAC_TX_DROPS b, NET_HTX_TAIL] (fun _ u => u) fun t =>
        countUp s t (NET_MAC_TX_DROPS b) 1 ∧ moved t) ∧
      (60 ≤ len → len ≤ 1518 → head / 2 ^ 17 % 2 = 0 → macUp b → tabGet noPtp s.tsu.ptpTx b = [] → s.mediaOf b = [] →
        Happens .hostTxSend s [NET_MAC_TX_FRAMES b, NET_HTX_TAIL]
          (fun t u => ({ netOnly t u with freeCtr := t.freeCtr } : State).raise 428) fun t =>
          sent t b ((List.range len).map fun x => s.mantelByte (slot + 16 + x)) ∧ moved t)) ∧
    (s.bit (NET_MAC_CTRL p.val) NET_MAC_CTRL_en = true →
      (ok = false ∨ ¬size → Happens recv s [NET_MAC_RX_BAD p.val] (fun _ u => u) fun t => countUp s t (NET_MAC_RX_BAD p.val) 1) ∧
      (ok = true → size → beAt bytes 12 2 = 0x8808 → beAt bytes 14 2 = 1 →
        Happens recv s [NET_MAC_RX_FRAMES p.val] (fun _ u => u) fun t => countUp s t (NET_MAC_RX_FRAMES p.val) 1) ∧
      (ok = true → size → plainFrame →
        (s.hostTakes p.val bytes = false → Happens recv s [NET_MAC_RX_FRAMES p.val, NET_MAC_RX_UNMATCHED p.val] (fun _ u => u) fun t =>
          countUp s t (NET_MAC_RX_FRAMES p.val) 1 ∧ countUp s t (NET_MAC_RX_UNMATCHED p.val) 1) ∧
        (s.hostTakes p.val bytes = true → full →
          Happens recv s [NET_MAC_RX_FRAMES p.val, NET_MAC_STAT p.val] (fun _ u => u) fun t =>
            countUp s t (NET_MAC_RX_FRAMES p.val) 1 ∧ t.bit (NET_MAC_STAT p.val) NET_MAC_STAT_rx_ovf = true) ∧
        (s.hostTakes p.val bytes = true → ¬full → place % 8 = 0 →
          place + 16 + (bytes.length + 7) / 8 * 8 ≤ 0x800000 →
          Happens recv s [NET_MAC_RX_FRAMES p.val, NET_HRX_HEAD]
            (fun t u => ({ u with mantel := t.mantel, flips := t.flips, freeCtr := t.freeCtr } : State).raise 428) fun t =>
            countUp s t (NET_MAC_RX_FRAMES p.val) 1 ∧ t.reg NET_HRX_HEAD = BitVec.ofNat 32 ((hr + 1) % ring) ∧
            mantelWord32 t place = BitVec.ofNat 32 (bytes.length + p.val * 2 ^ 16 + 2 ^ 17) ∧
            (∀ x, x < bytes.length → t.mantelByte (place + 16 + x) = bytes.getD x 0) ∧
            ∀ a, a < place ∨ place + 16 + (bytes.length + 7) / 8 * 8 ≤ a → t.mantelByte a = s.mantelByte a)))

/-- The rest but for the Mantel and the wrong bits of its words. -/
def mantelOnly (t u : State) : State := { u with mantel := t.mantel, flips := t.flips }

/-- What a running pass has counted. -/
def passIs (t : State) (p : Scrub) : Prop := t.scrub = p

/-- The scrubber starts in range, checks word after word, ends with its summary; injections arm; the clear zeroes every RAM
(R313, R314, R318, R321, R322, R323, R324, R325, R326, R327). Where a clause goes beyond these rules it is the model's choice
(log entries 26, 28 and 29). -/
def Obligations.ScrubbingInjectionAndClear : Prop :=
  ∀ (s : State) (m : Mid) (v : Word), s.awake = true →
    let inj := MEMC_INJ_CTRL
    let c := MEMC_SCRUB_CTRL
    let armed := s.bit inj MEMC_INJ_CTRL_arm
    let on := s.bit c MEMC_SCRUB_CTRL_en
    let a := s.fld MEMC_SCRUB_START MEMC_SCRUB_START_addr
    let b := s.fld MEMC_SCRUB_END MEMC_SCRUB_END_addr
    let tiles := v.getLsbD 2
    let inRange : Prop := if tiles then a ≤ b ∧ b ≤ 191 else a % 8 = 0 ∧ b % 8 = 0 ∧ a < b ∧ b ≤ 0x800000
    let same : Prop := s.reg c &&& 6 = v &&& 6
    let target := s.bit c MEMC_SCRUB_CTRL_target
    let pos := (s.reg MEMC_SCRUB_POS).toNat
    let p := s.scrub
    let scrubOnly (t u : State) : State := { u with scrub := t.scrub }
    let sums := [MEMC_SCRUB_CHECKED, MEMC_SCRUB_CORR, MEMC_SCRUB_UNC, MEMC_SCRUB_UE_FIRST, MEMC_SCRUB_UE_LAST,
      MEMC_SCRUB_STAT, MEMC_EVT]
    let bound (x : Option Nat) : Word := match x with
      | none => 0xFFFFFFFF
      | some y => BitVec.ofNat 32 y
    let summary (t : State) (n : Nat) (part : Bool) : Prop := t.reg MEMC_SCRUB_CHECKED = BitVec.ofNat 32 n ∧
      t.reg MEMC_SCRUB_CORR = BitVec.ofNat 32 p.corr ∧ t.reg MEMC_SCRUB_UNC = BitVec.ofNat 32 p.unc ∧
      t.reg MEMC_SCRUB_UE_FIRST = bound p.first ∧ t.reg MEMC_SCRUB_UE_LAST = bound p.last ∧
      t.reg MEMC_SCRUB_STAT = BitVec.ofNat 32 ((if part then 1 else 0) + if target then 2 else 0) ∧
      t.bit MEMC_EVT MEMC_EVT_scrub_done = true ∧ passIs t ⟨0, 0, 0, none, none⟩
    let runs : Prop := on = true ∧ target = false ∧ s.inRun = true ∧ s.ramOpen = true ∧ s.pwr.xoLost = false
    let loops := s.bit c MEMC_SCRUB_CTRL_mode
    (s.isSup m.val = true → s.noneWaits m.val = true →
      (armed = true → v.toNat / 2 ^ 8 % 2 ^ 8 ≠ s.fld inj MEMC_INJ_CTRL_flip → Refuses (.injArm m v) s m.val inj true) ∧
      ((armed = true → v.toNat / 2 ^ 8 % 2 ^ 8 = s.fld inj MEMC_INJ_CTRL_flip) →
        Accepts (.injArm m v) s m.val 0 [inj] (fun _ u => u) fun t => t.reg inj = masked (s.reg inj) v 0xFF00 ||| 1) ∧
      (on = false → inRange → Accepts (.scrubEnable m v) s m.val 0 [c, MEMC_SCRUB_POS] scrubOnly fun t =>
        t.reg c = masked (s.reg c) (v ||| 1) 7 ∧ passIs t ⟨0, 0, 0, none, none⟩ ∧
        t.reg MEMC_SCRUB_POS = BitVec.ofNat 32 (if tiles then 0x01000000 + 0x10000 * a else a)) ∧
      (on = false → ¬inRange → Refuses (.scrubEnable m v) s m.val c true) ∧
      (on = true → ¬same → Refuses (.scrubEnable m v) s m.val c true ∧ Refuses (.scrubStop m v) s m.val c true) ∧
      (on = true → same → Accepts (.scrubStop m v) s m.val 0 (c :: sums) scrubOnly fun t =>
        t.reg c = masked (s.reg c) (v &&& ~~~1) 7 ∧ summary t p.checked true)) ∧
    (runs → s.flipsOf (pos / 8) = 0 →
      (pos + 8 < b → Happens .scrubWord s [MEMC_SCRUB_POS] scrubOnly fun t =>
        t.reg MEMC_SCRUB_POS = BitVec.ofNat 32 (pos + 8) ∧ passIs t { p with checked := p.checked + 1 }) ∧
      (b ≤ pos + 8 → Happens .scrubWord s (c :: MEMC_SCRUB_PASSES :: MEMC_SCRUB_POS :: sums) scrubOnly fun t =>
        summary t (p.checked + 1) false ∧ countUp s t MEMC_SCRUB_PASSES 1 ∧
        (if loops then t.reg c = s.reg c ∧ t.reg MEMC_SCRUB_POS = BitVec.ofNat 32 a
         else t.reg c = MEMC_SCRUB_CTRL_en.set (s.reg c) 0 ∧ t.reg MEMC_SCRUB_POS = s.reg MEMC_SCRUB_POS))) ∧
    (∀ k, k < 72 → runs → s.flipsOf (pos / 8) = 2 ^ k → pos + 8 < b →
      Happens .scrubWord s [MEMC_SCRUB_POS, MEMC_CE_COUNT, MEMC_EVT, MEMC_CE_ADDR, MEMC_CE_INFO]
        (fun t u => scrubOnly t { u with flips := t.flips }) fun t =>
        t.reg MEMC_SCRUB_POS = BitVec.ofNat 32 (pos + 8) ∧
        passIs t { p with checked := p.checked + 1, corr := p.corr + 1 } ∧ countUp s t MEMC_CE_COUNT 1 ∧
        t.bit MEMC_EVT MEMC_EVT_ce = true ∧ (∀ w, t.flipsOf w = if w = pos / 8 then 0 else s.flipsOf w) ∧
        if s.bit MEMC_CE_INFO MEMC_CE_INFO_valid then
          t.reg MEMC_CE_ADDR = s.reg MEMC_CE_ADDR ∧ t.reg MEMC_CE_INFO = s.reg MEMC_CE_INFO
        else t.reg MEMC_CE_ADDR = BitVec.ofNat 32 (8 * (pos / 8)) ∧
          t.reg MEMC_CE_INFO = BitVec.ofNat 32 (k + 0x313 * 2 ^ 8 + 2 ^ 20 + 2 ^ 31)) ∧
    (s.ramOpen = false →
      Happens .clearOnWake s [MEMC_STATUS]
        (fun t u => hearthsOnly t { mantelOnly t u with bel := { s.bel with lanes := t.bel.lanes } }) (fun t =>
        t.bit MEMC_STATUS MEMC_STATUS_clearing = true ∧ (∀ x, t.mantelByte x = 0) ∧ (∀ x, t.flipsOf x = 0) ∧
        (∀ n, t.hearth n = { s.hearth n with ram := [], ramErr := [], prog := [], progBad := [], slots := [] }) ∧
        ∀ k, t.lane k = (s.lane k).cleared) ∧
      (s.pwr.xoLost = false → s.bit MEMC_STATUS MEMC_STATUS_clearing = true → s.quiet = true →
        Happens .clearDone s [MEMC_STATUS] (fun _ u => u) fun t =>
          t.bit MEMC_STATUS MEMC_STATUS_clear_done = true ∧ t.bit MEMC_STATUS MEMC_STATUS_clearing = false))

/-- The rest but for the Damper's own state. -/
def dmpOnly (t u : State) : State := { u with dmp := t.dmp }

/-- The Damper's own state is x, and DMP_STAT shows its queue. -/
def dmpIs (t : State) (x : Dmp) : Prop := t.dmp = x ∧
  t.fld DMP_STAT DMP_STAT_qfill = x.fill % 2 ^ 11 ∧ t.bit DMP_STAT DMP_STAT_busy = x.delivery.isSome

/-- A count lies ahead of the present one by d Ts. -/
def ahead (s : State) (n d : Nat) : Prop := n < 2 ^ 48 ∧ (n + 2 ^ 48 - s.rallyCount % 2 ^ 48) % 2 ^ 48 = d

/-- Sets are staged while not pending; a direct write and a Kickoff for a count ahead enter the queue, or are refused (R332,
R333, R334, R335, R336, R337, R338, R339, R340, R342). Where a clause goes beyond these rules it is the model's choice (log
entries 30, 33, 34 and 69). -/
def Obligations.StagingWritesAndKickoffs : Prop :=
  ∀ (s : State) (m : Mid) (i : Fin 16) (v : Word) (n d : Nat), s.awake = true → s.isSup m.val = true → s.jobs = [] →
    let pc := DMP_SET_COUNT i.val
    let pending := s.bit pc DMP_SET_COUNT_pending
    let count := s.fld pc DMP_SET_COUNT_count
    let place (k : Nat) : Nat := (s.reg DMP_STG_BASE).toNat + 0x10000 * i.val + 8 * k
    let rank := s.rankOf m.val
    let lead := v.toNat / 2 ^ 8 % 2 ^ 7
    let ctrlOk : Prop := 8 ≤ lead ∧ lead ≤ 120 ∧ v.toNat / 2 % 2 ^ 7 ≤ 64
    let en := s.bit DMP_CTRL DMP_CTRL_en
    let d0 := s.dmp
    let w := tabGet zeroWord d0.wrParam m.val
    let item (n : Nat) : DmpItem := ⟨n, n, none, none, [⟨DMP_WR_PARAM_param.get w, v, rank, m.val⟩], false, .nobody⟩
    let least := (s.rallyCount + s.dmpLead) % 2 ^ 48
    let free : Prop := s.inLight = false ∧ en = true ∧ d0.fill < 1024 ∧ d0.begun = none ∧ d0.closed = []
    let set := v.toNat / 2 ^ 16 % 2 ^ 4
    let sc := DMP_SET_COUNT set
    let sa (k : Nat) : Nat := (s.reg DMP_STG_BASE).toNat + 0x10000 * set + 8 * k
    let word (x : Word) (lo len : Nat) : Nat := x.toNat / 2 ^ lo % 2 ^ len
    let kick := (tabGet zeroWord d0.kickLo m.val).toNat + v.toNat % 2 ^ 16 * 2 ^ 32
    (pending = true → Refuses (.dmpSetParam m i v) s m.val (DMP_SET_PARAM i.val) true ∧
      Refuses (.dmpSetCount m i v) s m.val pc true ∧ Refuses (.dmpSetValue m i v) s m.val (DMP_SET_VALUE i.val) true) ∧
    (8192 < v.toNat % 2 ^ 14 → Refuses (.dmpSetCount m i v) s m.val pc true) ∧
    (8192 ≤ count → Refuses (.dmpSetValue m i v) s m.val (DMP_SET_VALUE i.val) true) ∧
    (pending = false →
      Accepts (.dmpSetParam m i v) s m.val 0 [DMP_SET_PARAM i.val] (fun _ u => u) (fun t =>
        t.reg (DMP_SET_PARAM i.val) = masked (s.reg (DMP_SET_PARAM i.val)) v 0xFFFF) ∧
      (v.toNat % 2 ^ 14 ≤ 8192 → Accepts (.dmpSetCount m i v) s m.val 0 [pc] (fun _ u => u) fun t =>
        t.reg pc = masked (s.reg pc) v 0x3FFF) ∧
      (count < 8192 → (s.reg DMP_STG_BASE).toNat % 8 = 0 → place count + 8 ≤ 0x800000 → s.bit MEMC_INJ_CTRL MEMC_INJ_CTRL_arm = false →
        Accepts (.dmpSetValue m i v) s m.val 0 [pc] mantelOnly fun t =>
          t.reg pc = DMP_SET_COUNT_count.set (s.reg pc) (count + 1) ∧ mantelWord32 t (place count) = v ∧
          mantelWord32 t (place count + 4) =
            BitVec.ofNat 32 (s.fld (DMP_SET_PARAM i.val) DMP_SET_PARAM_param + rank * 2 ^ 16 + m.val * 2 ^ 19) ∧
          ∀ a, a < place count ∨ place count + 8 ≤ a → t.mantelByte a = s.mantelByte a)) ∧
    (ctrlOk → Accepts (.dmpEnableWrite m v) s m.val 0 [DMP_CTRL] (fun _ u => u) fun t =>
      t.reg DMP_CTRL = masked (s.reg DMP_CTRL) v 0x0FFF7FFF) ∧
    (¬ctrlOk → Refuses (.dmpEnableWrite m v) s m.val DMP_CTRL true) ∧
    (en = false → Refuses (.dmpWrValue m v) s m.val DMP_WR_VALUE true) ∧
    (en = false ∨ s.bit sc DMP_SET_COUNT_pending = true → Refuses (.dmpKick m v) s m.val DMP_KICK_AT_HI true) ∧
    (free → DMP_WR_PARAM_at_en.get w = 1 → ahead s n d → s.dmpLead < d → d < 2 ^ 31 →
      tabGet zeroWord d0.wrAt m.val = BitVec.ofNat 32 n →
      Happens (.dmpWrValue m v) s [DMP_STAT] dmpOnly fun t => dmpIs t { d0 with items := d0.items ++ [item n] }) ∧
    (free → DMP_WR_PARAM_at_en.get w = 0 → d0.items = [] →
      Accepts (.dmpWrValue m v) s m.val 0 [DMP_STAT] dmpOnly fun t =>
        dmpIs t { d0 with closed := [(least, [item least])] }) ∧
    (free → s.bit sc DMP_SET_COUNT_pending = false → v.getLsbD 20 = false → v.getLsbD 21 = false → ahead s kick d →
      s.dmpLead < d → d < 2 ^ 47 → (s.reg DMP_STG_BASE).toNat % 8 = 0 →
      (∀ k, k < s.fld sc DMP_SET_COUNT_count → sa k + 8 ≤ 0x800000 ∧ s.flipsOf (sa k / 8) = 0) →
      Accepts (.dmpKick m v) s m.val 0 [sc, DMP_STAT] dmpOnly fun t =>
        t.reg sc = DMP_SET_COUNT_pending.set (s.reg sc) 1 ∧ ∃ vals : List DmpVal,
          dmpIs t { d0 with items := d0.items ++ [⟨kick, kick, some set, none, vals, false, .nobody⟩] } ∧
          vals.length = s.fld sc DMP_SET_COUNT_count ∧ ∀ k (x : DmpVal), vals[k]? = some x →
            let e := mantelWord32 s (sa k + 4)
            x = ⟨word e 0 16, mantelWord32 s (sa k), word e 16 3, word e 19 10⟩)

/-- A group closes by rank, lower MID and later arrival; its values go to their Hearths before the ARM, and its record is
kept (R330, R335, R338, R340, R341, R343, R344, R345, R252). Where a clause goes beyond these rules it is the model's choice
(log entries 31, 35, 36 and 37). -/
def Obligations.GroupsResolvedAndDelivered : Prop :=
  ∀ (s : State) (a b : DmpVal) (n set port : Nat) (k : ChmPacket) (rest : List (Nat × ChmPacket)), s.awake = true → s.jobs = [] →
    s.pwr.xoLost = false →
    let d0 := s.dmp
    let item (vals : List DmpVal) : DmpItem := ⟨n, n, none, none, vals, false, .nobody⟩
    let due : Prop := countDiff n s.rallyCount ≤ s.dmpLead
    let replied (t : State) (x y : Nat → Option Resp) : Prop := ∀ j, tabGet replyDefault t.replies j =
      match x j with
      | some r => ⟨r, 0⟩
      | none => match y j with
        | some r => ⟨r, 0⟩
        | none => tabGet replyDefault s.replies j
    let answer (m : Nat) (r : Resp) (j : Nat) : Option Resp := if j = m then some r else none
    let nobody (_ : Nat) : Option Resp := none
    let answers (t u : State) : State := dmpOnly t { u with replies := t.replies }
    let kicked : DmpItem := ⟨n, n, some set, none, [a], false, .nobody⟩
    let entry := (s.reg DMP_MAP_BASE).toNat + 8 * a.param
    let low := (mantelWord32 s entry).toNat
    let h := low % 2 ^ 8
    let zc := low / 2 ^ 16 % 2
    let window := s.fld DMP_CTRL DMP_CTRL_zc_window
    let sum := s.reg DMP_KREP_SUM
    let status := k.word / 2 ^ 16 % 4
    let got := min (DMP_KREP_SUM_received.get sum + 1) 127
    (due → d0.closed = [] →
      (d0.items = [item [a]] → Happens .groupClose s [DMP_STAT] answers fun t =>
        dmpIs t { d0 with items := [], closed := [(n, [item [a]])] } ∧ replied t (answer a.mid .ok) nobody) ∧
      (d0.items = [item [a], item [b]] → a.param = b.param → a.mid ≠ b.mid →
        (b.rank < a.rank ∨ (a.rank = b.rank ∧ a.mid < b.mid)) →
        Happens .groupClose s [DMP_STAT, DMP_SUPERSEDED, DMP_SUP_INFO] answers fun t =>
          dmpIs t { d0 with items := [], closed := [(n, [item [a], item []])] } ∧
          replied t (answer a.mid .ok) (answer b.mid .superseded) ∧ countUp s t DMP_SUPERSEDED 1 ∧
          t.bit DMP_STAT DMP_STAT_sup = true ∧ t.reg DMP_SUP_INFO = if s.bit DMP_SUP_INFO DMP_SUP_INFO_valid then s.reg DMP_SUP_INFO
            else BitVec.ofNat 32 (b.param + b.mid * 2 ^ 16 + 2 ^ 31))) ∧
    (s.ramOpen = true → d0.delivery = none → d0.closed = [(n, [kicked])] → n < 2 ^ 48 → set < 16 → h ≤ 191 →
      low / 2 ^ 17 = 2 ^ 14 → entry % 8 = 0 → entry + 8 ≤ 0x800000 → s.flipsOf (entry / 8) = 0 → s.bit MEMC_INJ_CTRL MEMC_INJ_CTRL_arm = false →
      s.lastArmOf h = none → 0 < countDiff ((n + 2 ^ 48 - 1) % 2 ^ 48) s.rallyCount →
      Happens .groupDelivery s [DMP_STAT, DMP_LAST_LO, DMP_LAST_INFO, DMP_SET_COUNT set]
        (fun t u => dmpOnly t (mantelOnly t { u with flue := { u.flue with outbox := t.flue.outbox } })) fun t =>
        t.dmp = { d0 with closed := [], begun := t.dmp.begun, lastArm := t.dmp.lastArm } ∧
        (∀ j, t.lastArmOf j = if j = h then some n else s.lastArmOf j) ∧
        (∀ j, t.outboxOf j = if j = 27 then s.outboxOf 27 ++
            [⟨.param, low / 2 ^ 8 % 2 ^ 8, h + zc * 2 ^ 8, a.value⟩,
             ⟨.param, 0, h + 2 * 2 ^ 8, BitVec.ofNat 32 (n % 2 ^ 8 + window * 2 ^ 8)⟩]
          else s.outboxOf j) ∧
        mantelWord32 t (entry + 4) = a.value ∧
        (∀ x, x < entry + 4 ∨ entry + 8 ≤ x → t.mantelByte x = s.mantelByte x) ∧
        t.reg (DMP_SET_COUNT set) = DMP_SET_COUNT_pending.set (s.reg (DMP_SET_COUNT set)) 0 ∧
        t.reg DMP_LAST_LO = BitVec.ofNat 32 n ∧ t.reg DMP_LAST_INFO = BitVec.ofNat 32 (set + 2 ^ 31)) ∧
    (s.chm.ctrlIn = (port, k) :: rest → k.kind = 3 → k.src < 64 → k.word % 2 ^ 8 = DMP_KREP_SUM_seq.get sum → status = 1 →
      Happens .kickReportReceive s [DMP_KREP k.src, DMP_KREP_SUM]
        (fun _ u => ({ u with chm := { s.chm with ctrlIn := rest } } : State).raiseIf
          (decide (got = max 1 (s.fld DMP_CTRL DMP_CTRL_expect))) 439) fun t =>
        t.reg (DMP_KREP k.src) = BitVec.ofNat 32 (k.word % 2 ^ 8 + k.word / 2 ^ 8 % 2 ^ 8 * 2 ^ 8 + 2 ^ 16 + 2 ^ 31) ∧
        t.reg DMP_KREP_SUM = DMP_KREP_SUM_received.set sum got)

/-- The rest but for the transports, gate requests and generated frames. -/
def mifOnly (t u : State) : State := { u with mif := t.mif }

/-- Transport m is x; the other transports, requests and generated frames are as they were. -/
def transIs (s t : State) (m : Nat) (x : Trans) : Prop :=
  t.mif = { s.mif with trans := t.mif.trans } ∧ ∀ j, t.trans j = if j = m then x else s.trans j

/-- The state that STALL, spool and direction give a transport (R364). -/
def transState (t : State) (m : Nat) : Nat :=
  if t.bit (MIF_STAT m) MIF_STAT_stall then 0 else if t.bit (MIF_STAT m) MIF_STAT_spool then 3
  else if t.bit (MIF_STAT m) MIF_STAT_dir then 2 else 1

/-- Every enabled open gate of transport m is closed where c holds; the others are as they were (R369). -/
def gatesClosed (s t : State) (m : Nat) (c : Bool) : Prop :=
  ∀ g, g < 16 → t.gateOpen g = (s.gateOpen g && !(c && s.gateOn g && decide (s.gateTrans g = m)))

/-- A transport counts edges, captures at its index, updates speed and STALL, follows DIR, and its gates open and close
(R355, R356, R357, R358, R359, R360, R361, R362, R364, R366, R368, R369). Where a clause goes beyond these rules it is the
model's choice (log entries 80, 81, 82, 84, 85, 86 and 168). -/
def Obligations.TransportsCountAndGates : Prop :=
  ∀ (s : State) (m : Mid) (i : Fin 4) (a b rising level : Bool) (v : Word) (r : GateReq) (rest : List GateReq) (g : Nat),
    s.awake = true → s.pwr.xoLost = false → (s.wideOf (wideKey (.mifPos i))).load = none →
    let n := i.val
    let x := s.trans n
    let cfg := MIF_CFG n
    let st := MIF_STAT n
    let on := s.bit cfg MIF_CFG_en
    let f (d : Fld) : Nat := s.fld cfg d
    let direct : Prop := f MIF_CFG_filt = 0
    let y : Trans := { x with a := a, b := b, filtA := ⟨a, 0⟩, filtB := ⟨b, 0⟩ }
    let z : Trans := { x with dirPin := level, filtD := ⟨level, 0⟩ }
    let settled : Prop := ∀ back, s.fixedDir n = some back → s.bit st MIF_STAT_dir = back
    let src := f MIF_CFG_dir_src
    let inv (d : Int) : Int := if s.bit cfg MIF_CFG_invert then -d else d
    let ea := x.a != a
    let lead : Int := if ea then (if a != b then 1 else -1) else if a = b then 1 else -1
    let inPos (p : Int) : Prop := -2 ^ 47 ≤ p ∧ p < 2 ^ 47
    let changed (t : State) : Bool := decide (t.mifState n ≠ s.mifState n)
    let past := (x.acc :: x.past).take 10
    let speed := past.sum * 1600
    let rate := (s.reg (RSG_MED_NOM n)).toNat
    let low : Prop := speed.natAbs < 16 * s.fld (MIF_STALL_CFG n) MIF_STALL_CFG_thr
    let was := s.bit st MIF_STAT_stall
    let ratio (t : State) : Prop := t.reg (MIF_SPEED n) = BitVec.ofInt 32 speed ∧ (rate = 0 → t.reg (MIF_RATIO n) = 0) ∧
      (rate ≠ 0 → ∃ q, nearQuot q (speed * 4096000) rate ∧ (-2 ^ 31 ≤ q → q < 2 ^ 31 → t.reg (MIF_RATIO n) = BitVec.ofInt 32 q))
    let gates := [MIF_GATE_STAT, MIF_GATE_LAST]
    let rev := level == s.bit cfg MIF_CFG_dir_pol
    let opens (t : State) (k : Nat → Bool) : Prop := ∀ j, j < 16 → t.gateOpen j = (s.gateOpen j || k j)
    let runsAt (j : Nat) : Prop := s.gateOn j = true ∧ s.mifState (s.gateTrans j) = 1
    let request (u : State) : State := { u with mif := { s.mif with gateReqs := rest } }
    let ok : Prop := ¬(MIF_CFG_decode.get v = 3 ∧ MIF_CFG_dir_src.get v = 0) ∧ MIF_CFG_idx_mode.get v ≠ 3 ∧
      MIF_CFG_rev_hyst.get v ≠ 0
    let fixed : Prop := s.reg cfg &&& 0x3FFE = v &&& 0x3FFE
    let irq := v.getLsbD 14
    (x.filtA.pin = a → a ≠ x.a → b = x.b → x.filtA.slots < f MIF_CFG_filt → Happens (.tachEdge i a b) s [] mifOnly fun t =>
      transIs s t n { x with filtA := ⟨a, x.filtA.slots + 1⟩, filtB := ⟨b, 0⟩ }) ∧
    (on = false → direct → Happens (.tachEdge i a b) s [] mifOnly fun t => transIs s t n y) ∧
    (src ≠ 1 → settled → direct → Happens (.medDirEdge i level) s [] mifOnly fun t => transIs s t n z) ∧
    (on = true → direct →
      (f MIF_CFG_decode ≠ 3 → x.a ≠ a → x.b ≠ b → Happens (.tachEdge i a b) s [MIF_ERRS n, st] mifOnly fun t =>
        transIs s t n y ∧ t.bit st MIF_STAT_qerr = true ∧
        t.fld (MIF_ERRS n) MIF_ERRS_quad = min (s.fld (MIF_ERRS n) MIF_ERRS_quad + 1) 0xFFFF) ∧
      (f MIF_CFG_decode = 2 → (x.a = a ↔ x.b ≠ b) → inPos (x.pos + inv lead) →
        (src ≠ 0 ∨ x.extreme - f MIF_CFG_rev_hyst < x.pos + inv lead → s.bit st MIF_STAT_dir = false →
          Happens (.tachEdge i a b) s [] mifOnly fun t => transIs s t n { y with
            pos := x.pos + inv lead, acc := x.acc + inv lead, extreme := max x.extreme (x.pos + inv lead) }) ∧
        (src = 0 → s.bit st MIF_STAT_dir = false → x.pos + inv lead ≤ x.extreme - f MIF_CFG_rev_hyst →
          Happens (.tachEdge i a b) s (st :: gates)
            (fun t u => (mifOnly t u).raiseIf (s.bit cfg MIF_CFG_irq_state && changed t) 442) fun t => transIs s t n { y with
            pos := x.pos + inv lead, acc := x.acc + inv lead, extreme := x.pos + inv lead } ∧
            t.bit st MIF_STAT_dir = true ∧ t.mifState n = transState t n ∧ gatesClosed s t n true)) ∧
      (f MIF_CFG_decode = 3 → src = 2 → s.bit st MIF_STAT_dir = false → x.a = false → a = true → inPos (x.pos + inv 1) →
        Happens (.tachEdge i a b) s [] mifOnly fun t => transIs s t n { y with
          pos := x.pos + inv 1, acc := x.acc + inv 1, extreme := max x.extreme (x.pos + inv 1) })) ∧
      (direct → src = 1 → Happens (.medDirEdge i level) s (st :: gates)
        (fun t u => (mifOnly t u).raiseIf (s.bit cfg MIF_CFG_irq_state && changed t) 442) fun t =>
        transIs s t n { z with extreme := if s.bit st MIF_STAT_dir = rev then x.extreme else x.pos } ∧
        t.bit st MIF_STAT_dir = rev ∧
        (s.bit st MIF_STAT_dir ≠ rev → t.mifState n = transState t n) ∧
        gatesClosed s t n (rev && !s.bit st MIF_STAT_dir)) ∧
    (direct → s.bit cfg MIF_CFG_idx_pol = !rising → f MIF_CFG_idx_mode = 1 →
      Happens (.indexEdge i rising) s [MIF_IDX_CAP_LO n, MIF_IDX_CAP_HI n, st]
        (fun t u => (mifOnly t u).raiseIf (s.bit cfg MIF_CFG_irq_idx) 443) fun t => t.bit st MIF_STAT_idx = true ∧
        transIs s t n { x with idx := rising, filtI := ⟨rising, 0⟩ } ∧
        t.reg (MIF_IDX_CAP_LO n) = BitVec.ofInt 32 x.pos ∧
        (t.reg (MIF_IDX_CAP_HI n)).toNat = (BitVec.ofInt 48 x.pos).toNat / 2 ^ 32) ∧
    (on = false → Happens (.speedUpdate i) s [MIF_SPEED n, MIF_RATIO n] (fun t u => mifOnly t { u with freeCtr := t.freeCtr })
      fun t => ratio t ∧ transIs s t n { x with acc := 0, past := past }) ∧
    (on = true → Happens (.speedUpdate i) s (MIF_SPEED n :: MIF_RATIO n :: st :: gates)
      (fun t u => (mifOnly t { u with freeCtr := t.freeCtr }).raiseIf (s.bit cfg MIF_CFG_irq_state && changed t) 442)
      fun t => ratio t ∧ (low → t.bit st MIF_STAT_stall = (was || decide (s.fld (MIF_STALL_CFG n) MIF_STALL_CFG_time ≤ x.lowFor + 1)) ∧
          transIs s t n { x with acc := 0, past := past, lowFor := min (x.lowFor + 1) 255 }) ∧
        (¬low → t.bit st MIF_STAT_stall = false ∧ transIs s t n { x with acc := 0, past := past, lowFor := 0 }) ∧
        t.mifState n = transState t n ∧ gatesClosed s t n (t.bit st MIF_STAT_stall && !was)) ∧
    (s.mif.gateReqs = r :: rest → r.gate < 16 →
      (r.openIt = true → runsAt r.gate → r.transport = s.gateTrans r.gate →
        Happens .gateRequest s [MIF_GATE_STAT] (fun _ u => request u) fun t => opens t (decide <| · = r.gate)) ∧
      (s.gateOn r.gate = false → Happens .gateRequest s [MIF_GATE_REFUSED] (fun _ u => (request u).raise 446) fun t =>
        countUp s t MIF_GATE_REFUSED 1)) ∧
    (s.isSup m.val = true → s.noneWaits m.val = true →
      ((∀ j, j < 16 → v.getLsbD j = true → runsAt j) → Accepts (.mifGateSet m v) s m.val 0 [MIF_GATE_STAT] (fun _ u => u) fun t =>
        opens t v.getLsbD) ∧
      (g < 16 → ¬runsAt g → s.gateOpen g = false → v = BitVec.ofNat 32 (2 ^ g) →
        Accepts (.mifGateSet m v) s m.val 0 [MIF_GATE_REFUSED] (fun _ u => u.raise 446) fun t => countUp s t MIF_GATE_REFUSED 1) ∧
      Accepts (.mifGateClr m v) s m.val 0 gates (fun _ u => u) (fun t =>
        ∀ j, j < 16 → t.gateOpen j = (s.gateOpen j && !v.getLsbD j)) ∧
      (¬ok ∨ (on = true ∧ ¬fixed) → Refuses (.mifEnable m i v) s m.val cfg true) ∧
      (on = false → ok → MIF_CFG_dir_src.get v = 0 → Accepts (.mifEnable m i v) s m.val 0 [cfg, st]
        (fun t u => (mifOnly t u).raiseIf (irq && changed t) 442) fun t =>
        t.reg cfg = masked (s.reg cfg) (v ||| 1) 0xFF01FFFF ∧ transIs s t n { x with lowFor := 0 } ∧
        t.bit st MIF_STAT_stall = false ∧ t.mifState n = transState t n) ∧
      (on = true → ok → fixed → settled → Accepts (.mifDisable m i v) s m.val 0 (cfg :: st :: gates)
        (fun t u => u.raiseIf (irq && changed t) 442) fun t =>
        t.reg cfg = masked (s.reg cfg) (v &&& ~~~1) 0xFF01FFFF ∧ t.bit st MIF_STAT_stall = true ∧
        t.bit st MIF_STAT_spool = false ∧ t.mifState n = 0 ∧ gatesClosed s t n true))

/-- LTC is read and generated frame by frame; cues take their keys, a pass is requested, and the log pops (R346, R347, R348,
R352, R353, R371, R372, R373). Where a clause goes beyond these rules it is the model's choice (log entries 40, 87, 88 and
89). -/
def Obligations.TimecodeAndCues : Prop :=
  ∀ (s : State) (m : Mid) (i : Fin 4) (b : BitVec 80) (periods late : Bool) (speed : BitVec 16) (at_ : LtcCapture) (v w : Word)
    (c : Fin 4096) (log : List Word), s.awake = true → s.pwr.xoLost = false →
    let n := i.val
    let x := s.trans n
    let st := MIF_STAT n
    let ctl := MIF_LTCO_CTRL n
    let bits (lo len : Nat) : Nat := b.toNat / 2 ^ lo % 2 ^ len
    let forward : Prop := bits 64 16 = 0xBFFC
    let backward : Prop := bits 64 16 ≠ 0xBFFC ∧ b.reverse.toNat / 2 ^ 64 = 0xBFFC
    let inSpeed : Prop := 4096 ≤ 10 * speed.toNat ∧ speed.toNat ≤ 10 * 4096
    let p := (BitVec.ofInt 48 x.pos).toNat
    let back := (BitVec.ofInt 48 (x.pos - at_.counts.toInt)).toNat
    let begun := (s.rallyCount + 2 ^ 48 - at_.samples.toNat) % 2 ^ 48
    let info := bits 10 1 * 2 + bits 11 1 * 4 + ltcFlags (s.fld (MIF_LTCI_CFG n) MIF_LTCI_CFG_fps) b * 8 + speed.toNat * 2 ^ 16
    let time : Word := BitVec.ofNat 32 (bits 0 4 + bits 8 2 * 2 ^ 4 + bits 16 4 * 2 ^ 8 + bits 24 3 * 2 ^ 12 +
      bits 32 4 * 2 ^ 16 + bits 40 3 * 2 ^ 20 + bits 48 4 * 2 ^ 24 + bits 56 2 * 2 ^ 28)
    let follows := x.ltcSeen && decide ((timeOf (x.ltc.getD 0 0)).next (s.fld (MIF_LTCI_CFG n) MIF_LTCI_CFG_fps) = timeOf time)
    let fps := s.fld ctl MIF_LTCO_CTRL_fps
    let plain (y : Word) : Word := (masked (s.reg ctl) y 0x27 &&& ~~~(y &&& 0x40)) ||| (y &&& 0x18)
    let sameRate : Prop := x.genOn = true → MIF_LTCO_CTRL_fps.get v = fps
    let frame (tc : Word) : Nat × BitVec 80 := (n, ltcEncode fps tc x.genUb (s.bit ctl MIF_LTCO_CTRL_cf))
    let emits (tc : Word) (P : State → Prop) : Prop := Happens (.ltcFrameStart i) s [ctl] mifOnly fun t =>
      t.mif = { s.mif with trans := t.mif.trans, ltcOut := s.mif.ltcOut ++ [frame tc] } ∧
      (∀ j, t.trans j = if j = n then { x with genOn := true, genDue := none, genTc := tc } else s.trans j) ∧
      t.bit ctl MIF_LTCO_CTRL_ub_commit = false ∧ P t
    let nextTime := ((timeOf x.genTc).next fps).word
    let hi (lo len : Nat) : Nat := v.toNat / 2 ^ lo % 2 ^ len
    let lo := s.reg (CUE_KEY_LO c.val)
    let key := lo.toNat + hi 0 16 * 2 ^ 32
    let bad : Prop := hi 23 1 = 1 ∧ (hi 16 2 = 3 ∨ hi 20 2 = 3)
    let past : Bool := let d := (key + 2 ^ 48 - s.rallyCount) % 2 ^ 48; decide (d = 0 ∨ 2 ^ 47 ≤ d)
    let cueOnly (t u : State) : State := { u with cue := t.cue }
    let cue (q : CueSt) : Prop := Accepts (.cueKeyWrite m c v) s m.val 0 [CUE_KEY_HI c.val] cueOnly fun t =>
      t.reg (CUE_KEY_HI c.val) = v ∧ t.cue = { s.cue with cues := t.cue.cues } ∧
      ∀ j, t.cueOf j = if j = c.val then q else s.cueOf j
    (¬inSpeed → Happens (.ltcFrameReceive i b periods speed at_) s [] (fun _ u => u) fun _ => True) ∧
    (inSpeed → periods = false ∨ ¬forward ∧ ¬backward →
      Happens (.ltcFrameReceive i b periods speed at_) s [MIF_LTCI_ERRS n, st] (fun _ u => u) fun t =>
        countUp s t (MIF_LTCI_ERRS n) 1 ∧ t.bit st MIF_STAT_ltc_err = true) ∧
    (inSpeed → backward → Happens (.ltcFrameReceive i b true speed at_) s [st]
      (fun t u => (mifOnly t u).raiseIf (s.bit (MIF_CFG n) MIF_CFG_irq_ltc) 444) fun t => t.bit st MIF_STAT_ltc_new = true ∧
      ∃ tc ub inf : Word, inf.getLsbD 0 = true ∧ transIs s t n { x with ltcSeen := true, ltc := [tc, ub, inf, BitVec.ofNat 32 back,
        BitVec.ofNat 32 (back / 2 ^ 32), BitVec.ofNat 32 begun, BitVec.ofNat 32 (begun / 2 ^ 32),
        BitVec.ofNat 32 at_.phase.toNat] }) ∧
    (inSpeed → forward → Happens (.ltcFrameReceive i b true speed at_) s [st]
      (fun t u => (mifOnly t u).raiseIf (s.bit (MIF_CFG n) MIF_CFG_irq_ltc) 444) fun t =>
      transIs s t n { x with ltcSeen := true, ltc := [time, ltcUser b, BitVec.ofNat 32 info, BitVec.ofNat 32 p,
        BitVec.ofNat 32 (p / 2 ^ 32), BitVec.ofNat 32 s.rallyCount, BitVec.ofNat 32 (s.rallyCount / 2 ^ 32),
        BitVec.ofNat 32 at_.phase.toNat] } ∧
      t.bit st MIF_STAT_ltc_new = true ∧ t.bit st MIF_STAT_ltc_valid = follows) ∧
    Happens (.ltcTimeout i) s [st] (fun _ u => u) (fun t => t.reg st = MIF_STAT_ltc_valid.set (s.reg st) 0) ∧
    (s.bit ctl MIF_LTCO_CTRL_en = true → s.pwr.hold = false →
      (x.genDue = some late → emits (s.reg (MIF_LTCO_TC n)) fun t => t.bit ctl MIF_LTCO_CTRL_arm = false ∧
        t.bit ctl MIF_LTCO_CTRL_late = (late || s.bit ctl MIF_LTCO_CTRL_late)) ∧
      (x.genDue = none → x.genOn = true → emits nextTime fun t =>
        t.bit ctl MIF_LTCO_CTRL_arm = s.bit ctl MIF_LTCO_CTRL_arm)) ∧
    (s.bit ctl MIF_LTCO_CTRL_en = false → Happens (.ltcFrameStart i) s [] mifOnly fun t =>
      transIs s t n { x with genOn := false, genDue := none }) ∧
    (s.isSup m.val = true → s.noneWaits m.val = true →
      (¬sameRate → Refuses (.ltcArm m i v) s m.val ctl true ∧ Refuses (.ltcStop m i v) s m.val ctl true ∧
        Refuses (.ltcUbCommit m i v) s m.val ctl true) ∧
      (sameRate → v.getLsbD 4 = false →
        Accepts (.ltcArm m i v) s m.val 0 [ctl] (fun _ u => u) (fun t => t.reg ctl = plain (v ||| 8)) ∧
        Accepts (.ltcStop m i v) s m.val 0 [ctl] (fun _ u => u) fun t => t.reg ctl = plain (v &&& ~~~1)) ∧
      (sameRate → Accepts (.ltcUbCommit m i v) s m.val 0 [ctl] mifOnly fun t => t.reg ctl = plain (v ||| 0x10) ∧
        transIs s t n { x with genUb := s.reg (MIF_LTCO_UB n) }) ∧
      (bad → Refuses (.cueKeyWrite m c v) s m.val (CUE_KEY_HI c.val) true) ∧
      (¬bad → hi 16 2 = 2 → cue ⟨lo, v, false, none, false, past⟩) ∧
      (¬bad → hi 16 2 = 0 → s.actWord c.val % 8 ≠ 3 →
        cue ⟨lo, v, decide ((if key < 2 ^ 47 then (key : Int) else key - 2 ^ 48) ≤ (s.trans (hi 18 2)).latPos), none, false, false⟩) ∧
      Accepts (.cueEvalNow m v) s m.val 0 [] cueOnly (fun t => t.cue = { s.cue with evalNow := true }) ∧
      (s.cue.log = w :: log → Accepts (.cueLogPop m) s m.val w [] cueOnly fun t => t.cue = { s.cue with log := log }) ∧
      (s.cue.log = [] → Accepts (.cueLogPop m) s m.val 0 [] (fun _ u => u) fun _ => True))

/-- Of the Bellows only its lanes change. -/
def lanesOnly (t u : State) : State := { u with bel := { u.bel with lanes := t.bel.lanes } }

/-- Lane l is o, every other lane as it was, and BEL_LANE_STAT shows it. -/
def laneIs (s t : State) (l : Nat) (o : Lane) : Prop :=
  (∀ k, t.lane k = if k = l then o else s.lane k) ∧
  t.reg (BEL_LANE_STAT l) = BitVec.ofNat 32 ((if t.laneRuns l then 0 else 1) + (if o.run.isSome then 2 else 0) +
    o.run.getD 0 * 2 ^ 2 + o.pc * 2 ^ 8)

/-- Lane l executes the instruction at its PC: it runs loop j, no breakpoint stops it, the word is sound, it stands where an
instruction of its kind may stand, and it has steps left (R382, R387, R395, R519). -/
def laneReady (s : State) (l : Nat) (ctl : Bool) : Prop :=
  let o := s.lane l
  s.awake = true ∧ s.laneRuns l = true ∧ o.stepping = false ∧ (o.bpSkip = true ∨ s.belBreak l o.pc = none) ∧
  tabGet falseAt o.progBad o.pc = false ∧ (ctl = true → ∀ e ∈ o.loops.head?, e.stop ≠ o.pc) ∧
  ∃ j, o.run = some j ∧ (s.fld (BEL_LOOP_MAXST (32 * l + j)) BEL_LOOP_MAXST_max_steps = 0 ∨
    o.steps < s.fld (BEL_LOOP_MAXST (32 * l + j)) BEL_LOOP_MAXST_max_steps)

/-- Command i retires an instruction of lane l in sequence, loops ended as R382 says: the lane's registers become those of
f, the registers of the list change, g is what else does, and P holds. -/
def laneDoes (i : Instr) (s : State) (l : Nat) (regs : List Nat) (g : State → State → State) (f : Lane → Lane)
    (P : State → Prop) : Prop :=
  let o := s.lane l
  Happens i s (BEL_LANE_STAT l :: regs) (fun t u => g t (lanesOnly t u)) fun t =>
    laneIs s t l { f o with
      loops := (belLoopEnd o.pc o.loops).1, pc := (belLoopEnd o.pc o.loops).2, steps := o.steps + 1, bpSkip := false } ∧ P t

/-- As laneDoes, with nothing but the lane's registers. -/
def laneSets (i : Instr) (s : State) (l : Nat) (f : Lane → Lane) : Prop := laneDoes i s l [] (fun _ u => u) f fun _ => True

/-- Command i jumps in lane l to an address, with loop stack x. -/
def laneJumps (i : Instr) (s : State) (l pc : Nat) (x : List BelLoop) : Prop :=
  Happens i s [BEL_LANE_STAT l] lanesOnly fun t =>
    laneIs s t l { s.lane l with pc := pc % 1024, loops := x, steps := (s.lane l).steps + 1, bpSkip := false }

/-- Command i faults in lane l: it halts, the fault is captured and summed, its PWM outputs are inactive, and its queued SPI
transfers are gone (R395). -/
def laneFaults (i : Instr) (s : State) (l cause : Nat) : Prop :=
  let o := s.lane l
  let f := BEL_LANE_FAULT l
  let mine (n : Nat) : Prop := s.pwmOwner (s.pwmLeader n) = l
  Happens i s ([BEL_LANE_STAT l, f, BEL_SUM, BEL_LANE_CTRL l] ++ (List.range 32).map BEL_PWM_CMP ++ (List.range 4).map BEL_SPI_STAT)
    (fun t u => { u with bel := { u.bel with lanes := t.bel.lanes, spi := t.bel.spi, pwm := t.bel.pwm } }) fun t =>
    laneIs s t l { o with stepping := false } ∧ t.laneRuns l = false ∧
    t.fld BEL_SUM BEL_SUM_fault = s.fld BEL_SUM BEL_SUM_fault ||| 2 ^ l ∧
    t.reg f = (if s.bit f BEL_LANE_FAULT_valid then s.reg f
      else BitVec.ofNat 32 (cause + o.run.getD 0 * 2 ^ 8 + o.pc * 2 ^ 16 + 2 ^ 31)) ∧
    (∀ n, n < 32 → (mine n → t.reg (BEL_PWM_CMP n) = 0) ∧ (¬mine n → t.reg (BEL_PWM_CMP n) = s.reg (BEL_PWM_CMP n) ∧ t.pwm n = s.pwm n)) ∧
    ∀ c, c < 4 → t.spi c = { s.spi c with
      queue := (s.spi c).queue.filter fun x => s.fld (BEL_SPI_SEL c x.1) BEL_SPI_SEL_lane != l }

/-- The mantissa of an accumulator at an exponent, towards −∞ (R380). -/
def mantissa (a e : Int) : Int := if 0 < 15 + e then a / 2 ^ (15 + e).toNat else a * 2 ^ (-(15 + e)).toNat

/-- The smallest exponent of −32 to 31 at which the mantissa fits 16 bits, else 31 (R379). -/
def leastFit (a e : Int) : Prop :=
  let fits (x : Int) : Prop := -2 ^ 15 ≤ mantissa a x ∧ mantissa a x < 2 ^ 15
  e ≤ 31 ∧ -32 ≤ e ∧ (e = 31 ∨ fits e) ∧ ∀ x, -32 ≤ x → x < e → ¬fits x

/-- Every Bellows instruction writes its register, port, memory or PC as its table row says, and reserved operands fault
(R378, R379, R380, R381, R382, R383, R384, R385, R390, R391, R393, R394). Where a clause goes beyond these rules it is the
model's choice (log entries 95, 96, 97, 98 and 102). -/
def Obligations.LaneInstructions : Prop :=
  ∀ (s : State) (l : LaneId) (r d a b : BelSel) (i : Bool) (k : Fin 1024) (acc : Fin 4) (sh : Fin 32) (n : Fin 64) (x : Fin 8)
    (p : Fin 256) (q : Fin 4) (y3 : Fin 8) (m : Fin 32) (w : Word) (e : Int) (cnt : BelCount) (j : Nat), laneReady s l.val false →
    let o := s.lane l.val
    let addr := (k.val + if i then (o.getX 7).toNat else 0) % (if r.val < 8 then 1024 else 128)
    let ld := Instr.belLd l r i k
    let st := Instr.belSt l r i k
    let ok (y : Instr) : Prop := y.wellFormed = true
    let sets (y : Instr) (v : Int) : Prop := ok y → laneSets y s l.val fun o => o.put d v
    let A := o.get a
    let B := o.get b
    let takes (y : Instr) (v : Int) (f : Lane → Lane) (regs : List Nat) (g : State → State → State) (P : State → Prop) : Prop :=
      laneDoes y s l.val regs g (fun o => (f o).setA acc.val (BitVec.ofInt 40 (v * 2 ^ sh.val))) P
    let inp := Instr.belIn l acc sh p
    let out := o.getX x.val
    let far (y : Instr) (pc : Nat) (z : List BelLoop) : Prop := laneJumps y s l.val pc z
    let box := tabGet mboxDefault o.mbox q.val
    let win := (s.reg (BEL_LANE_MWIN l.val)).toNat + 2 * o.midx
    let sound : Prop := s.ramOpen = true ∧ win % 2 = 0 ∧ win + 2 ≤ 0x800000 ∧ s.flipsOf (win / 8) = 0
    let half : Nat := (s.mantelByte win).toNat + (s.mantelByte (win + 1)).toNat * 2 ^ 8
    let next (o : Lane) : Lane := { o with midx := (o.midx + 1) % 2048 }
    let cmp (n : Nat) : Nat := BEL_PWM_CMP n
    let pwmOnly (t u : State) : State := { u with bel := { u.bel with pwm := t.bel.pwm } }
    let later (t : State) (n : Nat) : Prop := (t.pwm n).before = some (s.slot, s.pwmCmp n) ∧ (t.pwm n).start = (s.pwm n).start
    let still (t : State) (n n' : Nat) : Prop := ∀ j, j ≠ n → j ≠ n' → t.pwm j = s.pwm j
    let share := out.toNat * (s.fld (BEL_PWM_PERIOD m.val) BEL_PWM_PERIOD_period + 1) / 32768
    let sel := BEL_SPI_SEL q.val x.val
    let count := match cnt with
      | .reg r => (o.getX r.val).toNat
      | .imm c => c.toNat
    let arith := [ld, st, .belMac l d a b, .belMsu l d a b, .belMul l d a b, .belAdd l d a b, .belSub l d a b, .belMin l d a b,
      .belMax l d a b, .belShl l d a n, .belShr l d a n, .belAbs l d a, .belNeg l d a, .belClr l d, .belMova l d a n,
      .belBfn l d a b, .belBfnE l d a, .belBfx l d a b]
    (∀ y ∈ arith, y.wellFormed = false → laneFaults y s l.val 1) ∧
    (decodeBel w = none → laneFaults (.belReservedWord l w) s l.val 1) ∧
    (ok ld → (r.val < 8 → tabGet falseAt o.dataBad addr = false →
        laneSets ld s l.val fun o => o.setX r.val (tabGet zero16 o.data addr)) ∧
      (8 ≤ r.val → tabGet falseAt o.keepBad addr = false →
        laneSets ld s l.val fun o => o.setA (r.val - 8) (tabGet zero40 o.keep addr)) ∧
      ((if r.val < 8 then tabGet falseAt o.dataBad addr else tabGet falseAt o.keepBad addr) = true → laneFaults ld s l.val 2)) ∧
    (ok st → laneSets st s l.val fun o =>
      if r.val < 8 then o.setData addr (o.getX r.val) else o.setKeep addr (o.getA (r.val - 8))) ∧
    sets (.belMac l d a b) (o.get d + A * B) ∧ sets (.belMsu l d a b) (o.get d - A * B) ∧ sets (.belMul l d a b) (A * B) ∧
    sets (.belAdd l d a b) (A + B) ∧ sets (.belSub l d a b) (A - B) ∧
    sets (.belMin l d a b) (min A B) ∧ sets (.belMax l d a b) (max A B) ∧
    sets (.belShl l d a n) (A * 2 ^ n.val) ∧ sets (.belShr l d a n) (A / 2 ^ n.val) ∧
    sets (.belAbs l d a) (if A < 0 then -A else A) ∧ sets (.belNeg l d a) (-A) ∧ sets (.belClr l d) 0 ∧
    sets (.belMova l d a n) (if d.val < 8 then A / 2 ^ n.val else A * 2 ^ n.val) ∧
    (-32 ≤ e → e ≤ 31 → (B - e) % 64 = 0 → sets (.belBfn l d a b) (mantissa A e) ∧
      sets (.belBfx l d a b) (if 0 ≤ 15 + e then A * 2 ^ (15 + e).toNat else A / 2 ^ (-(15 + e)).toNat)) ∧
    (leastFit A e → sets (.belBfnE l d a) e) ∧
    (p.val < 0x10 → takes inp (s.reg (BEL_ENC_COUNT p.val)).toInt id [] (fun _ u => u) fun _ => True) ∧
    (0x10 ≤ p.val → p.val < 0x20 → takes inp (s.reg (BEL_ENC_IDX (p.val - 0x10))).toInt id [] (fun _ u => u) fun _ => True) ∧
    (0x20 ≤ p.val → p.val < 0x40 → laneFaults inp s l.val 5) ∧
    takes (.belInMbox l acc sh q) box.1.toInt (fun o => { o with mbox := tabSet mboxDefault o.mbox q.val (box.1, false) }) []
      (fun _ u => u) (fun _ => True) ∧
    (sound → takes (.belInMrd l acc sh) (if half < 2 ^ 15 then (half : Int) else half - 2 ^ 16) next [] (fun _ u => u) fun _ => True) ∧
    (0x83 ≤ p.val → p.val < 0x88 → laneFaults (.belOut l x p) s l.val 5) ∧
    ((p.val = 0x80 → laneSets (.belOut l x p) s l.val fun o => { o with midx := out.toNat % 2048 }) ∧
      laneSets (.belOutMidx l x) s l.val fun o => { o with midx := out.toNat % 2048 }) ∧
    (s.fld (BEL_PWM_CFG m.val) BEL_PWM_CFG_lane = l.val → s.pwmLeader m.val = m.val →
      (m.val % 2 = 1 ∨ s.bit (BEL_PWM_CFG m.val) BEL_PWM_CFG_pair = false →
        laneDoes (.belOutPwm l x m) s l.val [cmp m.val] pwmOnly id fun t => later t m.val ∧ still t m.val m.val ∧
          (t.pwm m.val).offAt = s.pwmOffAt m.val ∧ (t.pwm m.val).deadEnd = (s.pwm m.val).deadEnd ∧
          t.reg (cmp m.val) = BitVec.ofNat 32 out.toNat) ∧
      (m.val % 2 = 0 → s.bit (BEL_PWM_CFG m.val) BEL_PWM_CFG_pair = true → 0 ≤ out.toInt →
        laneDoes (.belOutPwm l x m) s l.val [cmp m.val, cmp (m.val + 1)] pwmOnly id fun t =>
          later t m.val ∧ later t (m.val + 1) ∧ still t m.val (m.val + 1) ∧ (t.pwm (m.val + 1)).offAt = s.pwmOffAt (m.val + 1) ∧
          (t.pwm m.val).deadEnd = (match s.pwmOffAt (m.val + 1) with
            | some y => if share = 0 then (s.pwm m.val).deadEnd else y + s.fld (BEL_PWM_CFG m.val) BEL_PWM_CFG_dead
            | none => (s.pwm m.val).deadEnd) ∧
          t.reg (cmp m.val) = BitVec.ofNat 32 share ∧ t.reg (cmp (m.val + 1)) = 0)) ∧
    (s.fld (BEL_PWM_CFG m.val) BEL_PWM_CFG_lane ≠ l.val → laneFaults (.belOutPwm l x m) s l.val 5) ∧
    (s.fld sel BEL_SPI_SEL_lane = l.val → s.spiHolds q.val x.val = false →
      laneDoes (.belOutSpiGo l y3 q x) s l.val [BEL_SPI_STAT q.val] (fun t u => { u with bel := { u.bel with spi := t.bel.spi } }) id
        fun t => ∀ c, t.spi c = if c = q.val then { s.spi c with queue := (s.spi c).queue ++
          [(x.val, BitVec.ofNat 32 ((tabGet zero16 o.txh q.val).toNat * 2 ^ 16 + (o.getX y3.val).toNat))] } else s.spi c) ∧
    laneSets (.belOutTxh l x q) s l.val (fun o => { o with txh := tabSet zero16 o.txh q.val out }) ∧
    laneSets (.belOutEvth l x) s l.val (fun o => { o with evth := out }) ∧
    ((s.outboxOf 29).length < 8 → laneDoes (.belOutEvt l x q) s l.val []
      (fun t u => { u with flue := { u.flue with outbox := t.flue.outbox } }) id fun t => oneMore s t 29
        ⟨.event, s.rallyCount % 256, s.fld (BEL_LANE_EVT l.val q.val) BEL_LANE_EVT_tag,
          BitVec.ofNat 32 (o.evth.toNat * 2 ^ 16 + out.toNat)⟩) ∧
    (sound → s.bit MEMC_INJ_CTRL MEMC_INJ_CTRL_arm = false → laneDoes (.belOutMwr l x) s l.val [] mantelOnly next fun t =>
      ∀ y, t.mantelByte y = if y = win then out.extractLsb' 0 8 else if y = win + 1 then out.extractLsb' 8 8 else s.mantelByte y) ∧
    (s.noneWaits 0x316 = true → laneDoes (.belOutTemp l x) s l.val [RSG_TEMP_EXT, RSG_STATUS]
      (fun t u => { u with replies := t.replies, rsg := { s.rsg with extStale := false } }) id (fun t =>
        Answers s t 0x316 0 ∧ t.reg RSG_TEMP_EXT = (s.reg RSG_TEMP_EXT &&& 0xFFFF0000) ||| out.zeroExtend 32 ∧
        t.reg RSG_STATUS = RSG_STATUS_temp_stale.set (s.reg RSG_STATUS) 0)) ∧
    (laneReady s l.val true →
      far (.belJmp l k) k.val o.loops ∧
      (r.val < 12 → far (.belJz l r k) (if o.get r = 0 then k.val else o.pc + 1) o.loops ∧
        far (.belJn l r k) (if o.get r < 0 then k.val else o.pc + 1) o.loops) ∧
      (ok (.belLoop l cnt k) → o.pc < k.val →
        (count = 0 → far (.belLoop l cnt k) (k.val + 1) o.loops) ∧
        (count ≠ 0 → o.loops.length < 2 → far (.belLoop l cnt k) (o.pc + 1) (⟨o.pc + 1, k.val, count⟩ :: o.loops)) ∧
        (count ≠ 0 → 2 ≤ o.loops.length → laneFaults (.belLoop l cnt k) s l.val 3)) ∧
      (o.run = some j → s.reg (BEL_LANE_PEND l.val) = 0 →
        Happens (.belTickInstr l) s [BEL_LANE_STAT l.val, BEL_LOOP_STAT (32 * l.val + j)] lanesOnly fun t =>
          t.fld (BEL_LOOP_STAT (32 * l.val + j)) BEL_LOOP_STAT_last_steps = min 65535 (o.steps + 1) ∧
          laneIs s t l.val { o with run := none, loops := [], bpSkip := false }))

/-- Lanes start runs, halt, resume, reset and are debugged; encoders count; SPI transfers run; mailboxes take their tokens
(R385, R389, R391, R392, R395, R396, R398, R519). Where a clause goes beyond these rules it is the model's choice (log
entries 93, 99, 100, 103 and 168). -/
def Obligations.LanesHaltedEncodersSpiAndMailboxes : Prop :=
  ∀ (s : State) (m : Mid) (l : LaneId) (n : Fin 16) (c : Fin 4) (v miso : Word) (a b z : Bool) (j : Nat) (k : Fin 1024) (w : Word)
    (rest : List (Nat × Word)) (tok : Token) (left : List Token), s.awake = true →
    let o := s.lane l.val
    let ctrl := BEL_LANE_CTRL l.val
    let stat := BEL_LANE_STAT l.val
    let pend := s.reg (BEL_LANE_PEND l.val)
    let fault := BEL_LANE_FAULT l.val
    let dbg := BEL_LANE_DBG_CTRL l.val
    let on := s.laneRuns l.val
    let sel := s.fld (BEL_LANE_DBG_SEL l.val) BEL_LANE_DBG_SEL_code
    let lowest : Prop := j < 32 ∧ pend.getLsbD j = true ∧ pend.toNat % 2 ^ j = 0
    let begun (t : State) : Prop := t.reg (BEL_LANE_PEND l.val) = pend - BitVec.ofNat 32 (2 ^ j) ∧ laneIs s t l.val { o with
      run := some j, pc := s.fld (BEL_LOOP_CFG (32 * l.val + j)) BEL_LOOP_CFG_entry, steps := 0, loops := [],
      rally := tabGet noDue o.due j, runs := tabSet zeroWord o.runs j (tabGet zeroWord o.runs j + 1) }
    let lane (i : Instr) (regs : List Nat) (P : State → Prop) : Prop := Accepts i s m.val 0 regs lanesOnly P
    let cfg := BEL_ENC_CFG n.val
    let cnt := BEL_ENC_COUNT n.val
    let levels := tabGet encDefault s.bel.enc n.val
    let enc (regs : List Nat) (P : State → Prop) : Prop := Happens (.encEdge n a b z) s regs
      (fun t u => { u with bel := { s.bel with enc := t.bel.enc } }) fun t =>
      (∀ i, tabGet encDefault t.bel.enc i = if i = n.val then ⟨a, b, z, ⟨a, 0⟩, ⟨b, 0⟩, ⟨z, 0⟩⟩
        else tabGet encDefault s.bel.enc i) ∧ P t
    let filt := s.fld cfg BEL_ENC_CFG_filt
    let ea := levels.a != a
    let lead : Int := if ea then (if a != b then 1 else -1) else if a = b then 1 else -1
    let step : Int := if s.bit cfg BEL_ENC_CFG_invert then -lead else lead
    let index : Bool := levels.idx != z && z != s.bit cfg BEL_ENC_CFG_idx_pol
    let idx (t : State) : Prop := t.reg (BEL_ENC_IDX n.val) = if index then s.reg cnt else s.reg (BEL_ENC_IDX n.val)
    let spi (i : Instr) (x : BelSpi) : Prop := Happens i s [BEL_SPI_STAT c.val]
      (fun t u => { u with bel := { s.bel with spi := t.bel.spi } }) fun t =>
      (∀ i, t.spi i = if i = c.val then x else s.spi i) ∧ t.bit (BEL_SPI_STAT c.val) ⟨0, 0⟩ = x.busy.isSome
    let q := s.spi c.val
    let len := s.fld (BEL_SPI_SEL c.val j) BEL_SPI_SEL_len + 1
    let low := miso.toNat % 2 ^ len
    let got : Word := if s.bit (BEL_SPI_SEL c.val j) BEL_SPI_SEL_sx ∧ 2 ^ (len - 1) ≤ low then BitVec.ofInt 32 (low - 2 ^ len)
      else BitVec.ofNat 32 low
    let takes (x i : Nat) : Prop := s.bit (BEL_LANE_MBOX x i) BEL_LANE_MBOX_en = true ∧
      s.fld (BEL_LANE_MBOX x i) BEL_LANE_MBOX_tag = tok.ctag
    let box (t : State) (x i : Nat) : Word × Bool := tabGet mboxDefault (t.lane x).mbox i
    let key := m.val * 8 + l.val
    let keep := tabGet zeroNat s.bel.ksel key
    let word : BitVec 40 := BitVec.ofNat 40 ((tabGet zeroWord s.bel.kstage key).toNat + v.toNat % 2 ^ 8 * 2 ^ 32)
    let x16 := o.getX sel
    let acc (i : Nat) : BitVec 40 := o.getA i
    let reads (y : Word) : Prop := Accepts (.belDbgData m l none) s m.val y [] (fun _ u => u) fun _ => True
    let puts (f : Lane) : Prop := lane (.belDbgData m l (some v)) [] fun t => ∀ i, t.lane i = if i = l.val then f else s.lane i
    (on = true → o.run = none → lowest →
      Happens (.laneRunStart l) s [BEL_LANE_PEND l.val, stat] lanesOnly begun) ∧
    (s.pwr.xoLost = false →
      (levels.filtA.pin = a → a ≠ levels.a → b = levels.b → z = levels.idx → levels.filtA.slots < filt →
        Happens (.encEdge n a b z) s [] (fun t u => { u with bel := { s.bel with enc := t.bel.enc } }) fun t =>
          ∀ i, tabGet encDefault t.bel.enc i = if i = n.val then
            { levels with filtA := ⟨a, levels.filtA.slots + 1⟩, filtB := ⟨b, 0⟩, filtI := ⟨z, 0⟩ }
            else tabGet encDefault s.bel.enc i) ∧
      (s.bit cfg BEL_ENC_CFG_en = false → filt = 0 → enc [] fun _ => True) ∧
      (s.bit cfg BEL_ENC_CFG_en = true → filt = 0 →
        (levels.a ≠ a → levels.b ≠ b → enc [BEL_ENC_IDX n.val, BEL_ENC_ERRS n.val] fun t => idx t ∧
          t.fld (BEL_ENC_ERRS n.val) BEL_ENC_ERRS_quad = min (s.fld (BEL_ENC_ERRS n.val) BEL_ENC_ERRS_quad + 1) 0xFFFF) ∧
        (s.fld cfg BEL_ENC_CFG_decode = 2 → (levels.a = a ↔ levels.b ≠ b) → enc [BEL_ENC_IDX n.val, cnt] fun t => idx t ∧
          t.reg cnt = s.reg cnt + BitVec.ofInt 32 step)) ∧
      (s.bit (BEL_SPI_CTRL c.val) BEL_SPI_CTRL_en = true → q.busy = none → q.queue = (j, w) :: rest →
        s.spiSelOn c.val j = true →
        spi (.spiTransferStart c) { q with
          queue := rest, busy := some (j, w), sent := q.sent ++ [(j, BitVec.ofNat 32 (w.toNat % 2 ^ len))] }) ∧
      (q.busy = some (j, w) → spi (.spiTransferComplete c miso) { q with busy := none, rx := tabSet zeroWord q.rx j got })) ∧
    (s.inboxOf 29 = tok :: left → tok.kind = .event → (∃ x i, x < 8 ∧ i < 4 ∧ takes x i) →
      Happens .mboxDelivery s [BEL_SUM] (fun t u => lanesOnly t { u with flue := { s.flue with inbox := t.flue.inbox } }) fun t =>
        (∀ i, t.inboxOf i = if i = 29 then left else s.inboxOf i) ∧
        (∀ x, t.lane x = { s.lane x with mbox := (t.lane x).mbox }) ∧
        (∀ x i, x < 8 → i < 4 → (takes x i → box t x i = (tok.payload, true)) ∧ (¬takes x i → box t x i = box s x i)) ∧
        ∀ x, x < 8 → ((t.reg BEL_SUM).getLsbD (16 + x) = true ↔
          (s.reg BEL_SUM).getLsbD (16 + x) = true ∨ ∃ i, i < 4 ∧ takes x i ∧ (box s x i).2 = true)) ∧
    (s.isSup m.val = true → s.noneWaits m.val = true →
      (s.bit cfg BEL_ENC_CFG_en = true → Refuses (.encCountWrite m n v) s m.val cnt true) ∧
      (s.bit cfg BEL_ENC_CFG_en = false → Accepts (.encCountWrite m n v) s m.val 0 [cnt] (fun _ u => u) fun t => t.reg cnt = v) ∧
      lane (.keepWrite m l v) [] (fun t => ∀ i, t.lane i = if i = l.val then o.setKeep keep word else s.lane i) ∧
      (on = true → Refuses (.laneReset m l) s m.val ctrl true ∧ Refuses (.belDbgData m l none) s m.val (BEL_LANE_DBG_DATA l.val) false ∧
        Refuses (.belDbgData m l (some v)) s m.val (BEL_LANE_DBG_DATA l.val) true ∧
        (s.bit dbg BEL_LANE_DBG_CTRL_safe = false → lane (.laneHalt m l) [ctrl, stat, BEL_LANE_DBG_STAT l.val] fun t =>
          t.laneRuns l.val = false ∧ t.reg (BEL_LANE_DBG_STAT l.val) = 1 ∧ laneIs s t l.val { o with stepping := false })) ∧
      (s.bit fault BEL_LANE_FAULT_valid = true → Refuses (.laneResume m l) s m.val ctrl true) ∧
      (on = false →
        (s.bit fault BEL_LANE_FAULT_valid = false → lane (.laneResume m l) [ctrl, stat] fun t => t.laneRuns l.val = true ∧
          laneIs s t l.val { o with bpSkip := true, stepping := false }) ∧
        lane (.laneReset m l) [BEL_LANE_PEND l.val, fault, stat] (fun t => t.reg (BEL_LANE_PEND l.val) = 0 ∧
          t.reg fault = BEL_LANE_FAULT_valid.set (s.reg fault) 0 ∧ laneIs s t l.val { o with
            loops := [], x := [], a := [], runs := [], trigs := 0, trigAt := none, txh := [], evth := 0, run := none, due := [],
            steps := 0, bpSkip := false, stepping := false }) ∧
        (o.run = none → lowest → lane (.belDbgStep m l v) [dbg, BEL_LANE_PEND l.val, stat] fun t =>
          t.reg dbg = v &&& 0xC ∧ begun t) ∧
        (o.run = some j → decodeBel (tabGet zeroWord o.prog o.pc) = some (.jmp k) → tabGet falseAt o.progBad o.pc = false →
          (∀ e ∈ o.loops.head?, e.stop ≠ o.pc) → s.fld (BEL_LOOP_MAXST (32 * l.val + j)) BEL_LOOP_MAXST_max_steps = 0 →
          v.getLsbD 3 = false → lane (.belDbgStep m l v) [dbg, ctrl, stat, BEL_LANE_DBG_STAT l.val] fun t =>
            t.reg dbg = v &&& 0xC ∧ t.laneRuns l.val = false ∧ t.reg (BEL_LANE_DBG_STAT l.val) = 2 ∧
            laneIs s t l.val { o with pc := k.val, steps := o.steps + 1, bpSkip := false, stepping := false }) ∧
        (sel < 8 → reads (x16.zeroExtend 32) ∧ puts (o.setX sel (v.extractLsb' 0 16))) ∧
        (8 ≤ sel → sel < 12 → reads ((acc (sel - 8)).extractLsb' 0 32) ∧
          puts (o.setA (sel - 8) ((acc (sel - 8)).extractLsb' 32 8 ++ v))) ∧
        (12 ≤ sel → reads (((acc (sel - 12)).extractLsb' 32 8).zeroExtend 32) ∧
          puts (o.setA (sel - 12) (v.extractLsb' 0 8 ++ (acc (sel - 12)).extractLsb' 0 32)))))

/-- The rest but for the Chimney's own state. -/
def chmOnly (t u : State) : State := { u with chm := t.chm }

/-- Of the Chimney's own state only port p changed, to x. -/
def linkIs (s t : State) (p : Nat) (x : ChmPort) : Prop :=
  t.chm = { s.chm with ports := t.chm.ports } ∧ ∀ j, t.chmPort j = if j = p then x else s.chmPort j

/-- A port x that sends a TRAIN packet now: its number, and that of the TRAIN that it answers (R404). -/
def trains (s t : State) (p : Nat) (x : ChmPort) : Prop :=
  ∃ k : ChmPacket, k.typ = 0x66 ∧ k.data.length = 2 ∧ k.field 5 0 = s.chmId ∧ k.field 39 32 = (x.trainNo + 1) % 256 ∧
    k.field 47 40 = x.gotNo % 256 ∧
    linkIs s t p { x.sending k with trainNo := (x.trainNo + 1) % 256, sentAt := (s.now :: x.sentAt).take 8 }

/-- A port that has begun training: seq 0 in both directions, nothing sent that waits, no delay measured (R404). -/
def fresh (x : ChmPort) : ChmPort := { x with
  txSeq := 0, rxSeq := 0, rxAny := false, naked := false, buf := [], wait := [], meas := [], gotAt := none,
  sentAt := [] }

/-- As chmOnly, and of the accesses that wait those of requests that a port which goes DOWN had brought (R63). -/
def downOnly (t u : State) : State := chmOnly t { u with jobs := t.jobs }

/-- A port went DOWN: what was unacknowledged is discarded, and what arrived by it and has not been applied; the DOWN is counted,
and with block lock it trains (R63, R424). -/
def wentDown (s t : State) (p : Nat) : Prop :=
  t.jobs = s.jobs.filter (fun j => !j.heldFrom p) ∧ (∀ e ∈ t.chm.ctrlIn, e ∈ s.chm.ctrlIn ∧ e.1 ≠ p) ∧
  t.chmState p = (if s.chmOn p && (t.chmPort p).lock then 1 else 0) ∧ t.bit (CHM_P_STAT p) CHM_P_STAT_down = true ∧
  countUp s t (CHM_P_DOWNS p) 1 ∧ t.bit CHM_STAT CHM_STAT_link_chg = true ∧ (t.chmPort p).buf = [] ∧ (t.chmPort p).wait = []

/-- What a Let makes of port p when the packets of l are unacknowledged (R423). -/
def letDone (s t : State) (p : Nat) (l : List ChmSent) : Prop :=
  let c := s.chmPort p
  let most := max 1 (s.fld CHM_LET_CFG CHM_LET_CFG_let_max)
  (l = [] → linkIs s t p { c with buf := [] } ∧ SameRegs s t [] ∧ t.jobs = s.jobs) ∧
  (∀ x more, l = x :: more → x.resent < most → countUp s t (CHM_P_LETS p) 1 ∧ SameRegs s t [CHM_P_LETS p] ∧
    t.jobs = s.jobs ∧ linkIs s t p (l.foldl (fun z y => z.sending (c.finish y.pkt))
      { c with buf := l.map fun y => { y with resent := y.resent + 1 } })) ∧
  ∀ x more, l = x :: more → most ≤ x.resent → wentDown s t p

/-- The registers that a port which goes DOWN may change. -/
def downRegs (p : Nat) : List Nat := [CHM_P_STAT p, CHM_P_DOWNS p, CHM_P_LETS p, CHM_STAT, CHM_KICK_LOST]

/-- The acknowledgement field of a whole packet frees nothing, and the packet is the one expected, of a type (R423). -/
def inTurn (s : State) (p : Nat) (l : ChmLine) (typ : Byte) : Prop :=
  let k := l.packet
  s.chmState p = 2 ∧ l.part = none ∧ k.crcOk = true ∧ k.ackField / 2 ^ 12 % 2 = 0 ∧ k.seq = (s.chmPort p).rxSeq ∧ k.typ = typ

/-- A port after a packet in its turn: the next seq is expected, and an acknowledgement has gone out (R423). -/
def acked (x : ChmPort) (seq : Nat) : ChmPort := { x with
  rxSeq := (x.rxSeq + 1) % 4096, rxAny := true, naked := false : ChmPort }.onLane
    (.ack (BitVec.ofNat 16 (seq + 2 ^ 12))) [(1, 0xAA + (seq + 2 ^ 12) % 2 ^ 16 * 2 ^ 40)]

/-- Ports gain and lose block lock, train, go UP or ISOLATED, resend and go DOWN; beacons elect a leader; Rally frames give d
(R401, R402, R403, R404, R405, R406, R409, R411, R412, R414, R415, R423). Where a clause goes beyond these rules it is the
model's choice (log entries 104, 105, 106, 107, 109, 110, 111, 112, 113, 115, 122, 169 and 170). -/
def Obligations.LinksTrainElectAndCount : Prop :=
  ∀ (s : State) (q : Fin 4) (h : BitVec 2) (hs : List (BitVec 2)) (l : ChmLine) (e0 : ChmPacket) (t1 : Nat) (f : BitVec 16) (frac res : BitVec 16)
    (own : Nat × Nat × Nat) (r : Fin 4) (rest : List (Nat × ChmPacket)) (down : List ChmEnd) (a b c : Int),
    s.awake = true → s.pwr.xoLost = false → s.inLight = false →
    let k := l.packet
    let p := q.val
    let x := s.chmPort p
    let st := CHM_P_STAT p
    let state := s.chmState p
    let valid (y : BitVec 2) : Prop := y = 1 ∨ y = 2
    let nbr := [CHM_P_NBR_SER_LO p, CHM_P_NBR_SER_HI p, CHM_P_NBR_INFO p]
    let ts (i : Nat) : Nat := ((k.data.getD 1 0).toNat) / 2 ^ (32 * i) % 2 ^ 32
    let trip : Nat := s.now - t1
    let stay : Nat := (ts 1 + 2 ^ 32 - ts 0) % 2 ^ 32
    let d : Int := 5 * ((trip : Int) - (stay : Int))
    let close (y z : Int) : Prop := y - z ≤ 8 ∧ z - y ≤ 8
    let sound : Prop := k.crcOk = true ∧ k.typ = 0x66 ∧ (k.field 28 28 = 1 → k.field 5 0 ≠ s.chmId ∧ s.chm.dupWith ≠ some k.word)
    let good : Prop := sound ∧ k.field 27 27 = 1 ∧ x.answered k = some t1
    let heard (y : ChmPort) : ChmPort := { y with gotAt := some s.now, gotNo := k.field 39 32 }
    let known (t : State) : Prop := t.reg (CHM_P_NBR_SER_LO p) = BitVec.ofNat 32 k.word ∧
      t.reg (CHM_P_NBR_SER_HI p) = BitVec.ofNat 32 (k.word / 2 ^ 32) ∧ t.fld (CHM_P_NBR_INFO p) CHM_P_NBR_INFO_id = k.field 5 0
    let trainedRegs := nbr ++ [st, CHM_STAT, CHM_P_DELAY p, CHM_WAKE]
    let trained (t : State) : Prop := known t ∧ ∃ y, nearQuot y (d + a + b + c) 16 ∧ t.reg (CHM_P_DELAY p) = BitVec.ofInt 32 y
    let some4 : Prop := x.meas = [a, b, c] ∧ close d a ∧ close d b ∧ close d c ∧ close a b ∧ close a c ∧ close b c
    let fld (n : Nat) : Bool := f.toNat / 2 ^ n % 2 = 1
    let before (n : Nat) : List ChmSent := x.buf.filter fun y => !decide ((n + 4096 - y.pkt.seq % 4096) % 4096 < 2048)
    let en := s.bit CHM_CTRL CHM_CTRL_en
    let beaconed (t : State) (stable : Nat) : Prop := t.chm.stable = stable ∧ ∀ j, j < 4 →
      (s.chmState j ≠ 2 → t.chmPort j = s.chmPort j) ∧
      (s.chmState j = 2 → (s.chmPort j).buf = [] → (s.chmPort j).wait = [] → (s.chmPort j).txSeq < 4096 → ∃ e : ChmPacket,
        (t.chmPort j).sent = (s.chmPort j).sent ++ [.packet e] ∧ e.typ = 0x4B ∧ e.kind = 5 ∧ e.field 46 40 = min 127 (s.bestHops + 1) ∧ e.tag = own.1 ∧ e.word = own.2.1 ∧
        e.dest = own.2.2)
    let cand : Nat × Nat × Nat := (e0.tag, e0.word, e0.dest)
    let leader := s.fld CHM_ID CHM_ID_leader_id
    let fromLeader : Prop := state = 2 ∧ k.crcOk = true ∧ k.typ = 0x2D ∧ s.chmLeads = false ∧ s.chm.leader.isSome = true ∧
      k.field 53 48 = leader ∧ 0 < s.tsDen ∧ k.ackField / 2 ^ 12 % 2 = 0 ∧ ¬(leader = s.chmId ∧ s.idSure = true)
    let age := k.word % 2 ^ 32
    let hops := k.word / 2 ^ 32 % 2 ^ 8
    let older := age + res.toNat + (s.reg (CHM_P_DELAY p)).toNat
    let unit : Nat := 65536 * 10 ^ 21
    let num : Int := (65536 * countDiff s.rallyCount (k.field 47 0) + (frac.toNat : Int)) * 10 ^ 21 - 65536 * (age : Int) * (s.tsDen : Int)
    let guard : Nat := s.fld TSU_RALLY_CFG TSU_RALLY_CFG_guard * unit
    let onward (t : State) : Prop := (∃ y, nearQuot y num (65536 * s.tsDen) ∧ t.reg CHM_RALLY_ERR = BitVec.ofInt 32 (clampInt 32 y)) ∧
      ∀ j, if j ∈ s.chmTree leader ∧ s.chmState j = 2
        then ∃ e : ChmPacket, t.chmPort j = (s.chmPort j).sending e ∧ e.typ = 0x2D ∧ e.field 54 54 = k.field 54 54 ∧
          e.field 47 0 = k.field 47 0 ∧ e.field 53 48 = leader ∧ e.word = older % 2 ^ 32 + min 255 (hops + 1) * 2 ^ 32
        else t.chmPort j = s.chmPort j
    let frame := Instr.rallyFrameReceive q l frac res
    let framed (regs : List Nat) (P : State → Prop) : Prop :=
      Happens frame s (CHM_RALLY_ERR :: regs) (fun t u => chmOnly t { u with freeCtr := t.freeCtr }) fun t => onward t ∧ P t
    (x.lock = false → hs ≠ [] → (∀ y, y ∈ hs → valid y) → x.run + hs.length < 64 → Happens (.blockLockChange q hs) s [] chmOnly
      fun t => linkIs s t p { x with run := x.run + hs.length, hdrs := [] }) ∧
    (x.lock = false → valid h → x.run = 63 → state = 0 →
      (s.chmOn p = false → Happens (.blockLockChange q [h]) s [] chmOnly fun t =>
        linkIs s t p { x with lock := true, run := 64, hdrs := [] }) ∧
      (s.chmOn p = true → Happens (.blockLockChange q [h]) s [st] chmOnly fun t => t.chmState p = 1 ∧
        trains s t p (fresh { x with lock := true, run := 64, hdrs := [] }))) ∧
    (x.lock = true → ¬valid h → (x.hdrs.take 1023).count true = 15 →
      (state = 0 → Happens (.blockLockChange q [h]) s [] chmOnly fun t =>
        linkIs s t p { x with lock := false, run := 0, hdrs := [] }) ∧
      (state ≠ 0 → Happens (.blockLockChange q [h]) s (downRegs p) downOnly fun t =>
        wentDown s t p ∧ (t.chmPort p).lock = false)) ∧
    (s.chmOn p = true → x.lock = true → state ≠ 0 →
      (k.crcOk = false ∨ k.typ ≠ 0x66 → Happens (.train q l) s [CHM_P_CRC_ERRS p] (fun _ u => u) fun t =>
        countUp s t (CHM_P_CRC_ERRS p) 1) ∧
      (good → state = 1 → x.meas.length < 3 → Happens (.train q l) s nbr chmOnly fun t => known t ∧
        linkIs s t p { heard x with meas := d :: x.meas }) ∧
      (sound → state = 1 → k.field 27 27 = 0 → Happens (.train q l) s nbr chmOnly fun t => known t ∧
        linkIs s t p { heard x with meas := [] }) ∧
      (sound → state = 2 → k.field 27 27 = 0 → Happens (.train q l) s (nbr ++ downRegs p) downOnly fun t => known t ∧
        wentDown s t p ∧ (t.chmPort p).meas = [] ∧ (t.chmPort p).txSeq = 0 ∧ (t.chmPort p).rxSeq = 0) ∧
      (sound → state = 2 → k.field 27 27 = 1 → k.ackField / 2 ^ 12 % 2 = 0 → Happens (.train q l) s [] (fun _ u => u) fun _ => True) ∧
      (good → some4 → state = 1 →
        (s.wiringBad p k = true → Happens (.train q l) s trainedRegs (fun t u => chmOnly t { u with freeCtr := t.freeCtr }) fun t =>
          trained t ∧ t.chmState p = 3 ∧ t.bit st CHM_P_STAT_topo = true ∧ t.bit CHM_STAT CHM_STAT_topo = true) ∧
        (s.wiringBad p k = false → Happens (.train q l) s trainedRegs (fun t u => chmOnly t { u with freeCtr := t.freeCtr }) fun t =>
          trained t ∧ t.chmState p = 2 ∧ t.bit CHM_STAT CHM_STAT_link_chg = true ∧ (t.reg CHM_WAKE).getLsbD p = false ∧
          t.bit st CHM_P_STAT_long = decide (80 * 16 < d + a + b + c)))) ∧
    (state = 1 → Happens (.trainTimeout q) s [] chmOnly fun t => trains s t p (fresh x)) ∧
    (state = 2 → x.wait = [] → fld 12 = true →
      (fld 13 = false → Happens (.ackReceive q f) s [] chmOnly fun t => linkIs s t p { x with buf := before (f.toNat % 4096) }) ∧
      (fld 13 = true → Happens (.nakReceive q f) s (downRegs p) downOnly fun t =>
        letDone s t p (before ((f.toNat + 4095) % 4096)))) ∧
    (state = 2 → Happens (.letTimeout q) s (downRegs p) downOnly fun t => letDone s t p x.buf) ∧
    (en = false → Happens .beaconSend s [] chmOnly fun t => t.chm = s.chm) ∧
    (en = true → s.bestCand = some own → own.1 < 256 → own.2.1 < 2 ^ 64 → own.2.2 < 64 →
      (s.chm.stable < 4 → Happens .beaconSend s [] chmOnly fun t => beaconed t (s.chm.stable + 1)) ∧
      (4 < s.chm.stable → Happens .beaconSend s [] chmOnly fun t => beaconed t 5) ∧
      (s.chm.stable = 4 → Happens .beaconSend s [CHM_ID, CHM_STAT, CHM_LEAD_SER_LO, CHM_LEAD_SER_HI] chmOnly fun t =>
        beaconed t 5 ∧ t.bit CHM_ID CHM_ID_leader = decide (own.2.1 = s.serial) ∧
        t.reg CHM_LEAD_SER_LO = BitVec.ofNat 32 own.2.1 ∧ t.reg CHM_LEAD_SER_HI = BitVec.ofNat 32 (own.2.1 / 2 ^ 32) ∧
        (own.2.1 ≠ s.serial → t.fld CHM_ID CHM_ID_leader_id = own.2.2) ∧
        ((s.chm.leader.map fun l => l.2.1) ≠ some own.2.1 → t.bit CHM_STAT CHM_STAT_leader_chg = true))) ∧
    (s.chm.ctrlIn = (r.val, e0) :: rest → e0.kind = 5 → e0.field 36 36 = 0 →
      Happens (.beaconReceive down) s [CHM_STAT] chmOnly fun t => t.chm.ctrlIn = rest ∧
        (t.chmPort r.val).cand = (if e0.field 46 40 < s.chmNet.size then some cand else none) ∧
        (t.chmPort r.val).candHops = e0.field 46 40 ∧ t.chm.downLinks = down.map fun e => (e.engine.val, e.port.val)) ∧
    (state = 2 → k.crcOk = false ∨ k.typ ≠ 0x2D → Happens frame s [CHM_P_CRC_ERRS p, CHM_P_RALLY_BAD p] (fun _ u => u) fun t =>
      countUp s t (CHM_P_CRC_ERRS p) 1 ∧ countUp s t (CHM_P_RALLY_BAD p) 1) ∧
    (fromLeader →
      (s.rallySrc = 1 → framed [CHM_STAT] fun t => t.bit CHM_STAT CHM_STAT_disagree =
        (s.bit CHM_STAT CHM_STAT_disagree || (decide (k.field 54 54 = 1) && decide (guard < num.natAbs)))) ∧
      (s.chmFollows = true → s.rsgState = 2 → s.chm.realign = none →
        framed [CHM_STAT] fun t => t.bit CHM_STAT CHM_STAT_rally_lock = true ∧ t.chm.missTs = 0 ∧
          (2 * num.natAbs < unit → num.natAbs ≤ guard → t.chm.realign = none) ∧
          (guard < num.natAbs ∨ unit ≤ 2 * num.natAbs → t.bit CHM_STAT CHM_STAT_muted = true ∧
            t.chm.realign = some (num.tdiv unit)))) ∧
    (s.chmAwaits = true → s.chm.leader.isSome = true → s.fld CHM_RALLY_CFG CHM_RALLY_CFG_miss ≤ s.chm.missTs → Happens .rallyMiss s [CHM_STAT] chmOnly fun t =>
      t.bit CHM_STAT CHM_STAT_rally_miss = true ∧ t.chm = { s.chm with lockSpan := 0 }) ∧
    (s.chm.realign = none → s.fld CHM_RALLY_CFG CHM_RALLY_CFG_unmute ≤ s.chm.lockTs → Happens .unmute s [CHM_STAT] (fun _ u => u) fun t =>
      t.reg CHM_STAT = CHM_STAT_muted.set (s.reg CHM_STAT) 0)

/-- The word of an outgoing slot of port p (R419): a held token's, a forwarded one, the substitute of either, or 0. -/
def slotWord (s : State) (p slot : Nat) : Word :=
  let x := s.chmPort p
  let miss : Word := if s.bit (CHM_P_CTRL p) CHM_P_CTRL_subst then 0 else tabGet zeroWord x.last slot
  match s.mapWord p true slot % 4 with
  | 1 => (tabGet noWord x.hold slot).getD miss
  | 2 => ((tabGet noForward x.fwd slot).map fun y => y.word).getD miss
  | _ => 0

/-- The slot's word has come in time (R419). -/
def slotReady (s : State) (p slot : Nat) : Prop :=
  (s.mapWord p true slot % 4 = 1 → (tabGet noWord (s.chmPort p).hold slot).isSome = true) ∧
  (s.mapWord p true slot % 4 = 2 → (tabGet noForward (s.chmPort p).fwd slot).isSome = true)

/-- Port p is x, and the others are as before; but the words forwarded from group g of port p have its verdict (R419). -/
def judgedIs (s t : State) (p g : Nat) (bad : Bool) (x : ChmPort) : Prop :=
  t.chm = { s.chm with ports := t.chm.ports } ∧ ∀ j, j < 4 →
    t.chmPort j = { (if j = p then x else s.chmPort j) with fwd := (t.chmPort j).fwd } ∧
    ∀ n, tabGet noForward (t.chmPort j).fwd n = (tabGet noForward (s.chmPort j).fwd n).map fun f =>
      if f.group = (p, g) ∧ f.bad = none then { f with bad := some bad } else f

/-- The tokens that the inbound station of port p forms from group g (R420). -/
def groupTokens (s : State) (p g tag : Nat) (f : Nat → Word) : List Token :=
  ((List.range 64).filter fun j => s.mapWord p false (64 * g + j) % 2 = 1).map fun j =>
    ⟨.audio, tag, s.mapWord p false (64 * g + j) / 4 % 4096, if s.bit CHM_STAT CHM_STAT_muted then 0 else f j⟩

/-- Station i has sent the tokens of a list; no other station has sent any. -/
def formed (s t : State) (i : Nat) (l : List Token) : Prop :=
  ∀ j, t.outboxOf j = if j = i then s.outboxOf i ++ l else s.outboxOf j

/-- Port p can send a packet of n blocks at once: it is UP and nothing waits (R423). -/
def linkFree (s : State) (p n : Nat) : Prop :=
  s.chmState p = 2 ∧ (s.chmPort p).wait = [] ∧ (s.chmPort p).bufBlocks + n ≤ 256 ∧ (s.chmPort p).txSeq < 4096

/-- Port p has sent one more packet, with a type and a header from bit 12 up, and data. -/
def packetOut (s t : State) (p : Nat) (typ : Byte) (hdr : Nat) (data : List (BitVec 64)) : Prop := ∃ e : ChmPacket,
  (t.chmPort p).sent = (s.chmPort p).sent ++ [.packet e] ∧ (t.chmPort p).lane = ((s.chmPort p).sending e).lane ∧ e.typ = typ ∧ e.hdr.toNat / 2 ^ 12 = hdr ∧ e.data = data ∧
  e.seq = (s.chmPort p).txSeq

/-- The header of a CTRL packet of this engine from bit 12 up (R402). -/
def ctrlHdr (s : State) (kind dest tag : Nat) (write : Bool) (resp : Nat) : Nat :=
  kind + dest * 2 ^ 4 + s.chmId * 2 ^ 10 + tag * 2 ^ 16 + (if write then 2 ^ 24 else 0) + resp * 2 ^ 25

/-- Of the rest only the Chimney's state and what stations have sent. -/
def chmAndOutbox (t u : State) : State := chmOnly t { u with flue := { u.flue with outbox := t.flue.outbox } }

/-- AUDIO groups carry slots, form tokens or their substitutes; CTRL packets are delivered; maps load and swap; ports start
(R402, R406, R417, R419, R420, R421, R422, R423, R430, R431). Where a clause goes beyond these rules it is the model's choice
(log entries 112, 114, 116, 117, 118, 119, 169 and 170). -/
def Obligations.SlotsCarriedAndMapped : Prop :=
  ∀ (s : State) (m : Mid) (q o : Fin 4) (gr : Fin 96) (l : ChmLine) (k1 : ChmPacket) (v : Word) (late : Bool) (tk : Token) (more : List Token)
    (i : Fin 64), s.awake = true → s.pwr.xoLost = false → s.pwr.hold = false →
    let k := l.packet
    let p := q.val
    let g := gr.val
    let x := s.chmPort p
    let st := CHM_P_STAT p
    let station : Nat := [32, 33, 42, 43].getD p 0
    let muted := s.bit CHM_STAT CHM_STAT_muted
    let slot (j : Nat) : Nat := 64 * g + j
    let groups := s.fld (CHM_P_CTRL p) CHM_P_CTRL_groups
    let due : Prop := s.chmOn p = true ∧ g < groups
    let poison : Bool := (List.range 64).any fun j => decide (s.mapWord p true (slot j) % 4 = 2) &&
      ((tabGet noForward x.fwd (slot j)).map fun y => y.bad.getD false).getD false
    let pending (j : Nat) : Prop := s.mapWord p true (slot j) % 4 = 2 ∧ ∃ y, tabGet noForward x.fwd (slot j) = some y ∧ y.bad = none
    let isGroup (t : State) : Prop := ∃ e : ChmPacket, (t.chmPort p).sent = x.sent ++ [.packet e] ∧
      (t.chmPort p).lane = (x.sending e).lane ∧ e.typ = 0x33 ∧
      e.field 18 12 = g ∧ e.field 26 19 = s.sendName p g % 256 ∧ e.field 27 27 = (if muted then 1 else 0) ∧ e.poison = poison ∧
      e.data.length = 32 ∧ ∀ j, j < 64 → ChmAudioWord e j = slotWord s p (slot j)
    let rg := k.field 18 12
    let rtag := k.field 26 19
    let entry (j : Nat) : Nat := s.mapWord p false (64 * rg + j)
    let local_ : Prop := ∀ j, j < 64 → entry j / 2 % 2 = 0
    let onWay (j : Nat) : Prop := entry j / 2 % 2 = 1 ∧ entry j / 2 ^ 14 % 4 = o.val
    let to_ (j : Nat) : Nat := entry j / 2 ^ 16 % 2 ^ 13
    let counts : Prop := k.field 27 27 = 0 ∧ tabGet noMiss x.missed rg ≠ some rtag
    let group := Instr.audioGroupReceive q l
    let free : Prop := ∀ j, j < 4 → (s.chmPort j).wait = []
    let nak := (x.rxSeq + 2 ^ 12 + 2 ^ 13) % 2 ^ 16
    let naked : ChmPort := if x.naked then x else
      { x.onLane (.ack (BitVec.ofNat 16 nak)) [(1, 0xAA + nak * 2 ^ 40)] with naked := true }
    let fwdAt (t : State) (j : Nat) : Option ChmFwd := tabGet noForward (t.chmPort o.val).fwd (to_ j)
    let tagAt (t : State) (j : Nat) : Option (Nat × Bool) := tabGet noFwdTag (t.chmPort o.val).fwdTag (to_ j)
    let first (j : Nat) : Prop := j < 64 ∧ onWay j ∧ ∀ j', j' < j → onWay j' → to_ j' ≠ to_ j
    let early (j : Nat) : Prop := l.part = some k1 ∧ s.chmState p = 2 ∧ k1.typ = 0x33 ∧ k1.seq = x.rxSeq ∧ k1.field 18 12 = rg ∧
      k1.field 26 19 = rtag ∧ k1.field 27 27 = 0 ∧ j < 2 * k1.data.length ∧ k1.data.length ≤ 32
    let missedTag := s.deadlineName p g % 256
    let subst (j : Nat) : Word := if s.bit (CHM_P_CTRL p) CHM_P_CTRL_subst then 0 else tabGet zeroWord x.rxLast (slot j)
    let ctrl := Instr.ctrlPacketReceive q l
    let own : Prop := k.src = s.chmId ∧ s.idSure = true ∧ k.kind ≠ 5
    let here : Prop := k.kind = 2 ∨ k.kind = 5 ∨ k.dest = s.chmId
    let mc := CHM_MAP_CTRL
    let arm := s.bit mc CHM_MAP_CTRL_arm
    let key := (s.reg CHM_MAP_KEY_LO).toNat + (s.reg CHM_MAP_KEY_HI).toNat % 2 ^ 16 * 2 ^ 32
    let past : Bool := let d := (key + 2 ^ 48 - s.rallyCount) % 2 ^ 48; decide (d = 0 ∨ 2 ^ 47 ≤ d)
    let armWord (y : Word) : Word := (y &&& ~~~(v &&& 0x70000)) ||| 1
    let base := (s.reg CHM_MAP_BASE).toNat
    let ew := s.reg (CHM_EVT_MAP i.val)
    let takes (j : Nat) : Prop := (s.reg (CHM_EVT_MAP j)).toNat / 2 ^ 31 = 1 ∧ (s.reg (CHM_EVT_MAP j)).toNat % 2 ^ 12 = tk.ctag
    let ed := ew.toNat / 2 ^ 12 % 2 ^ 6
    let n (lo len : Nat) : Nat := v.toNat / 2 ^ lo % 2 ^ len
    let on := s.bit CHM_CTRL CHM_CTRL_en
    let chmBad : Prop := (on = true ∧ s.reg CHM_CTRL &&& 0x073F0034 ≠ v &&& 0x073F0034) ∨ n 4 2 = 3 ∨
      (n 0 1 = 1 ∧ n 4 2 = 2 ∧ 8 ≤ n 16 6)
    let pc := CHM_P_CTRL p
    let pon := s.bit pc CHM_P_CTRL_en
    let fits : Prop := (100 * s.fld (CHM_P_TIME p) CHM_P_TIME_tx_ofs + 19536 * n 16 7 + 1584) * s.internalRate ≤ 10 ^ 11
    let portBad : Prop := (pon = true ∧ s.reg pc &&& 0x007F0FF0 ≠ v &&& 0x007F0FF0) ∨
      96 / 2 ^ s.fld RSG_CTRL RSG_CTRL_mult < n 16 7 ∨ (n 0 1 = 1 ∧ ¬fits)
    (due → linkFree s p 34 → (∀ j, j < 64 → ¬pending j) →
      Does (.audioGroupSend q gr) s isGroup ∧
      ((∀ j, j < 64 → slotReady s p (slot j)) → Happens (.audioGroupSend q gr) s [] chmOnly fun t => isGroup t ∧
        t.chm = { s.chm with ports := t.chm.ports } ∧ ∀ j, j ≠ p → t.chmPort j = s.chmPort j)) ∧
    (due → linkFree s p 34 → (∃ j, j < 64 ∧ pending j) → Does (.audioGroupSend q gr) s fun t => (t.chmPort p).sent = x.sent ∧
      ∃ w, (t.chmPort p).wait = [w] ∧ ∀ j y, j < 64 → pending j → tabGet noForward x.fwd (slot j) = some y → y.group ∈ w.needs) ∧
    (∀ j, first j → early j → fwdAt s j = none → x.part = none →
      (tagAt s j ≠ some (rtag, true) → Does group s fun t => fwdAt t j = some ⟨ChmAudioWord k1 j, rtag, (p, rg), none⟩) ∧
      (tagAt s j = some (rtag, true) → (∀ j', j' < 64 → onWay j' → to_ j' = to_ j → j' = j) → Does group s fun t => fwdAt t j = none ∧ tagAt t j = some (rtag, false))) ∧
    (inTurn s p l 0x33 → k.poison = false → counts →
      (local_ → free → s.chmHeld p < 2 → Happens group s [] chmAndOutbox fun t =>
        formed s t station (groupTokens s p rg rtag (ChmAudioWord k)) ∧ judgedIs s t p rg false { acked x k.seq with
          part := none, got := (t.chmPort p).got, rxLast := (t.chmPort p).rxLast, sizes := (t.chmPort p).sizes } ∧
        tabGet falseAt (t.chmPort p).got rg = true ∧
        ∀ j, j < 64 → tabGet zeroWord (t.chmPort p).rxLast (64 * rg + j) = ChmAudioWord k j) ∧
      (local_ → free → 2 ≤ s.chmHeld p → Happens group s [CHM_P_RX_LATE p, st] chmOnly fun t => countUp s t (CHM_P_RX_LATE p) 1 ∧
        t.bit st CHM_P_STAT_rx_late = true ∧ judgedIs s t p rg false { acked x k.seq with part := none, got := (t.chmPort p).got }) ∧
      (∀ j, first j → fwdAt s j = none → tagAt s j ≠ some (rtag, true) → x.part = none →
        Does group s fun t => fwdAt t j = some ⟨ChmAudioWord k j, rtag, (p, rg), some false⟩)) ∧
    (inTurn s p l 0x33 → k.poison = true → local_ → free → Happens group s [st] chmOnly fun t =>
      t.reg st = CHM_P_STAT_poison.set (s.reg st) 1 ∧ judgedIs s t p rg true { acked x k.seq with part := none }) ∧
    (s.chmState p = 2 → l.part = none → k.crcOk = false →
      (k.typ = 0x33 → local_ → free → Happens group s [CHM_P_CRC_ERRS p] chmOnly fun t => countUp s t (CHM_P_CRC_ERRS p) 1 ∧
        judgedIs s t p rg true { naked with part := none }) ∧
      (k.typ ≠ 0x33 → Happens ctrl s [CHM_P_CRC_ERRS p] chmOnly fun t => countUp s t (CHM_P_CRC_ERRS p) 1 ∧ linkIs s t p naked)) ∧
    (s.chmState p = 2 → l.part = none → k.crcOk = true →
      (k.typ ≠ 0x33 → k.typ ≠ 0x4B → Happens ctrl s [CHM_P_CRC_ERRS p] (fun _ u => u) fun t => countUp s t (CHM_P_CRC_ERRS p) 1) ∧
      (k.typ = 0x33 ∨ k.typ = 0x4B → k.ackField / 2 ^ 12 % 2 = 0 → k.seq ≠ x.rxSeq →
        (Happens group s [] chmOnly fun t => linkIs s t p naked) ∧ Happens ctrl s [] chmOnly fun t => linkIs s t p naked)) ∧
    (due →
      (tabGet falseAt x.got g = true → Happens (.groupDeadline q gr) s [] chmOnly fun t =>
        tabGet falseAt (t.chmPort p).got g = false ∧
          linkIs s t p { x with got := (t.chmPort p).got, missed := (t.chmPort p).missed }) ∧
      (tabGet falseAt x.got g = false → Happens (.groupDeadline q gr) s [CHM_P_RX_LATE p, st] chmAndOutbox fun t =>
        formed s t station (groupTokens s p g missedTag subst) ∧ tabGet noMiss (t.chmPort p).missed g = some missedTag ∧
          countUp s t (CHM_P_RX_LATE p) 1 ∧ t.bit st CHM_P_STAT_rx_late = true)) ∧
    (inTurn s p l 0x4B →
      (5 < k.kind → Happens ctrl s [CHM_P_CRC_ERRS p] chmOnly fun t =>
        countUp s t (CHM_P_CRC_ERRS p) 1 ∧ linkIs s t p (acked x k.seq)) ∧
      (k.kind ≤ 5 → here → k.kind ≠ 4 → ¬own → Happens ctrl s [] chmOnly fun t =>
        t.chm = { s.chm with ports := t.chm.ports, ctrlIn := s.chm.ctrlIn ++ [(p, k)] } ∧
        ∀ j, t.chmPort j = if j = p then acked x k.seq else s.chmPort j) ∧
      (k.kind < 4 → here → own → Happens ctrl s [CHM_ID] chmOnly fun t => t.reg CHM_ID = CHM_ID_dup.set (s.reg CHM_ID) 1 ∧
        t.chm.ctrlIn = s.chm.ctrlIn ++ [(p, k)]) ∧
      (k.kind = 4 → k.dest = s.chmId → ¬own → Happens ctrl s [] chmAndOutbox fun t => linkIs s t p (acked x k.seq) ∧
        formed s t station [⟨.event, k.word / 2 ^ 32 % 2 ^ 8, k.word / 2 ^ 40 % 2 ^ 12, BitVec.ofNat 32 k.word⟩]) ∧
      (k.kind ≤ 5 → ¬here → ¬own → s.chmHop k.dest = some o.val → o ≠ q → linkFree s o.val (k.data.length + 2) →
        Happens ctrl s [] chmOnly fun t => t.chmPort p = acked x k.seq ∧
          packetOut s t o.val 0x4B (k.hdr.toNat / 2 ^ 12) k.data)) ∧
    (s.chm.mapDue = some late → Happens .chmMapSwap s [mc] chmOnly fun t =>
      t.chm = { s.chm with
        mapAct := s.chm.mapShadow, mapShadow := s.chm.mapAct, mapDue := none, mapLoaded := false, mapLate := false } ∧
      t.bit mc CHM_MAP_CTRL_arm = false ∧ t.bit mc CHM_MAP_CTRL_bank = !s.bit mc CHM_MAP_CTRL_bank ∧
      t.bit mc CHM_MAP_CTRL_done = true ∧ t.bit mc CHM_MAP_CTRL_late = (s.bit mc CHM_MAP_CTRL_late || late)) ∧
    (s.bit mc CHM_MAP_CTRL_loading = true → s.ramOpen = true → s.isSup s.chm.mapMid = true → base % 8 = 0 → base + 0x3E000 ≤ 0x800000 → (∀ w, s.flipsOf w = 0) →
      Happens .chmMapLoadDone s [mc] chmOnly fun t => t.reg mc = CHM_MAP_CTRL_loading.set (s.reg mc) 0 ∧
        t.chm = { s.chm with mapShadow := t.chm.mapShadow, mapLoaded := true } ∧
        ∀ p' j (tx : Bool), p' < 4 → j < 6144 → tabGet zeroWord t.chm.mapShadow (mapKey p' tx j) =
          mantelWord32 s (base + 0x10000 * p' + (if tx then 0x8000 else 0) + 4 * j)) ∧
    (s.chmOn p = true → s.inboxOf station = tk :: more → tk.kind = .event → takes i.val → (∀ j, j < i.val → ¬takes j) → s.chmHop ed = some o.val →
      linkFree s o.val 3 → Happens (.chmEventForward q) s []
        (fun t u => chmOnly t { u with flue := { u.flue with inbox := t.flue.inbox } }) fun t =>
        (∀ j, t.inboxOf j = if j = station then more else s.inboxOf j) ∧ packetOut s t o.val 0x4B (ctrlHdr s 4 ed 0 false 0)
          [BitVec.ofNat 64 (tk.payload.toNat + tk.stag % 2 ^ 8 * 2 ^ 32 + ew.toNat / 2 ^ 18 % 2 ^ 12 * 2 ^ 40)]) ∧
    (s.isSup m.val = true → s.noneWaits m.val = true →
      (arm = true → Accepts (.chmMapArm m v) s m.val 0 [mc] (fun _ u => u) fun t => t.reg mc = armWord (s.reg mc)) ∧
      (arm = false → Accepts (.chmMapArm m v) s m.val 0 [mc] chmOnly fun t =>
        t.reg mc = CHM_MAP_CTRL_loading.set (armWord (s.reg mc)) 1 ∧
        t.chm = { s.chm with mapMid := m.val, mapLoaded := false, mapDue := none, mapLate := past }) ∧
      (v = BitVec.ofNat 32 (2 ^ p) → s.chmState p ≠ 2 → Accepts (.chmWake m v) s m.val 0 [CHM_WAKE] chmOnly fun t =>
        t.reg CHM_WAKE = s.reg CHM_WAKE ||| v ∧ trains s t p { x with wakeEnd := s.now + 40000000 }) ∧
      (chmBad → Refuses (.chmEnable m none v) s m.val CHM_CTRL true) ∧
      (¬chmBad → on = false → n 0 1 = 1 → (∀ j, j < 4 → s.bit (CHM_P_CTRL j) CHM_P_CTRL_en = false) →
        Accepts (.chmEnable m none v) s m.val 0 [CHM_CTRL, CHM_ID] chmOnly fun t =>
          t.reg CHM_CTRL = masked (s.reg CHM_CTRL) v 0x073FFF37 ∧ t.reg CHM_ID = CHM_ID_locked.set (s.reg CHM_ID) 0 ∧
          t.chm = { s.chm with stable := 0, leader := none }) ∧
      (¬chmBad → on = true → n 0 1 = 0 → s.jobs = [] → Accepts (.chmEnable m none v) s m.val 0
        (CHM_CTRL :: CHM_ID :: CHM_STAT :: CHM_KICK_LOST :: (List.range 4).flatMap fun j => [CHM_P_STAT j, CHM_P_DOWNS j])
        chmOnly fun t => t.reg CHM_CTRL = masked (s.reg CHM_CTRL) v 0x073FFF37 ∧ t.bit CHM_ID CHM_ID_leader = false ∧
          t.chm.leader = none ∧ ∀ j, j < 4 → t.chmState j = 0) ∧
      (portBad → Refuses (.chmEnable m (some q) v) s m.val pc true) ∧
      (¬portBad → pon = false → n 0 1 = 1 → s.chmState p = 0 →
        (on = false ∨ x.lock = false → Accepts (.chmEnable m (some q) v) s m.val 0 [pc] (fun _ u => u) fun t =>
          t.reg pc = masked (s.reg pc) v 0x007F0FF3) ∧
        (on = true → x.lock = true → Accepts (.chmEnable m (some q) v) s m.val 0 [pc, st] chmOnly fun t =>
          t.reg pc = masked (s.reg pc) v 0x007F0FF3 ∧ t.chmState p = 1 ∧ trains s t p (fresh x))) ∧
      (¬portBad → pon = true → n 0 1 = 0 → s.jobs = [] → Accepts (.chmEnable m (some q) v) s m.val 0
        [pc, st, CHM_P_DOWNS p, CHM_STAT, CHM_KICK_LOST] chmOnly fun t =>
          t.reg pc = masked (s.reg pc) v 0x007F0FF3 ∧ t.chmState p = 0))

/-- Remote accesses take tags, are made at the target and complete, or time out; a broadcast Kickoff reaches the Damper and
goes on (R337, R402, R410, R425, R426, R428, R429). Where a clause goes beyond these rules it is the model's choice (log
entries 44, 111, 114 and 121). -/
def Obligations.RemoteAccessAndKickoffs : Prop :=
  ∀ (s : State) (m : Mid) (o r : Fin 4) (k : ChmPacket) (rest : List (Nat × ChmPacket)) (v : Word) (tag tf : Fin 256) (mid d : Nat)
    (w : Bool), s.awake = true → s.pwr.xoLost = false → s.quiet = true → s.chm.raWait = [] → s.answers = [] →
    let far : Prop := 0x320 ≤ m.val ∧ m.val < 0x360
    let tgt := (tabGet zeroWord s.chm.raTgt m.val).toNat
    let e := tgt % 2 ^ 6
    let inc := tgt / 2 ^ 8 % 2
    let addr := tabGet zeroWord s.chm.raAddr m.val
    let dup := s.bit CHM_ID CHM_ID_dup
    let bad : Prop := s.chmReach e = false ∨ dup = true
    let access (write : Bool) (i : Instr) : Prop :=
      let reg := if write then CHM_RA_WDATA else CHM_RA_RDATA
      (far → Fails i s m.val reg .b32 write .perm) ∧
      (s.isSup m.val = true → ¬far → bad → inc = 0 → Fails i s m.val reg .b32 write .decerr) ∧
      (s.isSup m.val = true → ¬far → ¬bad → s.tagOf tag.val = .free → (∀ j, j < tag.val → s.tagOf j ≠ .free) →
        s.chmHop e = some o.val → linkFree s o.val 3 → Happens i s [CHM_RA_STAT] chmOnly fun t =>
          (∀ j, t.tagOf j = if j = tag.val then .busy m.val write .nobody else s.tagOf j) ∧
          (∀ j, tabGet zeroWord t.chm.raAddr j =
            if j = m.val ∧ inc = 1 then addr + 4 else tabGet zeroWord s.chm.raAddr j) ∧
          packetOut s t o.val 0x4B (ctrlHdr s 0 e tag.val write 0)
            [BitVec.ofNat 64 (addr.toNat + if write then v.toNat * 2 ^ 32 else 0)])
    let taken (kind : Nat) : Prop := s.chm.ctrlIn = (r.val, k) :: rest ∧ k.kind = kind
    let asker := 0x320 + k.src
    let replies (t u : State) : State := chmOnly t { u with replies := t.replies }
    let tagIs (t : State) (i : Nat) (x : ChmTag) : Prop := ∀ j, t.tagOf j = if j = i then x else s.tagOf j
    let set := k.word / 2 ^ 48 % 2 ^ 4
    let count := k.word % 2 ^ 48
    let sc := DMP_SET_COUNT set
    let sa (j : Nat) : Nat := (s.reg DMP_STG_BASE).toNat + 0x10000 * set + 8 * j
    let onward (t : State) : Prop := t.chm.ctrlIn = rest ∧ ∀ j, j < 4 →
      (j ∈ s.chmTree k.src → linkFree s j 3 → packetOut s t j 0x4B (2 + k.src * 2 ^ 4 + k.src * 2 ^ 10) [BitVec.ofNat 64 k.word]) ∧
      (j ∉ s.chmTree k.src → t.chmPort j = s.chmPort j)
    let ready : Prop := s.bit DMP_CTRL DMP_CTRL_en = true ∧ s.bit sc DMP_SET_COUNT_pending = false
    access false (.raRead m) ∧ access true (.raWrite m v) ∧
    (taken 0 → s.chmHop k.src = some o.val → linkFree s o.val 3 →
      (dup = true → Happens .remoteRequest s [] chmOnly fun t => t.chm.ctrlIn = rest ∧
        packetOut s t o.val 0x4B (ctrlHdr s 1 k.src k.tag false 2) [0]) ∧
      (dup = false → s.isSup asker = true → k.field 36 36 = 0 → k.word % 2 ^ 32 = CHM_P_DELAY 0 →
        Happens .remoteRequest s [] replies fun t => t.chm.ctrlIn = rest ∧ Answers s t asker (s.reg (CHM_P_DELAY 0)) ∧
          packetOut s t o.val 0x4B (ctrlHdr s 1 k.src k.tag false 0) [BitVec.ofNat 64 (s.reg (CHM_P_DELAY 0)).toNat])) ∧
    (taken 1 →
      (s.tagOf k.tag = .busy mid w .nobody → k.field 39 37 = 0 → Happens .remoteCompletion s [CHM_RA_STAT] replies fun t =>
        t.chm.ctrlIn = rest ∧ tagIs t k.tag .free ∧ Answers s t mid (BitVec.ofNat 32 k.word)) ∧
      (s.tagOf k.tag = .free ∨ s.tagOf k.tag = .quarantined → Happens .remoteCompletion s [CHM_LATE_CPL, CHM_STAT] chmOnly fun t =>
        t.chm = { s.chm with ctrlIn := rest } ∧ countUp s t CHM_LATE_CPL 1 ∧
          t.reg CHM_STAT = CHM_STAT_late_cpl.set (s.reg CHM_STAT) 1)) ∧
    (s.tagOf tf.val = .busy mid w .nobody →
      Happens (.rtTimeout tf) s [CHM_RA_STAT, SYS_VIOL_COUNT, SYS_VIOL_ADDR, SYS_VIOL_INFO]
        (fun t u => replies t { u with fences := t.fences }) fun t => tagIs t tf.val .quarantined ∧ countUp s t SYS_VIOL_COUNT 1 ∧
          ∀ j, tabGet replyDefault t.replies j = if j = mid then ⟨.timeout, 0⟩ else tabGet replyDefault s.replies j) ∧
    (s.tagOf tf.val = .quarantined → Happens (.quarantineExpiry tf) s [CHM_RA_STAT] chmOnly fun t => tagIs t tf.val .free) ∧
    (taken 2 → k.word / 2 ^ 52 % 2 = 0 →
      (¬ready → Happens .kickoffReceive s [] chmOnly onward) ∧
      (ready → s.dmp.fill < 1024 → s.dmp.begun = none → s.dmp.closed = [] → ahead s count d → s.dmpLead < d → d < 2 ^ 47 →
        (s.reg DMP_STG_BASE).toNat % 8 = 0 → (∀ j, j < s.fld sc DMP_SET_COUNT_count → sa j + 8 ≤ 0x800000 ∧ s.flipsOf (sa j / 8) = 0) →
        Happens .kickoffReceive s [sc, DMP_STAT] (fun t u => chmOnly t (dmpOnly t u)) fun t => onward t ∧
          t.reg sc = DMP_SET_COUNT_pending.set (s.reg sc) 1 ∧ ∃ vals : List DmpVal,
            dmpIs t { s.dmp with items := s.dmp.items ++ [⟨count, count, some set, none, vals, false, .nobody⟩] } ∧
            vals.length = s.fld sc DMP_SET_COUNT_count ∧ ∀ j (y : DmpVal), vals[j]? = some y →
              let x := (mantelWord32 s (sa j + 4)).toNat
              y = ⟨x % 2 ^ 16, mantelWord32 s (sa j), x / 2 ^ 16 % 2 ^ 3, x / 2 ^ 19 % 2 ^ 10⟩))

/-- The rest but for the Keeper's own state. -/
def skpOnly (t u : State) : State := { u with skp := t.skp }

/-- The Keeper's command ended with result r: not busy, err set unless it is OK, nothing left to do (R457). -/
def skpEnds (s t : State) (r : Nat) : Prop :=
  t.bit SKP_STAT SKP_STAT_busy = false ∧ t.fld SKP_STAT SKP_STAT_result = r ∧
  t.bit SKP_STAT SKP_STAT_err = (s.bit SKP_STAT SKP_STAT_err || decide (r ≠ 0)) ∧
  t.skp = { s.skp with job := none, flash := t.skp.flash }

/-- A command that does n pages of its work and ends with result r: the registers of a list change, and SRC_SKP is raised. -/
def skpDoes (i : Instr) (s : State) (l : List Nat) (r : Nat) (P : State → Prop) : Prop :=
  Happens i s (SKP_STAT :: l) (fun t u => (mantelOnly t (skpOnly t u)).raise 450) fun t => skpEnds s t r ∧ P t

/-- The Mantel holds the bytes of l at address a, zeros up to the next multiple of 8, and else what it held. -/
def mantelPut (s t : State) (a : Nat) (l : List Byte) : Prop :=
  (∀ i, i < (l.length + 7) / 8 * 8 → t.mantelByte (a + i) = l.getD i 0) ∧
  ∀ i, i < a ∨ a + (l.length + 7) / 8 * 8 ≤ i → t.mantelByte i = s.mantelByte i

/-- The flash is as it was. -/
def sameFlash (s t : State) : Prop := t.skp.flash = s.skp.flash

/-- The Keeper takes a command, loads, stores, scans, erases and hashes page by page, stops, and the OTP is programmed (R453,
R456, R457, R458, R459, R461, R463, R464, R465, R469). Where a clause goes beyond these rules it is the model's choice (log
entries 123, 125, 126, 127, 128 and 130). -/
def Obligations.KeeperCommandsAndOtp : Prop :=
  ∀ (s : State) (m : Mid) (v d : Word) (w : Nat) (j : SkpJob) (op : FlashOp) (b tie : Bool) (h : SlotHdr) (pa : Nat) (l : List Byte)
    (low : Bool), s.awake = true → s.pwr.xoLost = false → s.ramOpen = true →
    s.bit MEMC_INJ_CTRL MEMC_INJ_CTRL_arm = false →
    let cmds : List ((SkpEvt → Instr) × Nat) := [(.load, 1), (.store, 2), (.scan, 3), (.erase, 4), (.loadBoot, 5), (.storeBoot, 6),
      (.hash, 7)]
    let busy := s.bit SKP_STAT SKP_STAT_busy
    let pair := v.toNat / 2 ^ 4 % 2 ^ 11
    let noPair : Prop := s.fld SKP_SCN_CFG SKP_SCN_CFG_pairs + 1 ≤ pair
    let closed : Prop := s.pins.pfailLow = true ∨ s.inLight = true
    let cmd (c : Nat) : Prop := s.fld SKP_CMD SKP_CMD_op = c
    let fits (n : Nat) : Prop := s.skpBuf % 8 = 0 ∧ s.skpBuf + n ≤ 0x800000
    let buffer := (List.range s.skpLen).map fun i => s.mantelByte (s.skpBuf + i)
    let quietJob : Prop := s.skp.job = some j ∧ j.op = none
    let began : Prop := s.skp.job = some jobReset
    let named : PairId := .scene (s.fld SKP_CMD SKP_CMD_pair)
    let cur (p : PairId) (x : Option (Bool × SlotHdr × Bool)) : Prop := s.currentCopy p false = x
    let res := [SKP_RES_INFO, SKP_RES_GEN, SKP_RES_LEN]
    let info (t : State) (slot fell tied : Bool) (gen len : Nat) : Prop := t.reg SKP_RES_INFO = BitVec.ofNat 32
        ((if slot then 1 else 0) + (if fell then 2 else 0) + (if tied then 4 else 0)) ∧
      t.reg SKP_RES_GEN = BitVec.ofNat 32 gen ∧ t.reg SKP_RES_LEN = BitVec.ofNat 32 len
    let still (t : State) : Prop := sameFlash s t ∧ ∀ a, t.mantelByte a = s.mantelByte a
    let loads (i : SkpEvt → Instr) (p : PairId) : Prop :=
      (cur p none → s.skpBuf % 8 = 0 → skpDoes (i (.work 1)) s [] 1 still) ∧
      (cur p (some (b, h, tie)) →
        (¬fits ((h.len + 7) / 8 * 8) → skpDoes (i (.work 1)) s [] 6 still) ∧
        (fits ((h.len + 7) / 8 * 8) → 1 ≤ h.len → h.len ≤ 256 → crc32c (s.payload p b h) = h.pcrc →
          skpDoes (i (.work 2)) s res 0 fun t => sameFlash s t ∧ info t b false tie h.gen h.len ∧
            mantelPut s t s.skpBuf (s.payload p b h)))
    let asks (i : Instr) (x : SkpJob) : Prop := Happens i s [SKP_STAT] skpOnly fun t => t.skp = { s.skp with job := some x }
    let next (g : Nat) : Nat := if (g + 1) % 2 ^ 32 = 2 ^ 32 - 1 ∨ (g + 1) % 2 ^ 32 = 0 then 1 else (g + 1) % 2 ^ 32
    let stores (i : SkpEvt → Instr) (p : PairId) : Prop :=
      let room : Prop := fits s.skpLen ∧ 1 ≤ s.skpLen ∧ s.skpLen + 256 ≤ s.slotSize p
      let writes (slot tied : Bool) (gen : Nat) : Prop := asks (i (.work 1)) { jobReset with
        begun := true, slot := slot, gen := gen, len := s.skpLen, tie := tied, unit := 1, crc := 2 ^ 32 - 1,
        op := some (.erase (s.slotAddr p slot) s.sectorSize) }
      (¬room → skpDoes (i (.work 1)) s [] 6 still) ∧
      (room → cur p none → writes false false 1) ∧ (room → cur p (some (b, h, tie)) → writes (!b) tie (next h.gen))
    let erases (slot tied : Bool) : Prop := Happens (.erase (.work 1)) s [SKP_STAT, SKP_RES_INFO] skpOnly fun t =>
      t.reg SKP_RES_INFO = (if tied then SKP_RES_INFO_tie.set (s.reg SKP_RES_INFO) 1 else s.reg SKP_RES_INFO) ∧
      t.skp = { s.skp with job := some { jobReset with
        begun := true, slot := slot, unit := 1, op := some (.erase (s.slotAddr named slot) s.sectorSize) } }
    let last := s.fld SKP_SCN_CFG SKP_SCN_CFG_pairs
    let noSlot (x : Bool) : Prop := s.slotIntact (.scene last) (s.bit SKP_CMD SKP_CMD_deep) x = none
    let entry := s.skpBuf + 8 * last
    let doing : Prop := s.skp.job = some j ∧ j.op = some op
    let limit : Nat := 100 * match op with
      | .erase _ _ => s.fld SKP_TIMING SKP_TIMING_erase_max
      | .program _ _ => s.fld SKP_TIMING SKP_TIMING_prog_max
    let inFlash (t : State) (n : Nat) (f : Nat → Byte → Byte) : Prop := ∀ i, t.flashByte i =
      if pa ≤ i ∧ i < pa + n then f (i - pa) (s.flashByte i) else s.flashByte i
    let stops (i : Instr) (g : State → State → State) (regs : List Nat) (r : Nat) (P : State → Prop) : Prop :=
      (quietJob → Happens i s (SKP_STAT :: regs) (fun t u => (g t (skpOnly t u)).raise 450) fun t =>
        skpEnds s t r ∧ sameFlash s t ∧ P t) ∧
      (doing → op = .program pa l → Happens i s (SKP_STAT :: regs) (fun t u => g t (skpOnly t u)) fun t =>
        t.skp = { s.skp with job := some { j with stop := some (j.stop.getD r) } } ∧ P t)
    let ow := s.fld SKP_OTP_ADDR SKP_OTP_ADDR_addr
    let locked : Prop := ow ≤ 1 ∨ (3 ≤ ow ∧ ow ≤ 7) ∨ ((s.otpWord 2).getLsbD 31 = true ∧ 2 ≤ ow ∧ ow ≤ 39)
    let oc := SKP_OTP_CTRL
    let ocWord : Word := (s.reg oc &&& ~~~(v &&& 2)) ||| 1
    (s.isSup m.val = true → s.noneWaits m.val = true → ∀ x, x ∈ cmds →
      (closed ∨ busy = true ∨ noPair → Refuses (x.1 (.issue m v)) s m.val SKP_CMD true) ∧
      (¬closed → busy = false → ¬noPair → Accepts (x.1 (.issue m v)) s m.val 0 [SKP_CMD, SKP_STAT] skpOnly fun t =>
        t.reg SKP_CMD = (v &&& 0x1FFF0) ||| BitVec.ofNat 32 x.2 ∧ t.reg SKP_STAT = SKP_STAT_busy.set (s.reg SKP_STAT) 1 ∧
        t.skp = { s.skp with job := some jobReset })) ∧
    (cmd 7 → quietJob → (∀ k, s.flipsOf k = 0) →
      (fits s.skpLen → skpDoes (.hash (.work 1)) s (SKP_RES_CRC :: (List.range 8).map fun i => SKP_DIGEST i) 0 fun t => still t ∧
        t.reg SKP_RES_CRC = BitVec.ofNat 32 (crc32c buffer) ∧
        ∀ i, i < 8 → t.reg (SKP_DIGEST i) = BitVec.ofNat 32 (leNat (slice (sha256 buffer) (4 * i) 4))) ∧
      (¬fits s.skpLen → skpDoes (.hash (.work 1)) s [] 6 still)) ∧
    (cmd 1 → began → loads .load named) ∧ (cmd 5 → began → loads .loadBoot .boot) ∧
    (cmd 2 → began → stores .store named) ∧ (cmd 6 → began → stores .storeBoot .boot) ∧
    (cmd 3 → quietJob → j.begun = true → j.unit = last → entry % 8 = 0 → entry + 8 ≤ 0x800000 → noSlot false → noSlot true →
      skpDoes (.scan (.work 1)) s [] 0 fun t => sameFlash s t ∧ mantelPut s t entry [0, 0, 0, 0, 0, 0, 0, 0x08]) ∧
    (cmd 4 → began → (cur named none → erases true false) ∧ (cur named (some (b, h, tie)) → erases (!b) tie)) ∧
    (doing → j.stop = none → (cmd 2 ∨ cmd 6) → j.begun = true → s.fld SKP_STAT SKP_STAT_step = 6 → op = .program pa l →
      skpDoes (.flashPoll true) s res 0 fun t => info t j.slot j.fell j.tie j.gen j.len ∧
        inFlash t l.length (fun i x => x &&& l.getD i 0xFF) ∧ ∀ a, t.mantelByte a = s.mantelByte a) ∧
    (doing → j.stop = none → cmd 4 → j.begun = true → j.unit = 2 → op = .erase pa w →
      skpDoes (.flashPoll true) s [] 0 fun t => inFlash t w (fun _ _ => 0xFF) ∧ ∀ a, t.mantelByte a = s.mantelByte a) ∧
    (doing → j.stop = some 7 → op = .program pa l → skpDoes (.flashPoll true) s [] 7 fun t =>
      inFlash t l.length (fun i x => x &&& l.getD i 0xFF) ∧ ∀ a, t.mantelByte a = s.mantelByte a) ∧
    (doing → (j.polls < limit → Happens (.flashPoll false) s [] skpOnly fun t =>
        t.skp = { s.skp with job := some { j with polls := j.polls + 1 } }) ∧
      (limit ≤ j.polls → Happens (.flashPoll false) s [SKP_STAT]
        (fun t u => (skpOnly t { u with freeCtr := t.freeCtr }).raise 450) fun t => skpEnds s t 5)) ∧
    (s.isSup m.val = true → s.noneWaits m.val = true → ¬closed → busy = true →
      stops (.skpAbort m v) (fun t u => { u with replies := t.replies }) [] 7 fun t => Answers s t m.val 0) ∧
    (low = true → s.pins.pfailLow = false →
      stops (.pfail low) (fun _ u => { u with pins := { u.pins with pfailLow := true } }) [] 4
        fun t => t.bit SKP_STAT SKP_STAT_pfail = true) ∧
    (low = false → Happens (.pfail low) s [] (fun _ u => { u with pins := { u.pins with pfailLow := false } }) fun _ => True) ∧
    (s.isSup m.val = true → s.noneWaits m.val = true →
      (s.skp.otpProg = none → locked → Fails (.otpProgram m v) s m.val oc .b32 true .perm) ∧
      (s.skp.otpProg = none → ¬locked → Accepts (.otpProgram m v) s m.val 0 [oc] skpOnly fun t => t.reg oc = ocWord ∧
        t.skp = { s.skp with otpProg := some (ow, s.reg SKP_OTP_WDATA) }) ∧
      (s.skp.otpProg.isSome = true → Accepts (.otpProgram m v) s m.val 0 [oc] (fun _ u => u) fun t => t.reg oc = ocWord)) ∧
    (s.skp.otpProg = some (w, d) → Does .otpProgramDone s fun t =>
      t = { s with regs := t.regs, otp := t.otp, skp := { s.skp with otpProg := none } } ∧ SameRegs s t [oc, SKP_BOOT_STAT] ∧
      t.reg SKP_BOOT_STAT = (if w = 2 ∧ d.getLsbD 0 = true then SKP_BOOT_STAT_secure.set (s.reg SKP_BOOT_STAT) 1 else s.reg SKP_BOOT_STAT) ∧
      t.bit oc SKP_OTP_CTRL_go = false ∧ t.bit oc SKP_OTP_CTRL_done = true ∧
      ∀ k, t.otpWord k = if k = w then s.otpWord w ||| d else s.otpWord k)

/-- The rest but for power and the Ember behind its registers. -/
def pwrOnly (t u : State) : State := { u with pwr := t.pwr }

/-- The Ember recorded a wake or a reset at the RTC's time: cause, entry, and the state it came from (R496). -/
def causeIs (s t : State) (cause entry came : Nat) : Prop :=
  t.reg EMB_CAUSE = BitVec.ofNat 32 (cause + entry * 2 ^ 4 + came * 2 ^ 9 + 2 ^ 31) ∧
  t.reg EMB_CAUSE_RTC_LO = BitVec.ofNat 32 s.pwr.rtc ∧ t.reg EMB_CAUSE_RTC_HI = BitVec.ofNat 32 (s.pwr.rtc / 2 ^ 32)

/-- Every register below the Ember has its reset value, but for MEMC_STATUS, those that take the straps, and those of a list, which
are kept (R466, R488, R540). -/
def belowEmber (s t : State) (kept : List Nat) : Prop :=
  (∀ a, ¬(0x02100000 ≤ a ∧ a < 0x02110000) → a ∉ [MEMC_STATUS, SKP_FLASH_CFG, SKP_BOOT_STAT, SAP_GLOBAL] ++ kept →
    t.reg a = regReset a) ∧ (∀ a ∈ kept, t.reg a = s.reg a) ∧
  t.reg SKP_FLASH_CFG = (if s.pins.flashOct then 0x10609 else 0x620) ∧ t.reg SAP_GLOBAL = BitVec.ofNat 32 (s.pins.sapv % 16) ∧
  t.fld SKP_BOOT_STAT SKP_BOOT_STAT_boot_mode = s.pins.bootMode % 4 ∧ t.rallyCount = 0 ∧ t.fld EMB_STAT EMB_STAT_state = 0

/-- A system reset that keeps the RAMs, with its cause (R488 to R490). -/
def systemReset (s t : State) (cause : Nat) : Prop :=
  belowEmber s t [] ∧ causeIs s t cause 0 (if s.inLight then 1 else 0) ∧ t.reg MEMC_STATUS = s.reg MEMC_STATUS ∧
  (s.flue.moves = [] → t.mantel = s.mantel) ∧ t.flue.moves = [] ∧
  t.otp = s.otp ∧ t.jobs = [] ∧ t.skp.job = none ∧ (s.skp.job = none → t.skp.flash = s.skp.flash) ∧
  ∀ n, n < 192 → (t.hearth n).pc = 0 ∧ (t.hearth n).prog = (s.hearth n).prog ∧ (t.hearth n).sb = [] ∧
    ((s.hearth n).sb = [] → (t.hearth n).ram = (s.hearth n).ram)

/-- Sleep is entered or refused, LIGHT and STANDBY begin and end, rails step, wakes and resets leave their cause, the RTC
counts (R476, R477, R479, R481, R482, R484, R485, R489, R490, R491, R495, R501). Where a clause goes beyond these rules it is
the model's choice (log entries 135, 136, 137, 138, 139, 141, 144, 146 and 160). -/
def Obligations.SleepWakeAndReset : Prop :=
  ∀ (s : State) (m : Mid) (v : Word) (i : Fin 32) (e k : Nat) (rest : List Nat) (phase : BitVec 8) (temp rate : BitVec 16),
    let pst := s.fld SYS_PWR_STAT SYS_PWR_STAT_state
    let target := v.toNat % 4
    let watching : Bool := (List.range 32).any fun j => s.watchOn j && s.watchTrue j
    let reason : Nat := if s.bit SKP_STAT SKP_STAT_busy = true ∨ s.dmpBusy = true then 1 else if watching then 2
      else if target = 1 ∧ s.lightWake = true then 3 else 0
    let lit : Nat := if s.inLight then 1 else 0
    let halted (t : State) : Prop := ∀ n, n < 192 → t.running n = false
    let downFrom (t : State) (came tgt : Nat) (hit : Option Nat) : Prop := t.pwr.seq = (s.enSeq came tgt).reverse ∧ t.pwr.target = tgt ∧
      t.pwr.mode = (if s.enSeq came tgt = [] then .asleep else .down) ∧ t.pwr.hit = hit
    let found : Prop := s.watchOn i.val = true ∧ (s.watchByLevel i.val = true → s.watchTrue i.val = true)
    let hit := Instr.watchHit i
    let level (a b : State) : Prop := a = { s with regs := b.regs, pwr := b.pwr }
    let scrubRegs := [MEMC_SCRUB_CTRL, MEMC_SCRUB_START, MEMC_SCRUB_END, MEMC_SCRUB_RATE, MEMC_SCRUB_POS]
    let waits : Prop := s.pwr.mode = .up ∧ s.pwr.seq = []
    let next := (s.pwr.rtc + 1) % 2 ^ 48
    let crit : Int := signed 16 (s.fld SYS_TEMP_CFG SYS_TEMP_CFG_crit)
    let alarm : Int := signed 16 (s.fld SYS_TEMP_CFG SYS_TEMP_CFG_alarm)
    let key := v.toNat / 2 ^ 8 % 2 ^ 8
    (s.awake = true → s.isSup m.val = true → s.noneWaits m.val = true →
      (target = 0 ∨ pst ≠ 0 → Refuses (.pwrGo m v) s m.val SYS_PWR_CTRL true) ∧
      (target ≠ 0 → pst = 0 → reason ≠ 0 → Accepts (.pwrGo m v) s m.val 0 [SYS_PWR_STAT] (fun _ u => u) fun t =>
        t.reg SYS_PWR_STAT = SYS_PWR_STAT_result.set (s.reg SYS_PWR_STAT) reason) ∧
      (target ≠ 0 → pst = 0 → reason = 0 → Accepts (.pwrGo m v) s m.val 0 [SYS_PWR_CTRL, SYS_PWR_STAT] pwrOnly fun t =>
        t.reg SYS_PWR_CTRL = v &&& 3 ∧ t.fld SYS_PWR_STAT SYS_PWR_STAT_state = 4 ∧ t.fld SYS_PWR_STAT SYS_PWR_STAT_result = 0 ∧
        t.pwr = { s.pwr with target := target, due := false, hit := none }) ∧
      (key ≠ 0xA5 → Refuses (.softwareReset m v) s m.val SYS_RST_CTRL true) ∧
      (key = 0xA5 → v.getLsbD 0 = false → Accepts (.softwareReset m v) s m.val 0 [] (fun _ u => u) fun _ => True) ∧
      (key = 0xA5 → v.getLsbD 0 = true → Does (.softwareReset m v) s fun t =>
        systemReset s t 3 ∧ t.awake = true ∧ Answers s t m.val 0)) ∧
    (s.awake = true → pst = 4 → s.pwr.due = true →
      (s.pwr.target = 1 → Does .lightEntry s fun t => t.inLight = true ∧ t.fld EMB_STAT EMB_STAT_state = 1 ∧
        t.pwr = { s.pwr with ports := s.runningPorts, hold := true, due := false } ∧
        (∀ p, p < 4 → t.chmState p = 0 ∧ (t.chmPort p).lock = false) ∧
        (∀ p, p < 2 → t.bit (NET_MAC_STAT p) NET_MAC_STAT_link = false) ∧ ∀ n, n < 32 → t.reg (BEL_PWM_CMP n) = 0) ∧
      (2 ≤ s.pwr.target → Does .standbyEntry s fun t => halted t ∧ downFrom t 0 s.pwr.target s.pwr.hit ∧
        t.bit EMB_STAT EMB_STAT_xp_running = true ∧
        t.pwr.xp = { s.pwr.xp with r0 := s.rallyCount, t0 := s.pwr.rtc * 65536 + s.pwr.rtcSub })) ∧
    (s.awake = true → s.inLight = true →
      (s.lightWake = true → Does .lightExit s fun t => t.fld SYS_PWR_STAT SYS_PWR_STAT_state = 5 ∧
        t.fld EMB_STAT EMB_STAT_state = 0 ∧ causeIs s t 4 0 1 ∧ t.pwr = { s.pwr with ports := [] }) ∧
      (found → Does hit s fun t => t.fld SYS_PWR_STAT SYS_PWR_STAT_state = 5 ∧ t.fld EMB_STAT EMB_STAT_state = 0 ∧
        causeIs s t 4 i.val 1 ∧ t.pwr = { s.pwr with ports := [] })) ∧
    (found → s.pwr.mode = .down ∨ s.pwr.mode = .asleep → Does hit s fun t => level t t ∧ SameRegs s t [] ∧
      t.pwr = { s.pwr with hit := some (min i.val (s.pwr.hit.getD i.val)) }) ∧
    (found → s.pwr.mode = .up → Does hit s fun t => level t t ∧ SameRegs s t [EMB_CAUSE] ∧ t.pwr = s.pwr ∧
      t.fld EMB_CAUSE EMB_CAUSE_hits = min 255 (s.fld EMB_CAUSE EMB_CAUSE_hits + 1)) ∧
    (s.pwr.mode = .asleep → s.pwr.hit = some k → Does .wake s fun t => level t t ∧
      SameRegs s t [EMB_CAUSE, EMB_CAUSE_RTC_LO, EMB_CAUSE_RTC_HI] ∧ causeIs s t (3 + s.pwr.level) k s.pwr.level ∧
      t.pwr = { s.pwr with mode := .up, target := 0, seq := s.enSeq s.pwr.level 0, hit := none, vaon := false }) ∧
    (s.pwr.seq = e :: rest → s.pwr.mode = .down ∨ s.pwr.mode = .up → Does .pwrEnStep s fun t => level t t ∧
      SameRegs s t [EMB_STAT] ∧ t.pwr.seq = rest ∧
      (∀ j, bitOf t.pwr.en j = if j = e then s.enLevel e s.pwr.target else bitOf s.pwr.en j) ∧
      (rest = [] ∧ s.pwr.mode = .down → t.pwr.mode = .asleep ∧ t.pwr.level = s.pwr.target ∧
        t.fld EMB_STAT EMB_STAT_state = s.pwr.target % 4) ∧
      (¬(rest = [] ∧ s.pwr.mode = .down) → t.pwr = { s.pwr with seq := rest, en := t.pwr.en } ∧ t.reg EMB_STAT = s.reg EMB_STAT)) ∧
    (waits →
      Does .railsGood s (fun t => belowEmber s t (if s.pwr.level = 2 then scrubRegs else []) ∧ t.awake = true ∧ t.pwr.level = 0 ∧ t.pwr.xoLost = false ∧ t.pwr.hold = false ∧
        (s.pwr.level = 2 → t.reg MEMC_STATUS = 1 ∧ (s.flue.moves = [] → t.mantel = s.mantel) ∧ t.scrub = s.scrub) ∧
        (s.pwr.level ≠ 2 → t.reg MEMC_STATUS = regReset MEMC_STATUS)) ∧
      Does .pwrGoodTimeout s fun t => level t t ∧ SameRegs s t [EMB_CAUSE, EMB_CAUSE_RTC_LO, EMB_CAUSE_RTC_HI, EMB_STAT] ∧
        causeIs s t 8 0 s.pwr.level ∧ t.bit EMB_STAT EMB_STAT_pwr_fail = true ∧
        t.pwr = { s.pwr with mode := .asleep, target := s.pwr.level, en := s.enAll s.pwr.level }) ∧
    (s.powered = true →
      (s.pwr.pinReset = false → Does (.resetN true) s fun t => systemReset s t 2 ∧ t.awake = false ∧ t.pwr.pinReset = true) ∧
      (s.pwr.pinReset = true → Does (.resetN false) s fun t => t.pwr = { s.pwr with pinReset := false } ∧
        t.fld SKP_BOOT_STAT SKP_BOOT_STAT_boot_mode = s.pins.bootMode % 4)) ∧
    Does .vaonPowerOn s (fun t => (∀ a, t.reg a = regReset a) ∧ t.pwr.mode = .up ∧ t.pwr.level = 3 ∧ t.pwr.vaon = true ∧
      t.otp = s.otp ∧ t.skp.job = none ∧ (s.skp.job = none → t.skp.flash = s.skp.flash)) ∧
    (s.awake = true → s.bit EMB_XP_CFG EMB_XP_CFG_en = false →
      ((s.wideOf (wideKey .rtc)).load = none → Happens (.rtcTick phase) s [EMB_RTC_STAT, EMB_STAT] pwrOnly fun t =>
        t.pwr = { s.pwr with rtc := next, xp := { s.pwr.xp with hist := [] } } ∧
        t.bit EMB_RTC_STAT EMB_RTC_STAT_wrapped = (s.bit EMB_RTC_STAT EMB_RTC_STAT_wrapped || decide (next = 0)) ∧
        t.bit EMB_STAT EMB_STAT_alarm = (s.bit EMB_STAT EMB_STAT_alarm ||
          (s.bit EMB_ALARM_HI EMB_ALARM_HI_en && decide (next = s.pwr.alarm)))) ∧
      ((s.wideOf (wideKey .rtc)).load = some k → Happens (.rtcTick phase) s [EMB_STAT] (fun t u => pwrOnly t { u with wide := t.wide })
        fun t => t.pwr = { s.pwr with rtc := k % 2 ^ 48, xp := { s.pwr.xp with hist := [] } } ∧
          (t.wideOf (wideKey .rtc)).load = none)) ∧
    (s.awake = true → s.pwr.xoLost = false →
      Happens (.tempSample temp rate) s [SYS_TEMP, SYS_RATE]
        (fun t u => { u with pins := { u.pins with tempAlarm := t.pins.tempAlarm } }) (fun t =>
          t.reg SYS_TEMP = temp.zeroExtend 32 ∧ t.reg SYS_RATE = rate.zeroExtend 32 ∧ (alarm ≤ temp.toInt → t.pins.tempAlarm = true) ∧
          (temp.toInt ≤ alarm - 32 → t.pins.tempAlarm = false) ∧
          (alarm - 32 < temp.toInt → temp.toInt < alarm → t.pins.tempAlarm = s.pins.tempAlarm)) ∧
      (signed 16 (s.fld SYS_TEMP SYS_TEMP_temp) < crit → Happens .thermalShutdown s [] (fun _ u => u) fun _ => True) ∧
      (crit ≤ signed 16 (s.fld SYS_TEMP SYS_TEMP_temp) → Does .thermalShutdown s fun t =>
        halted t ∧ downFrom t lit 3 none ∧ causeIs s t 7 0 lit)) ∧
    (s.awake = true → Happens .xoLoss s [] pwrOnly fun t => t.pwr = { s.pwr with xoLost := true }) ∧
    (found → s.awake = true → pst = 5 → Does hit s fun t => t.pwr = s.pwr ∧
      t.fld EMB_CAUSE EMB_CAUSE_hits = min 255 (s.fld EMB_CAUSE EMB_CAUSE_hits + 1))

/-- The boot ROM resumes, waits for a host, fails without an image, and boots a staged unsigned image at its entry (R456,
R466, R467, R468, R470, R471, R472, R486). Where a clause goes beyond these rules it is the model's choice (log entries 131
and 132). -/
def Obligations.BootRomRuns : Prop :=
  ∀ (s : State) (m : Mid) (v : Word) (hd : SlotHdr) (src e : Nat) (left : List (Nat × Word)) (r : Reply), s.awake = true → s.pwr.xoLost = false → s.jobs = [] → s.ramOpen = true →
    s.running 0 = true → s.bit SKP_STAT SKP_STAT_busy = false → s.pins.pfailLow = false → s.inLight = false →
    s.isSup 0 = true → (∀ k, s.flipsOf k = 0) → s.bit MEMC_INJ_CTRL MEMC_INJ_CTRL_arm = false →
    ((List.finRange 192).all fun n => !(s.hearth n.val).stepping) = true →
    let resumes : Prop := s.bit EMB_RESUME EMB_RESUME_en = true ∧ s.fld EMB_CAUSE EMB_CAUSE_cause = 5 ∧
      s.fld EMB_CAUSE EMB_CAUSE_from = 2
    let mode := s.fld SKP_BOOT_STAT SKP_BOOT_STAT_boot_mode
    let pc := s.fld EMB_RESUME EMB_RESUME_pc
    let stat (t : State) (source result : Nat) : Prop := t.fld SKP_BOOT_STAT SKP_BOOT_STAT_source = source ∧
      t.fld SKP_BOOT_STAT SKP_BOOT_STAT_result = result
    let cfg : Word := if s.bit SKP_BOOT_STAT SKP_BOOT_STAT_flash_oct then 0x10609 else 0x620
    let replies (t u : State) : State := skpOnly t { u with replies := t.replies }
    let option (i : Nat) : Bool := (s.otpWord 2).getLsbD i
    let handed (t : State) (entry : Nat) : Prop := t.skp.rom = .done ∧ t.bit SKP_BOOT_STAT SKP_BOOT_STAT_done = true ∧
      t.reg (CHM_RA_ALLOW 0) = 0 ∧ t.reg (CHM_RA_ALLOW 1) = 0 ∧ (t.hearth 0).pc = entry ∧ (t.hearth 0).npc = (entry + 1) % 4096
    let page := (List.range 32).map fun j => s.mantelByte (0x005FFF00 + j)
    let image (n : Nat) : List Byte := (List.range n).map fun j => s.mantelByte (0x00600000 + j)
    let entry := mantelWord32 s 0x00600000
    let staged (x : Option SlotHdr) : Prop := s.skp.rom = .waiting ∧ hdrOf .boot 0x200000 page = x
    (s.skp.rom ≠ .idle → s.answers = [] → Happens .bootRomStart s [] (fun _ u => u) fun _ => True) ∧
    (src < 4 → s.skp.rom = .applying src e left → s.answers = [(.rom, r)] →
      (r.resp = .ok → left = [] → Does .bootRomStart s fun t => handed t e ∧ stat t src 0 ∧ t.answers = []) ∧
      (r.resp ≠ .ok → src = 3 → Does .bootRomStart s fun t => t.fld SKP_BOOT_STAT SKP_BOOT_STAT_result = 4 ∧
        t.bit SKP_BOOT_GO SKP_BOOT_GO_go = false ∧ t.skp.rom = .waiting ∧ t.answers = [])) ∧
    (s.skp.rom = .idle → resumes → Happens .bootRomStart s [SKP_BOOT_STAT, CHM_RA_ALLOW 0, CHM_RA_ALLOW 1]
      (fun t u => skpOnly t { u with hearths := t.hearths }) fun t => handed t pc ∧ stat t 0 0 ∧
        t.skp = { s.skp with rom := .done } ∧ ∀ n, n ≠ 0 → t.hearth n = s.hearth n) ∧
    (s.skp.rom = .idle → ¬resumes → (mode = 1 ∨ mode = 2) → s.bit SKP_BOOT_GO SKP_BOOT_GO_go = false →
      Happens .bootRomStart s [SKP_FLASH_CFG] replies fun t => t.skp = { s.skp with rom := .waiting } ∧
        t.reg SKP_FLASH_CFG = masked (s.reg SKP_FLASH_CFG) cfg 0x0003FF7F) ∧
    (s.skp.rom = .idle → ¬resumes → mode = 0 → s.currentCopy .boot false = none →
      Does .bootRomStart s fun t => t.fld SKP_BOOT_STAT SKP_BOOT_STAT_result = 1 ∧
        (option 1 = true → t.skp.rom = .waiting ∧ t.running 0 = true) ∧
        (option 1 = false → t.skp.rom = .halted ∧ t.running 0 = false)) ∧
    (s.isSup m.val = true →
      (s.skp.rom ≠ .waiting → Accepts (.bootGo m v) s m.val 0 [SKP_BOOT_GO] (fun _ u => u) fun t =>
        t.reg SKP_BOOT_GO = s.reg SKP_BOOT_GO ||| 1) ∧
      (staged none → Does (.bootGo m v) s fun t => t.fld SKP_BOOT_STAT SKP_BOOT_STAT_result = 1 ∧
        t.bit SKP_BOOT_GO SKP_BOOT_GO_go = false ∧ t.skp.rom = .waiting ∧ ∀ n, t.hearth n = s.hearth n) ∧
      (staged (some hd) → hd.flags % 2 = 0 → hd.len = 8 → hd.pcrc = crc32c (image 8) → option 0 = false →
        (mantelWord32 s 0x00600004).toNat / 2 ^ 24 % 16 = 15 → Does (.bootGo m v) s fun t =>
          handed t (entry.toNat % 4096) ∧ stat t 3 0))

/-- The rest but for the host interfaces behind their registers. -/
def hifOnly (t u : State) : State := { u with hif := t.hif }

/-- The PCIe endpoint after a reset: configuration and MSI-X at reset, no message pending (R509, R510). -/
def endpointFresh (t : State) : Prop :=
  t.pcie = ⟨false, false, false, false, false⟩ ∧ t.evc.pba = 0 ∧ t.hif.resend = true ∧
  ∀ v, v < 64 → t.reg (MSIX_CTRL v) = 1 ∧ ∀ j, j < 3 → t.reg (MSIX_TABLE v j) = 0

/-- PCIe, QSPI and TAP make accesses and are answered; doorbells, UART, GPIO, MSI-X and the endpoint's resets act (R505,
R506, R508, R509, R510, R511, R512, R513, R514, R516, R520, R521). Where a clause goes beyond these rules it is the model's
choice (log entries 149, 150, 151, 153, 154 and 156). -/
def Obligations.HostsReachTheEngine : Prop :=
  ∀ (s : State) (m : Mid) (i : Fin 4) (n : Fin 64) (v a : Word) (r : PcieReq) (b c : Byte) (more : List Byte) (stop cut : Bool)
    (op : Fin 4) (speed width : Fin 8) (cfg : PcieCfg) (code : Option Byte) (addr : Option Word) (count : Option (Fin 64))
    (f : QspiWr), s.awake = true → s.pwr.xoLost = false → s.quiet = true → s.answers = [] →
    let out := HIF_GPIO_OUT
    let bytes : List Byte := (List.range 4).map fun j => BitVec.ofNat 8 ((s.reg out).toNat / 256 ^ j)
    let answered (t u : State) : State := hifOnly t { u with replies := t.replies }
    let ps := HIF_PCIE_STAT
    let up := s.bit ps HIF_PCIE_STAT_link_up
    let unsupported : Prop := r.plain = false ∨ s.pcie.memEn = false ∨ s.pcie.d3hot = true ∨ (r.bar2 = true ∧ 0x800000 ≤ r.offset.toNat)
    let toSleep : Prop := s.fld SYS_PWR_STAT SYS_PWR_STAT_state = 4 ∧ 2 ≤ s.pwr.target
    let cpl (x : PcieCpl) : Hif := { s.hif with cpls := s.hif.cpls ++ [x] }
    let qs := HIF_QSPI_STAT
    let qon := s.bit HIF_QSPI_CFG HIF_QSPI_CFG_en
    let badFrame (j : Instr) : Prop := Happens j s [qs, HIF_QSPI_ERRS] (fun _ u => u.raise 459) fun t =>
      t.reg qs = HIF_QSPI_STAT_frame_err.set (s.reg qs) 1 ∧ countUp s t HIF_QSPI_ERRS 1
    let told (x : List Byte) : Hif := { s.hif with qspiOut := s.hif.qspiOut ++ [x] }
    let tap := Instr.jtagDbgUpdate op a v
    let uon := s.bit HIF_UART_CTRL HIF_UART_CTRL_en
    let us := HIF_UART_STAT
    let fs := HIF_DB_STAT
    let full := (s.reg fs).getLsbD i.val
    let frame : Word := if stop then s.reg us else HIF_UART_STAT_frame_err.set (s.reg us) 1
    let unmask := Instr.msixUnmask m n
    let open_ : Prop := s.pcie.msixEn = true ∧ s.pcie.busMaster = true ∧ s.pcie.funcMask = false ∧ s.pcie.d3hot = false
    let table (j : Nat) : Nat := (s.reg (MSIX_TABLE n.val j)).toNat
    let fits : Prop := 1 ≤ speed.val ∧ speed.val ≤ 3 ∧ (width.val = 1 ∨ width.val = 2 ∨ width.val = 4)
    let set (p : Pcie) : Pcie := match cfg with
      | .memEn x => { p with memEn := x }
      | .busMaster x => { p with busMaster := x }
      | .msixEn x => { p with msixEn := x }
      | .funcMask x => { p with funcMask := x }
      | .d3hot x => { p with d3hot := x }
    (up = true → unsupported → Happens (.pcieRequest r) s [ps] hifOnly fun t => t.reg ps = HIF_PCIE_STAT_ur.set (s.reg ps) 1 ∧
      t.hif = if r.write then s.hif else cpl ⟨1, []⟩) ∧
    (up = true → ¬unsupported → ¬toSleep → r.bar2 = false → r.write = false → r.offset.toNat = HIF_GPIO_OUT - 0x01000000 →
      r.bytes.map (fun x => x.1) = [true, true, true, true] → Happens (.pcieRequest r) s [] answered fun t =>
        t.hif = cpl ⟨0, bytes⟩ ∧ Answers s t 0x300 (s.reg out)) ∧
    (up = true → ¬unsupported → ¬toSleep → r.bar2 = true → r.write = true → r.offset.toNat % 8 = 0 → s.ramOpen = true →
      s.bit MEMC_INJ_CTRL MEMC_INJ_CTRL_arm = false → r.bytes.map (fun x => x.1) = List.replicate 8 true →
      Happens (.pcieRequest r) s [] (fun t u => mantelOnly t { u with replies := t.replies }) fun t => Answers s t 0x300 0 ∧
        (∀ j, j < 8 → t.mantelByte (r.offset.toNat + j) = (r.bytes.getD j (false, 0)).2) ∧
        ∀ j, j < r.offset.toNat ∨ r.offset.toNat + 8 ≤ j → t.mantelByte j = s.mantelByte j) ∧
    (qon = true →
      (f.addr = some a → a.toNat % 4 ≠ 0 → badFrame (.qspiWrite f)) ∧ (f.addr = none → badFrame (.qspiWrite f)) ∧
      (addr = some a → a.toNat % 4 ≠ 0 → badFrame (.qspiRead addr count cut)) ∧
      (addr = none → badFrame (.qspiRead addr count cut)) ∧
      (b ∉ [0x02, 0x0B, 0x05] → badFrame (.qspiUnknownOpcode b)) ∧
      (f.addr = some (BitVec.ofNat 32 out) → f.words = [v] → f.rest = false →
        Happens (.qspiWrite f) s [out] (fun t u => { u with replies := t.replies }) fun t => t.reg out = v ∧ Answers s t 0x301 0) ∧
      (addr = some (BitVec.ofNat 32 out) → count = some 0 → cut = false → Happens (.qspiRead addr count cut) s [] answered fun t =>
        t.hif = told (0x5A :: bytes ++ [0]) ∧ Answers s t 0x301 (s.reg out)) ∧
      Happens .qspiStatus s [] hifOnly fun t => t.hif = told [BitVec.ofNat 8 ((if (s.reg qs).toNat / 2 = 0 then 0 else 2) +
        (if s.fld SYS_PWR_STAT SYS_PWR_STAT_state = 0 then 4 else 0))]) ∧
    Happens (.jtagIrUpdate code) s [] hifOnly (fun t =>
      t.hif = { s.hif with tapIr := (code.map fun x => x.toNat).getD 2 }) ∧
    (s.hif.tapIr = 0x10 → s.hif.dbgStat ≠ 1 → a = BitVec.ofNat 32 out →
      (op.val = 1 → Happens tap s [] answered fun t =>
        t.hif = { s.hif with dbgStat := 0, dbgResp := 0, dbgData := s.reg out } ∧ Answers s t 0x302 (s.reg out)) ∧
      (op.val = 2 → Happens tap s [out] answered fun t => t.reg out = v ∧
        t.hif = { s.hif with dbgStat := 0, dbgResp := 0, dbgData := 0 } ∧ Answers s t 0x302 0)) ∧
    (s.isSup m.val = true →
      Accepts (.hifDbWrite m i v) s m.val 0 [HIF_DB i.val, fs] (fun _ u => u.raise (455 + i.val)) (fun t =>
        t.reg (HIF_DB i.val) = v ∧
        t.reg fs = s.reg fs ||| BitVec.ofNat 32 (2 ^ i.val) ||| (if full then BitVec.ofNat 32 (2 ^ (8 + i.val)) else 0)) ∧
      Accepts (.gpioOutSet m v) s m.val 0 [out] (fun _ u => u) (fun t => t.reg out = s.reg out ||| v) ∧
      Accepts (.gpioOutClr m v) s m.val 0 [out] (fun _ u => u) (fun t => t.reg out = s.reg out &&& ~~~v) ∧
      Accepts (.uartTx m v) s m.val 0 [] hifOnly (fun t => t.hif =
        if 64 ≤ s.hif.uartTx.length then s.hif else { s.hif with uartTx := s.hif.uartTx ++ [v.truncate 8] }) ∧
      (s.hif.uartRx = [] → Accepts (.uartRxPop m) s m.val 0 [] (fun _ u => u) fun _ => True) ∧
      (s.hif.uartRx = b :: more → Accepts (.uartRxPop m) s m.val (BitVec.ofNat 32 (b.toNat + 2 ^ 8)) [] hifOnly fun t =>
        t.hif = { s.hif with uartRx := more }) ∧
      (bitOf s.evc.pba n.val = false → Accepts unmask s m.val 0 [MSIX_CTRL n.val] (fun _ u => u) fun t =>
        t.reg (MSIX_CTRL n.val) = s.reg (MSIX_CTRL n.val) &&& ~~~1) ∧
      (bitOf s.evc.pba n.val = true → open_ → Does unmask s fun t => t = { s with regs := t.regs, replies := t.replies, evc := t.evc } ∧
        SameRegs s t [MSIX_CTRL n.val] ∧ t.reg (MSIX_CTRL n.val) = s.reg (MSIX_CTRL n.val) &&& ~~~1 ∧ Answers s t m.val 0 ∧
        t.evc = { s.evc with
          pba := s.evc.pba - 2 ^ n.val, msix := s.evc.msix ++ [⟨n.val, table 0 + table 1 * 2 ^ 32, table 2⟩] })) ∧
    (uon = true →
      (s.hif.uartTx = c :: more → Happens .uartTxByteSent s [] hifOnly fun t =>
        t.hif = { s.hif with uartTx := more, uartOut := s.hif.uartOut ++ [c] }) ∧
      (s.hif.uartRx.length < 64 → Happens (.uartRxByte b stop) s [us] hifOnly fun t => t.reg us = frame ∧
        t.hif = { s.hif with uartRx := s.hif.uartRx ++ [b] }) ∧
      (64 ≤ s.hif.uartRx.length → Happens (.uartRxByte b stop) s [us] (fun _ u => u) fun t =>
        t.reg us = HIF_UART_STAT_rx_ovf.set frame 1)) ∧
    (fits → s.pins.perstLow = false → Happens (.pcieLinkUp speed width) s [ps] (fun _ u => u) fun t =>
      t.bit ps HIF_PCIE_STAT_link_up = true ∧ t.fld ps HIF_PCIE_STAT_speed = speed.val ∧
        t.fld ps HIF_PCIE_STAT_width = width.val ∧ t.bit ps HIF_PCIE_STAT_link_chg = true) ∧
    (up = true → s.evc.pba = 0 → s.hif.resend = false → Happens (.pcieConfigRequest cfg) s [] (fun t u => { u with pcie := t.pcie })
      fun t => t.pcie = set s.pcie) ∧
    Does (.pcieReset .hot) s (fun t => endpointFresh t ∧ t.reg ps = HIF_PCIE_STAT_hot_reset.set (s.reg ps) 1) ∧
    (up = true → Does (.pcieReset .linkDown) s fun t => endpointFresh t ∧ (t.reg ps).toNat % 2 ^ 6 = 0 ∧
      t.bit ps HIF_PCIE_STAT_link_chg = true) ∧
    (s.pins.perstLow = false →
      (s.bit HIF_PCIE_CTRL HIF_PCIE_CTRL_perst_sys = false → Does (.pcieReset (.perst true)) s fun t => endpointFresh t ∧
        t.pins = { s.pins with perstLow := true } ∧ (up = true → (t.reg ps).toNat % 2 ^ 6 = 0) ∧ t.bit ps HIF_PCIE_STAT_perst = true) ∧
      (s.bit HIF_PCIE_CTRL HIF_PCIE_CTRL_perst_sys = true → Does (.pcieReset (.perst true)) s fun t => belowEmber s t [] ∧
        t.pwr.perstReset = true ∧ t.awake = false))

/-- Registers of each chapter with the reset value that its table states, and a few that reset to 0. -/
def statedResets : List (Nat × Word) :=
  [(SYS_PWR_STAT, 0), (SYS_PWR_LWAKE, 0xFF), (SYS_TEMP_CFG, 0x073005F0), (SKP_FLASH_CFG, 0x620), (SKP_SCN_CFG, 0x00100040),
   (CHM_CTRL, 0x8000), (CHM_LET_CFG, 4), (CHM_RALLY_CFG, 0x01000004), (CHM_TRIM, 0x03E81770), (CHM_RT_TIMEOUT, 0x32),
   (CHM_RA_ALLOW 0, 0), (CHM_RA_ALLOW 1, 0), (EMB_CAUSE, 0x80000001), (EMB_XP_CFG, 0x116), (EMB_PWR_SEQ, 0x000A0032),
   (HIF_QSPI_CFG, 1), (HIF_UART_CTRL, 0x03640001), (HIF_GPIO_OUT, 0)]

/-- Words of the samples of 09, and the instructions that they stand for. -/
def sampleWords (h : HearthId) : List (Word × Instr) :=
  [(0x15E08000, .movi h 15 0x8000), (0x19E00000, .movhi h 15 0), (0xCA800000, .recv h 20 0 0), (0x42AF8000, .ldw h 21 15 0),
   (0xBC000000, .nop h), (0x2014A910, .mul h 0 20 21 true), (0x22C00380, .movar h 22 0), (0x80000100, .b h false false 0x100),
   (0xC2C00106, .send h 22 0x106 0)]

/-- A step runs the command at the front of the queue on the state with the queue's rest; with none the 400 MHz time base
ticks (R9, R32, R129). Where a clause goes beyond these rules it is the model's choice (log entry 1). -/
def Obligations.StepRunsTheFrontCommand : Prop :=
  ∀ (s : State) (c : Instr) (rest : List Instr),
    (s.pending = c :: rest → step s = exec c { s with pending := rest }) ∧
    (s.pending = [] → (∃ t, step s = .next t ∧ t.pending = []) ∧
      (s.awake = true → s.pwr.xoLost = false → step s = .next (s.settle s.tick)) ∧
      (s.awake = false → step s = .next s))

/-- After reset the engine is in RUN with closed RAM, the boot ROM to come, stated register values, and both canonical forms
(R12, R326, R431, R469, R474, R488, R493, R497, R504, R522). Where a clause goes beyond these rules it is the model's choice
(log entry 2). -/
def Obligations.ResetState : Prop :=
  let s := State.reset
  s.pending = [] ∧ s.awake = true ∧ s.pwr.xoLost = false ∧ s.inRun = true ∧ s.ramOpen = false ∧
  s.bit MEMC_STATUS MEMC_STATUS_clearing = false ∧ s.skp.job = none ∧ s.jobs = [] ∧ s.answers = [] ∧ s.skp.rom = .idle ∧
  (∀ x, x ∈ statedResets → s.reg x.1 = x.2) ∧ s.mantelWf = true ∧ s.otpWf = true ∧
  ∀ n, (s.hearth n).pc = 0 ∧ (s.hearth n).npc = 1

/-- Every step of every state answers a next state, consumes one command, keeps the OTP's form, and clears no OTP bit (R469).
Where a clause goes beyond these rules it is the model's choice (log entries 1 and 130). -/
def Obligations.EveryStepKeepsOtpAndQueue : Prop :=
  ∀ s : State, ∃ t, step s = .next t ∧ t.pending = s.pending.tail ∧ (s.otpWf = true → t.otpWf = true) ∧ OtpKept s t ∧
    ∀ w, t.otpWord w ≠ s.otpWord w → s.pending.head? = some .otpProgramDone ∧ s.awake = true ∧ s.pwr.xoLost = false ∧
      ∃ d, s.skp.otpProg = some (w, d) ∧ t.otpWord w = s.otpWord w ||| d

/-- Encoding and decoding of Hearth instructions agree both ways, a word that decodes is the word of one well-formed
instruction (R228, R261, R262, R263, R268, R271, R273, R276, R279, R284, R289, R291). -/
def Obligations.HearthEncodingsAgree : Prop :=
  (∀ (i : Instr) (w : Word), i.wellFormed = true → encodeHearth i = some w → ∃ h, decodeHearth h w = some i) ∧
  (∀ (h : HearthId) (v : Word) (i : Instr), decodeHearth h v = some i → i.wellFormed = true ∧ encodeHearth i = some v) ∧
  ∀ (h : HearthId) x, x ∈ sampleWords h → decodeHearth h x.1 = some x.2
end

