-- ==== Sys2Proof/Laws/Bus.lean ====
section
/-! SUPPORT. The frame of the bus rows, where nothing of the block waits to go on by itself. -/

namespace Sys2Proof.Machine

theorem State.pump_empty (s : State) (h : s.jobs = []) : s.pump = s := by
  simp [State.pump, h, State.pumpN]

theorem State.debugSteps_quiet (s : State)
    (h : (List.finRange 192).all (fun h : HearthId => !((s.hearth h.val).stepping && (s.hearth h.val).stalled.isNone)) = true) :
    s.debugSteps = s := by
  unfold State.debugSteps
  have key : ∀ l : List HearthId, l.all (fun h => !((s.hearth h.val).stepping && (s.hearth h.val).stalled.isNone)) = true →
      l.foldl (fun s h => if (s.hearth h.val).stepping && (s.hearth h.val).stalled.isNone then s.hFetch h else s) s = s := by
    intro l
    induction l with
    | nil => intro _; rfl
    | cons a l ih =>
      intro hl
      simp only [List.all_cons, Bool.and_eq_true, Bool.not_eq_true'] at hl
      simp only [List.foldl_cons, hl.1]
      exact ih hl.2
  exact key _ h

/-- A boot ROM that waits for nothing does nothing. -/
theorem State.romWatch_still (s : State) (h : s.skp.rom.still = true) : s.romWatch = s := by
  unfold State.romWatch State.romResume
  cases hr : s.skp.rom <;> simp_all [RomSt.still]

/-- A bus row whose effect leaves nothing waiting is that effect and what the event controller makes of it. -/
theorem State.runBus_quiet (s : State) (f : State → State) (h : s.awake = true) (hq : (f s).quiet = true) :
    s.runBus f = .next (s.settle (f s)) := by
  simp only [State.quiet, Bool.and_eq_true, List.isEmpty_iff] at hq
  have h1 := State.pump_empty _ hq.1.1
  have h2 := State.debugSteps_quiet _ hq.2
  have h3 := State.romWatch_still _ hq.1.2
  simp [State.runBus, State.run_awake _ _ h, h1, h2, h3]

end Sys2Proof.Machine
end

