-- ==== Sys2Proof/Laws/Line.lean ====
section
/-! SUPPORT. What the codes of the Chimney's lanes and the input filters do, said once for each. -/

namespace Sys2Proof.Machine

/-- The scrambler gives one bit. -/
theorem scrambleBit_lt (h d : Nat) : scrambleBit h d < 2 := Nat.mod_lt _ (by decide)

/-- The scrambler's sum is its own inverse: a bit that went through it twice with the same history is itself. -/
theorem scrambleBit_twice (h d : Nat) : scrambleBit h (scrambleBit h d) = d % 2 := by
  unfold scrambleBit
  omega

/-- A receiver that starts with the sender's history finds the bits that were scrambled, and keeps the same history (R400). -/
theorem descramble_scramble (n h v : Nat) : descramble n h (scramble n h v).1 = (v % 2 ^ n, (scramble n h v).2) := by
  induction n generalizing h v with
  | zero => simp [descramble, scramble, Nat.mod_one]
  | succ n ih =>
    have hb := scrambleBit_lt h (v % 2)
    simp only [descramble, scramble]
    rw [show (scrambleBit h (v % 2) + 2 * (scramble n ((2 * h + scrambleBit h (v % 2)) % 2 ^ 31) (v / 2)).1) / 2 =
        (scramble n ((2 * h + scrambleBit h (v % 2)) % 2 ^ 31) (v / 2)).1 by omega,
      show (scrambleBit h (v % 2) + 2 * (scramble n ((2 * h + scrambleBit h (v % 2)) % 2 ^ 31) (v / 2)).1) % 2 =
        scrambleBit h (v % 2) by omega, ih, scrambleBit_twice]
    simp only [Prod.mk.injEq, and_true]
    rw [Nat.pow_succ', Nat.mod_mul]
    omega

/-- The scrambled bits fit their block. -/
theorem scramble_lt (n h v : Nat) : (scramble n h v).1 < 2 ^ n := by
  induction n generalizing h v with
  | zero => simp [scramble]
  | succ n ih =>
    have hb := scrambleBit_lt h (v % 2)
    have ho := ih ((2 * h + scrambleBit h (v % 2)) % 2 ^ 31) (v / 2)
    rw [show 2 ^ (n + 1) = 2 * 2 ^ n from Nat.pow_succ']
    simp only [scramble]
    omega

/-- Blocks that go over a lane arrive as they were sent (R399, R400). -/
theorem laneIn_laneOut (h : Nat) (l : List (Nat × Nat)) (hl : ∀ b ∈ l, b.1 < 4 ∧ b.2 < 2 ^ 64) : laneIn h (laneOut h l).1 = l := by
  induction l generalizing h with
  | nil => rfl
  | cons b l ih =>
    obtain ⟨⟨h1, h2⟩, hr⟩ := List.forall_mem_cons.1 hl
    have hs := scramble_lt 64 h b.2
    simp only [laneOut, laneIn, BitVec.toNat_ofNat]
    rw [show (b.1 % 4 + 4 * (scramble 64 h b.2).1) % 2 ^ 66 / 4 = (scramble 64 h b.2).1 by omega,
      show (b.1 % 4 + 4 * (scramble 64 h b.2).1) % 2 ^ 66 % 4 = b.1 by omega, descramble_scramble, Nat.mod_eq_of_lt h2, ih _ hr]

/-- Without a filter length a level counts in its first slot. -/
@[simp] theorem Filt.sample_direct (f : Filt) (accepted pin : Bool) : (f.sample 0 accepted pin).2 = pin := by
  unfold Filt.sample
  by_cases h : pin = accepted
  · simp [h]
  · by_cases h2 : f.pin = pin <;> simp [h, h2]

/-- A pin at the accepted level ends its count. -/
@[simp] theorem Filt.sample_back (f : Filt) (n : Nat) (pin : Bool) : f.sample n pin pin = (⟨pin, 0⟩, pin) := by simp [Filt.sample]

end Sys2Proof.Machine
end

