-- ==== Sys2Proof/Tests/Slice0.lean ====
section
/-! SUPPORT. The model's own tests: terms that the well-formedness check refuses, words written out from the encodings of 09
and 14, single steps with values from the spec, and for each statement states and operands that meet its hypotheses. -/

open Sys2Proof Sys2Proof.Machine

namespace Sys2Proof.Tests

set_option Elab.async false

/-- The RAMs are open: the clear is done. -/
def openRam (s : State) : State := s.setFld MEMC_STATUS MEMC_STATUS_clear_done 1

/-- After reset with the RAMs open and Hearth 1 running, changed by f, and then by k. -/
def hot (f : Hearth → Hearth) (k : State → State := id) : State :=
  k (((openRam State.reset).setFld (HRT_CTRL 1) HRT_CTRL_run 1).modHearth 1 f)

/-- The g registers of a list take its values. -/
def gs (l : List (Nat × Word)) (h : Hearth) : Hearth := l.foldl (fun h x => h.setG x.1 x.2) h

/-- The pointer-file registers of a list take its values. -/
def ps (l : List (Nat × Word)) (h : Hearth) : Hearth := l.foldl (fun h x => h.setP x.1 x.2) h

/-- STAT changed by f. -/
def st (f : Stat → Stat) (h : Hearth) : Hearth := { h with stat := f h.stat }

/-- In a trap handler. -/
def inTrap : Hearth → Hearth := st fun t => { t with trap := true }

/-- The number of resident windows. -/
def wres (k : Nat) : Hearth → Hearth := st fun t => { t with wres := k }

/-- Fields of registers take values. -/
def flds (l : List (Nat × Fld × Nat)) (s : State) : State := l.foldl (fun s x => s.setFld x.1 x.2.1 x.2.2) s

/-- After reset with fields of registers set. -/
def wr (l : List (Nat × Fld × Nat)) : State := flds l State.reset

/-- An AUDIO token of sample 0 and channel 0. -/
def tok0 : Token := ⟨.audio, 0, 0, 0⟩

/-- Hearth 1 a SUPERVISOR, and the Mantel open. -/
def sup (s : State) : State := openRam (s.setReg (SYS_HEARTH_PRIV 0) 2)

/-- Ball b is held. -/
def held (b : Nat) (x : Ball) (s : State) : State := s.setBall b x

/-- A token t at input p of router r, whose route entry for it is e. -/
def routed (r : Nat) (p : FPort) (t : Token) (e : Nat) : State :=
  (State.reset.setBuf false r p [⟨t, false, none⟩]).setRoute false r t.ctag e

/-- A servo without measurements. -/
def srv0 : Servo := ⟨0, [], 0, 0, 0, 0, none, none, none, none⟩

/-- Bytes of a memory from address a. -/
def cells (a : Nat) (l : List Byte) : Tab Byte := l.zipIdx.map fun x => (a + x.2, x.1)

/-- A Chimney packet with its CRC; the header from its bit 0, seq included. -/
def pk (typ : Byte) (hdr : Nat) (data : List Nat) : ChmPacket := (chmPortDefault 0).finish (mkPacket typ hdr data false)

/-- The line that carries a packet whole. -/
def ln (k : ChmPacket) : ChmLine := ⟨0, (laneOut 0 k.lane).1⟩

/-- A ring of two engines, this one engine 0, with port p UP and the fields l. -/
def upPort (p : Nat) (l : List (Nat × Fld × Nat)) : State :=
  wr ((CHM_CTRL, CHM_CTRL_xdim, 1) :: (CHM_P_STAT p, CHM_P_STAT_state, 2) :: l)

/-- Lane 7 runs loop 0, changed by f; fields l. -/
def lane7 (f : Lane → Lane) (l : List (Nat × Fld × Nat) := []) : State :=
  (wr ((BEL_LANE_CTRL 7, BEL_LANE_CTRL_run, 1) :: l)).modLane 7 fun o => f { o with run := some 0 }

/-- Hearth 0 runs, and the boot ROM may begin. -/
def bootState : State := openRam ((wr [(HRT_CTRL 0, HRT_CTRL_run, 1)]).setReg (SYS_HEARTH_PRIV 0) 1)

/-- The PCIe link is up. -/
def linked : State := wr [(HIF_PCIE_STAT, HIF_PCIE_STAT_link_up, 1)]

/-- Hearth 1, changed by f, waits with i for its access, and the answer is r. -/
def replied (i : Instr) (r : Reply) (f : Hearth → Hearth) : State :=
  { hot (fun h => { f h with stalled := some i, sent := true, bpSkip := true }) with answers := [(.load 1, r)] }

/-- The last token of the access x of Hearth 1 stands at router 2, whose edge has memory station 0. -/
def atStation (x : Access) (f : State → State) : State :=
  f (((openRam State.reset).setBuf true 2 .w [⟨⟨.move, 1, 0xE2, 0⟩, false, none⟩]).setMoves 1 [⟨0, x, none, true, .going 1⟩])

/-- The line that carries a packet up to its END. -/
def partLn (k : ChmPacket) : ChmLine := ⟨0, (laneOut 0 k.lane.dropLast).1⟩

/-- Port p of the Chimney is on, in block lock and state st, with the TRAIN of time 0 to be answered. -/
def training (p st : Nat) (meas : List Int) : State :=
  (wr [(CHM_CTRL, CHM_CTRL_xdim, 1), (CHM_CTRL, CHM_CTRL_en, 1), (CHM_P_CTRL p, CHM_P_CTRL_en, 1),
    (CHM_P_STAT p, CHM_P_STAT_state, st)]).modChmPort p fun c => { c with lock := true, sentAt := [0], meas := meas }

/-- Port 3 is UP, and slot 6080 of it goes on to slot 7 of port 1. -/
def onward : State :=
  { upPort 3 [] with chm := { State.reset.chm with mapAct := [(mapKey 3 false 6080, BitVec.ofNat 32 (2 + 2 ^ 14 + 7 * 2 ^ 16))] } }

/-! ### Ill-formed terms that the check refuses (R228, R261, R380) -/

theorem test_ill_macx_x : (Instr.macx 0 1 2 4 false).wellFormed = false := by decide
theorem test_ill_macx_rs : (Instr.macx 0 2 3 4 false).wellFormed = false := by decide
theorem test_ill_macd_x : (Instr.macd 0 3 2 4 false).wellFormed = false := by decide
theorem test_ill_macd_rt : (Instr.macd 0 2 2 5 false).wellFormed = false := by decide
theorem test_ill_mova : (Instr.mova 0 (.read 1 0 3)).wellFormed = false ∧ (Instr.mova 0 (.write 0 1 3)).wellFormed = false := by
  decide
theorem test_ill_ldp : (Instr.ldp 0 1 0 .w true).wellFormed = false := by decide
theorem test_ill_ldm_u : (Instr.ldm 0 2 1 0 .b32 true).wellFormed = false ∧ (Instr.ldm 0 2 1 0 .b64 true).wellFormed = false := by
  decide
theorem test_ill_ldm_odd : (Instr.ldm 0 3 1 0 .b64 false).wellFormed = false := by decide
theorem test_ill_stm_odd : (Instr.stm 0 3 1 0 .b64).wellFormed = false := by decide
theorem test_ill_rotm : (Instr.rotm 0 2 1 0 .b8).wellFormed = false ∧ (Instr.rotm 0 3 1 0 .b64).wellFormed = false := by decide
theorem test_ill_recv : (Instr.recv 0 1 1 0).wellFormed = false ∧ (Instr.peek 0 31 31 3 true).wellFormed = false := by decide
theorem test_ill_bfly : (Instr.bfly 0 1 1 3 0).wellFormed = false ∧ (Instr.bfly 0 1 2 3 3).wellFormed = false := by decide
theorem test_ill_sysw : (Instr.sysw 0 19 0).wellFormed = false ∧ (Instr.sysw 0 22 0).wellFormed = false := by decide
theorem test_ill_bel_memory : (Instr.belLd 0 12 false 0).wellFormed = false ∧ (Instr.belSt 0 8 false 128).wellFormed = false := by
  decide
theorem test_ill_bel_mac : (Instr.belMac 0 0 1 2).wellFormed = false ∧ (Instr.belMsu 0 8 9 2).wellFormed = false ∧
    (Instr.belMul 0 8 1 15).wellFormed = false := by decide
theorem test_ill_bel_mixed : (Instr.belAdd 0 0 8 1).wellFormed = false ∧ (Instr.belSub 0 8 8 1).wellFormed = false ∧
    (Instr.belMin 0 8 0 0).wellFormed = false ∧ (Instr.belMax 0 0 0 15).wellFormed = false := by decide
theorem test_ill_bel_shift : (Instr.belShl 0 8 8 40).wellFormed = false ∧ (Instr.belShr 0 0 8 0).wellFormed = false := by decide
theorem test_ill_bel_one : (Instr.belAbs 0 8 0).wellFormed = false ∧ (Instr.belNeg 0 0 8).wellFormed = false ∧
    (Instr.belClr 0 7).wellFormed = false ∧ (Instr.belMova 0 0 1 0).wellFormed = false := by decide
theorem test_ill_bel_block : (Instr.belBfn 0 8 8 1).wellFormed = false ∧ (Instr.belBfnE 0 0 1).wellFormed = false ∧
    (Instr.belBfx 0 0 1 2).wellFormed = false := by decide
theorem test_ill_bel_control : (Instr.belJz 0 12 0).wellFormed = false ∧ (Instr.belJn 0 15 0).wellFormed = false ∧
    (Instr.belLoop 0 (.reg 8) 4).wellFormed = false := by decide

/-! ### Words written field by field from the formats and tables of 09 and R380 -/

/-- The number of a list of (width, value) fields, the topmost field first. -/
def fields (l : List (Nat × Nat)) : Nat := l.foldl (fun n x => n * 2 ^ x.1 + x.2) 0

/-- Hearth 1's reading of a word given by its fields. -/
def reads (l : List (Nat × Nat)) (i : Option Instr) : Bool := decodeHearth 1 (BitVec.ofNat 32 (fields l)) == i

/-- ADD.s g3, g1, g2. -/
theorem test_word_add : reads [(6, 1), (5, 3), (5, 1), (5, 2), (5, 0), (1, 1), (1, 0), (4, 0)] (some (.add 1 3 1 2 true)) := by
  decide +kernel
/-- SEL g4, g1, g2, lt. -/
theorem test_word_sel : reads [(6, 1), (5, 4), (5, 1), (5, 2), (5, 16), (1, 0), (1, 0), (4, 3)] (some (.sel 1 4 1 2 .lt)) := by
  decide +kernel
/-- SHL.s g3, g1, #31. -/
theorem test_word_shl : reads [(6, 1), (5, 3), (5, 1), (5, 31), (5, 6), (1, 1), (1, 1), (4, 0)]
    (some (.shl 1 3 1 (.imm 31) true)) := by decide +kernel
/-- MOV m2, g7: class 1, index 2 in the rd field, and tp. -/
theorem test_word_mov : reads [(6, 1), (2, 1), (3, 2), (5, 7), (5, 0), (5, 18), (1, 0), (1, 0), (2, 0), (1, 1), (1, 0)]
    (some (.mov 1 (.toPtr 10 7))) := by decide +kernel
/-- CMPI g9, #−1. -/
theorem test_word_cmpi : reads [(6, 4), (5, 0), (5, 9), (16, 0xFFFF)] (some (.cmpi 1 9 0xFFFF)) := by decide +kernel
/-- MOVI l3, #5. -/
theorem test_word_movi_pointer : reads [(6, 7), (2, 3), (3, 3), (5, 0), (16, 5)] (some (.moviPointer 1 27 5)) := by decide +kernel
/-- MACD.f a2, g2, g4. -/
theorem test_word_macd : reads [(6, 8), (5, 0), (5, 2), (5, 4), (4, 4), (2, 2), (1, 1), (4, 0)] (some (.macd 1 2 2 4 true)) := by
  decide +kernel
/-- MOVA g5, a1, #2. -/
theorem test_word_mova : reads [(6, 8), (5, 5), (5, 0), (5, 0), (4, 6), (2, 1), (1, 0), (1, 0), (2, 2), (1, 0)]
    (some (.mova 1 (.read 5 1 2))) := by decide +kernel
/-- LDH.u g1, [g2 − 4]. -/
theorem test_word_ldh : reads [(6, 0x10), (5, 1), (5, 2), (2, 1), (1, 1), (13, 0x1FFC)] (some (.ldh 1 1 2 0x1FFC true)) := by
  decide +kernel
/-- LDP.b.u g6, p5. -/
theorem test_word_ldp : reads [(6, 0x12), (5, 6), (2, 0), (3, 5), (2, 0), (1, 1), (13, 0)] (some (.ldp 1 6 5 .b true)) := by
  decide +kernel
/-- STM.d g2, [g1 + 8]. -/
theorem test_word_stm : reads [(6, 0x15), (5, 2), (5, 1), (2, 3), (1, 0), (13, 8)] (some (.stm 1 2 1 8 .b64)) := by decide +kernel
/-- MOVE g3, g4, #256. -/
theorem test_word_move : reads [(6, 0x17), (5, 3), (5, 4), (8, 0), (8, 255)] (some (.move 1 3 4 255)) := by decide +kernel
/-- BC.q ne, 4095. -/
theorem test_word_bc : reads [(6, 0x21), (1, 1), (1, 0), (4, 2), (5, 0), (3, 0), (12, 4095)]
    (some (.bc 1 true false .ne 4095)) := by decide +kernel
/-- LOOPI #4095, 7. -/
theorem test_word_loopi : reads [(6, 0x27), (2, 0), (12, 4095), (12, 7)] (some (.loopi 1 4095 7)) := by decide +kernel
/-- POPL p7. -/
theorem test_word_popl : reads [(6, 0x29), (5, 0), (2, 0), (3, 7), (16, 0)] (some (.popl 1 7)) := by decide +kernel
/-- SENDT g1, g2, #0xABC, 2. -/
theorem test_word_sendt : reads [(6, 0x31), (5, 1), (5, 2), (4, 2), (12, 0xABC)] (some (.sendt 1 1 2 0xABC 2)) := by decide +kernel
/-- PEEK,w g1, g2, 3. -/
theorem test_word_peek : reads [(6, 0x33), (5, 1), (5, 2), (1, 0), (1, 1), (2, 3), (12, 0)] (some (.peek 1 1 2 3 true)) := by
  decide +kernel
/-- DIV.i g1, g2. -/
theorem test_word_div : reads [(6, 0x38), (5, 0), (5, 1), (5, 2), (5, 0), (6, 1)] (some (.div 1 true 1 2)) := by decide +kernel
/-- BFLY p1, p2, p3, #2. -/
theorem test_word_bfly : reads [(6, 0x39), (2, 0), (3, 1), (2, 0), (3, 2), (2, 0), (3, 3), (5, 1), (4, 0), (2, 2)]
    (some (.bfly 1 1 2 3 2)) := by decide +kernel
/-- SCL g1, g2, #−16. -/
theorem test_word_scl : reads [(6, 0x39), (5, 1), (5, 2), (5, 0), (5, 2), (1, 0), (5, 16)] (some (.scl 1 1 2 16)) := by decide +kernel
/-- ZAPPLY g1, #15. -/
theorem test_word_zapply : reads [(6, 0x3A), (5, 0), (5, 1), (5, 0), (5, 0), (2, 0), (4, 15)] (some (.zapply 1 1 15)) := by
  decide +kernel
/-- SYSW WSTOW. -/
theorem test_word_wstow : reads [(6, 0x3C), (5, 0), (5, 0), (10, 0), (1, 0), (5, 19)] (some (.wstow 1)) := by decide +kernel
/-- BALL.r g1, #7. -/
theorem test_word_ball : reads [(6, 0x3D), (5, 0), (5, 1), (1, 1), (7, 0), (8, 7)] (some (.ballR 1 1 7)) := by decide +kernel
/-- The zero word is reserved. -/
theorem test_word_zero : reads [] none := by decide +kernel
/-- NOT with its rt field not 0 is reserved. -/
theorem test_word_not : reads [(6, 1), (5, 1), (5, 2), (5, 1), (5, 5), (6, 0)] none := by decide +kernel
/-- An odd rd of a 64-bit LDM is reserved. -/
theorem test_word_ldm : reads [(6, 0x14), (5, 3), (5, 1), (2, 3), (1, 0), (13, 0)] none := by decide +kernel

/-- R380's own example: MAC a0, x1, x2. -/
theorem test_bel_mac : decodeBel 0x2C090000 = some (.mac 8 1 2) := by decide
/-- R380's own example: TICK. -/
theorem test_bel_tick : decodeBel 0xC0000000 = some .tick := by decide
/-- JMP 1023. -/
theorem test_bel_jmp : decodeBel (BitVec.ofNat 32 (fields [(5, 0x14), (4, 0), (13, 0), (10, 1023)])) = some (.jmp 1023) := by
  decide +kernel
/-- LOOP #2047, 9. -/
theorem test_bel_loop : decodeBel (BitVec.ofNat 32 (fields [(5, 0x17), (4, 15), (11, 2047), (2, 0), (10, 9)])) =
    some (.loop (.imm 2047) 9) := by decide +kernel
/-- LD a2, [127 + x7]. -/
theorem test_bel_ld : decodeBel (BitVec.ofNat 32 (fields [(5, 1), (4, 10), (1, 1), (12, 0), (10, 127)])) = some (.ld 10 true 127) := by
  decide +kernel
/-- IN a3 at shift 16 from port 5. -/
theorem test_bel_in : decodeBel (BitVec.ofNat 32 (fields [(5, 3), (4, 11), (5, 16), (10, 0), (8, 5)])) = some (.inp 3 16 5) := by
  decide +kernel
/-- BFN.e x1, a1. -/
theorem test_bel_bfn : decodeBel (BitVec.ofNat 32 (fields [(5, 0x12), (4, 1), (4, 9), (4, 15), (15, 0)])) = some (.bfnE 1 9) := by
  decide +kernel
/-- Opcode 0 and opcode 0x19 are reserved. -/
theorem test_bel_reserved : decodeBel 0 = none ∧ decodeBel 0xC8000000 = none := by decide

/-! ### One step each -/

/-- The state after a command; the state as it was when the command stops. -/
def after (i : Instr) (s : State) : State :=
  match exec i s with
  | .next t => t
  | _ => s

/-- Hearth 1 after an instruction with registers l. -/
def ran (i : Instr) (l : List (Nat × Word)) : Hearth := (after i (hot (gs l))).hearth 1

/-- Register g3 of Hearth 1, and its z, n, c and v, after an instruction with registers l. -/
def alu (i : Instr) (l : List (Nat × Word)) : Word × List Bool :=
  let o := ran i l
  (o.getG 3, [o.stat.z, o.stat.n, o.stat.c, o.stat.v])

/-- R266: the sum wraps, and v reports it. -/
theorem test_add_wraps : alu (.add 1 3 1 2 false) [(1, 0x7FFFFFFF), (2, 1)] = (0x80000000, [false, true, false, true]) := by
  decide +kernel
/-- R268: ADD.s takes the nearer bound and sets sat. -/
theorem test_add_saturates : alu (.add 1 3 1 2 true) [(1, 0x7FFFFFFF), (2, 1)] = (0x7FFFFFFF, [false, false, false, true]) ∧
    (ran (.add 1 3 1 2 true) [(1, 0x7FFFFFFF), (2, 1)]).stat.sat = true := by decide +kernel
/-- R266: SUB sets c when there is no borrow. -/
theorem test_sub_no_borrow : alu (.sub 1 3 1 2 false) [(1, 5), (2, 5)] = (0, [true, false, true, false]) := by decide +kernel
/-- R267: ROL by 32 leaves the value, and c is bit 0. -/
theorem test_rol_32 : alu (.rol 1 3 1 (.reg 2)) [(1, 0x80000001), (2, 32)] = (0x80000001, [false, true, true, false]) := by
  decide +kernel
/-- R267: SHR by 32 gives 0, and c is bit 31. -/
theorem test_shr_32 : alu (.shr 1 3 1 (.reg 2)) [(1, 0x80000000), (2, 32)] = (0, [true, false, true, false]) := by decide +kernel
/-- R267: SAR by 63 gives copies of bit 31. -/
theorem test_sar_63 : alu (.sar 1 3 1 (.reg 2)) [(1, 0x80000000), (2, 63)] = (0xFFFFFFFF, [false, true, true, false]) := by
  decide +kernel
/-- R268: ABS of the most negative value wraps with v. -/
theorem test_abs_min : alu (.abs 1 3 1 false) [(1, 0x80000000)] = (0x80000000, [false, true, false, true]) := by decide +kernel
/-- R266: MIN.u compares unsigned, MIN signed. -/
theorem test_min : (alu (.min 1 3 1 2 true) [(1, 0xFFFFFFFF), (2, 1)]).1 = 1 ∧
    (alu (.min 1 3 1 2 false) [(1, 0xFFFFFFFF), (2, 1)]).1 = 0xFFFFFFFF := by decide +kernel
/-- R266: CLS of 0 is 31. -/
theorem test_cls : (alu (.cls 1 3 1) []).1 = 31 ∧ (alu (.clz 1 3 1) []).1 = 32 := by decide +kernel
/-- R262: a write to g0 is discarded. -/
theorem test_g0 : ((ran (.movi 1 0 5) []).getG 0) = 0 := by decide +kernel
/-- R279: BAL stores PC + 2. -/
theorem test_bal : ((ran (.bal 1 false false 3 100) []).getG 3) = 2 := by decide +kernel
/-- R281: CALL with five resident windows takes WOVF, cause 1. -/
theorem test_call_wovf : ((after (.call 1 false 100) (hot (wres 5))).hearth 1).xcause = 1 ∧
    ((after (.call 1 false 100) (hot (wres 5))).hearth 1).pc = 0xFC0 := by decide +kernel
/-- R66: a free ball is granted, and the answer is bit 31 with the reader's MID. -/
theorem test_ball_granted : (tabGet replyDefault (after (.ballAcquire 0x300 5) State.reset).replies 0x300).data = 0x80000300 := by
  decide +kernel
/-- 08, worked example: the image of one loop entry at depth 1. -/
theorem test_loop_image : (loopImage [⟨0x210, 0x218, 37, false, 4⟩]).take 4 = [1, 0x08218210, 0x25, 0] := by decide
/-- 11, Example: the bytes that a 32-bit read at 0x12345 takes from its word. -/
theorem test_rotate : takeLanes 0x1716151413121110 0x12345 4 = 0x10171615 := by decide
/-- 14, example of R379: exponent 1 and mantissa 16,384. -/
theorem test_block_float : bfFit 0x40000000 = 1 ∧ bfMant 0x40000000 1 = 16384 := by decide

/-- Check values of the two CRCs over the digits 1 to 9 (IEEE 802.3, and Castagnoli's polynomial). -/
theorem test_crcs : crc32 ((List.range 9).map fun i => BitVec.ofNat 8 (0x31 + i)) = 0xCBF43926 ∧
    crc32c ((List.range 9).map fun i => BitVec.ofNat 8 (0x31 + i)) = 0xE3069283 := by decide +kernel

/-- A subframe's parity is even, and the 4B5B code of 1000 is 10010 (AES3, AES10). -/
theorem test_subframe : parityOf 28 (subframeBits 0x123456 true false true) = 0 ∧
    (codeBits 1).take 5 = [true, false, false, true, false] ∧ (codeBits 1).length = 40 := by decide +kernel

/-- With a filter length of 1 a level counts in its second slot, and a glitch of one slot does not (R354). -/
theorem test_filter : (filtReset.sample 1 false true).2 = false ∧ ((filtReset.sample 1 false true).1.sample 1 false true).2 = true ∧
    ((filtReset.sample 1 false true).1.sample 1 false false).1 = filtReset := by decide

/-- A Hearth can stand with the answer to its access: for the instructions whose statements say what they do then. -/
theorem met_answered :
    answered (replied (.ldm 1 2 1 0 .b64 false) ⟨.ok, 5⟩ id) 1 (.ldm 1 2 1 0 .b64 false) ⟨.ok, 5⟩ [] ∧
    answered (sup (replied (.rotm 1 2 1 0 .b32) ⟨.ok, 5⟩ (gs [(1, 6)]))) 1 (.rotm 1 2 1 0 .b32) ⟨.ok, 5⟩ [] ∧
    answered (replied (.ball 1 2 3 9) ⟨.ok, 0x80000001⟩ id) 1 (.ball 1 2 3 9) ⟨.ok, 0x80000001⟩ [] ∧
    answered (replied (.ballR 1 3 9) ⟨.ok, 0⟩ id) 1 (.ballR 1 3 9) ⟨.ok, 0⟩ [] := by
  unfold answered; dsimp only; and_intros <;> decide +kernel

/-! ### Witnesses: each statement's hypotheses can be met together -/

theorem met_ArithmeticAndLogic :
  (∃ (n : HearthId) (s : State),
    s.ready n.val false = true) :=
  ⟨1, hot id, by decide⟩

theorem met_MovesSelectAndShifts :
  (∃ (n : HearthId) (s : State) (c : Cond),
    let o := s.hearth n.val
    s.ready n.val false = true ∧ condTrue c o.stat) ∧
  (∃ (n : HearthId) (s : State) (c : Cond),
    let o := s.hearth n.val
    s.ready n.val false = true ∧ (¬condTrue c o.stat)) :=
  ⟨⟨1, hot id, .al, by unfold condTrue; dsimp only; decide⟩,
   ⟨1, hot id, .eq, by unfold condTrue; dsimp only; decide⟩⟩

theorem met_AccumulatorsComputedAndRead :
  (∃ (n : HearthId) (s : State) (x : AccNo) (rs : GReg) (rt : GReg) (f : Bool),
    s.ready n.val false = true ∧ (Instr.macx n x rs rt f).wellFormed = true) ∧
  (∃ (n : HearthId) (s : State) (k : BitVec 5),
    s.ready n.val false = true ∧ 0 ≤ k.toInt) ∧
  (∃ (n : HearthId) (s : State) (k : BitVec 5),
    s.ready n.val false = true ∧ k.toInt < 0) :=
  ⟨⟨1, hot id, 0, 2, 4, false, by decide⟩,
   ⟨1, hot id, 15, by decide⟩,
   ⟨1, hot id, 16, by decide⟩⟩

theorem met_LocalMemoryAccess :
  (∃ (n : HearthId) (s : State) (ra : GReg) (off : BitVec 13) (v : Nat),
    let o := s.hearth n.val
    let a := (o.getG ra.val + off.signExtend 32).toNat
    s.ready n.val false = true ∧ noWatch s n.val ∧ loadFinds o a .b v) ∧
  (∃ (n : HearthId) (s : State) (ra : GReg) (off : BitVec 13) (v : Nat),
    let o := s.hearth n.val
    let a := (o.getG ra.val + off.signExtend 32).toNat
    s.ready n.val false = true ∧ noWatch s n.val ∧ loadFinds o a .h v) ∧
  (∃ (n : HearthId) (s : State) (ra : GReg) (off : BitVec 13) (v : Nat),
    let o := s.hearth n.val
    let a := (o.getG ra.val + off.signExtend 32).toNat
    s.ready n.val false = true ∧ noWatch s n.val ∧ loadFinds o a .w v) ∧
  (∃ (n : HearthId) (s : State) (rd : GReg) (i : PtrNo) (sz : LocSize) (u : Bool) (v : Nat),
    let o := s.hearth n.val
    s.ready n.val false = true ∧ noWatch s n.val ∧ loadFinds o (o.getP i.val).toNat sz v ∧
        (Instr.ldp n rd i sz u).wellFormed = true) ∧
  (∃ (n : HearthId) (s : State) (ra : GReg) (off : BitVec 13),
    let o := s.hearth n.val
    let a := (o.getG ra.val + off.signExtend 32).toNat
    s.ready n.val false = true ∧ noWatch s n.val ∧ (s.hearth n.val).sb.length < 4 ∧ a < 0x8000 ∧ a % 2 = 0) ∧
  (∃ (n : HearthId) (s : State) (ra : GReg) (off : BitVec 13),
    let o := s.hearth n.val
    let a := (o.getG ra.val + off.signExtend 32).toNat
    s.ready n.val false = true ∧ noWatch s n.val ∧ (s.hearth n.val).sb.length < 4 ∧ a < 0x8000 ∧ a % 4 = 0) ∧
  (∃ (n : HearthId) (s : State) (i : PtrNo) (sz : LocSize),
    let o := s.hearth n.val
    let b := (o.getP i.val).toNat
    s.ready n.val false = true ∧ noWatch s n.val ∧ (s.hearth n.val).sb.length < 4 ∧ b < 0x8000 ∧ b % locBytes sz = 0) ∧
  (∃ (n : HearthId) (s : State),
    s.awake = true ∧ (s.hearth n.val).sb = []) ∧
  (∃ (n : HearthId) (s : State) (e : SbEnt) (rest : List SbEnt),
    s.awake = true ∧ (s.hearth n.val).sb = e :: rest ∧ (e.size = .w ∨ (s.hearth n.val).wordErr e.addr = 0)) ∧
  (∃ (n : HearthId) (s : State) (e : SbEnt) (rest : List SbEnt),
    s.awake = true ∧ (s.hearth n.val).sb = e :: rest ∧ e.size ≠ .w ∧ (s.hearth n.val).wordErr e.addr = 2 ∧
        (s.hearth n.val).imprecise = none) :=
  ⟨⟨1, hot (gs [(1, 0x7FFF)]), 1, 0, 0, by unfold noWatch loadFinds; exact ⟨by decide, by decide, by decide,
      .inr (.inr (by decide))⟩⟩,
   ⟨1, hot fun h => { gs [(1, 0x7FFE)] h with sb := [⟨0x7FFE, .h, 5⟩] }, 1, 0, 5,
       by unfold noWatch loadFinds; exact ⟨by decide, by decide, by decide,
       .inr (.inl ⟨by decide, ⟨0x7FFE, .h, 5⟩, by decide⟩)⟩⟩,
   ⟨1, hot (gs [(1, 0x83FC)]), 1, 0, 0, by unfold noWatch loadFinds; exact ⟨by decide, by decide, by decide,
       .inl (by decide)⟩⟩,
   ⟨1, hot (ps [(0, 0x7FFC)]), 1, 0, .w, false, 0, by unfold noWatch loadFinds; exact ⟨by decide, by decide,
       ⟨by decide, .inr (.inr (by decide))⟩, by decide⟩⟩,
   ⟨1, hot (gs [(1, 0x7FFE)]), 1, 0, by unfold noWatch; dsimp only; decide⟩,
   ⟨1, hot (gs [(1, 0x7FFC)]), 1, 0, by unfold noWatch; dsimp only; decide⟩,
   ⟨1, hot (ps [(0, 0x7FFC)]), 0, .w, by unfold noWatch; dsimp only; decide⟩,
   ⟨1, hot (gs [(1, 0x7FFE)]), by decide⟩,
   ⟨1, hot fun h => { h with sb := [⟨0x7FFF, .b, 1⟩] }, ⟨0x7FFF, .b, 1⟩, [], by decide⟩,
   ⟨1, hot fun h => { h with sb := [⟨0, .h, 1⟩], ramErr := [(0, 2)] }, ⟨0, .h, 1⟩, [], by decide⟩⟩

theorem met_ControlFlow :
  (∃ (n : HearthId) (s : State) (c : Cond),
    let o := s.hearth n.val
    s.ready n.val true = true ∧ condTrue c o.stat) ∧
  (∃ (n : HearthId) (s : State) (c : Cond),
    let o := s.hearth n.val
    s.ready n.val true = true ∧ (¬condTrue c o.stat)) ∧
  (∃ (n : HearthId) (s : State),
    let o := s.hearth n.val
    s.ready n.val true = true ∧ o.stat.wres ≠ 5) ∧
  (∃ (n : HearthId) (s : State),
    let o := s.hearth n.val
    s.ready n.val true = true ∧ o.stat.wres ≠ 1) ∧
  (∃ (h : Hearth) (pc : Nat) (e : LoopEnt),
    let ends (e : LoopEnt) : Prop := e.stop = pc ∧ e.trap = h.stat.trap ∧ e.frame = h.stat.frame
    (∀ x ∈ h.loops.head?, ¬ends x)) ∧
  (∃ (h : Hearth) (pc : Nat) (e : LoopEnt) (rest : List LoopEnt),
    let ends (e : LoopEnt) : Prop := e.stop = pc ∧ e.trap = h.stat.trap ∧ e.frame = h.stat.frame
    h.loops = e :: rest ∧ ends e ∧ 0 < e.left) ∧
  (∃ (h : Hearth) (pc : Nat) (e : LoopEnt) (rest : List LoopEnt),
    let ends (e : LoopEnt) : Prop := e.stop = pc ∧ e.trap = h.stat.trap ∧ e.frame = h.stat.frame
    h.loops = e :: rest ∧ ends e ∧ e.left = 0) :=
  ⟨⟨1, hot id, .al, by unfold condTrue; dsimp only; decide⟩,
   ⟨1, hot id, .eq, by unfold condTrue; dsimp only; decide⟩,
   ⟨1, hot id, by dsimp only; decide⟩,
   ⟨1, hot (wres 2), by dsimp only; decide⟩,
   ⟨{ hearthReset with loops := [⟨1, 3, 1, true, 0⟩] }, 3, ⟨1, 3, 1, true, 0⟩, by dsimp only; decide⟩,
   ⟨{ hearthReset with loops := [⟨1, 3, 1, false, 0⟩] }, 3, ⟨1, 3, 1, false, 0⟩, [], by dsimp only; decide⟩,
   ⟨{ hearthReset with loops := [⟨1, 3, 0, false, 0⟩] }, 3, ⟨1, 3, 0, false, 0⟩, [], by dsimp only; decide⟩⟩

theorem met_HardwareLoopsAndImages :
  (∃ (n : HearthId) (s : State) (rs : GReg) (stop : Fin 4096),
    let o := s.hearth n.val
    let c := (o.getG rs.val).toNat
    s.ready n.val true = true ∧ o.pc < stop.val ∧ c ≠ 0 ∧ o.loops.length < 4) ∧
  (∃ (n : HearthId) (s : State) (rs : GReg) (stop : Fin 4096),
    let o := s.hearth n.val
    let c := (o.getG rs.val).toNat
    s.ready n.val true = true ∧ o.pc < stop.val ∧ c = 0) ∧
  (∃ (n : HearthId) (s : State) (count : Fin 4096) (stop : Fin 4096),
    let o := s.hearth n.val
    s.ready n.val true = true ∧ o.pc < stop.val ∧ count.val ≠ 0 ∧ o.loops.length < 4) ∧
  (∃ (n : HearthId) (s : State) (count : Fin 4096) (stop : Fin 4096),
    let o := s.hearth n.val
    s.ready n.val true = true ∧ o.pc < stop.val ∧ count.val = 0) ∧
  (∃ (n : HearthId) (s : State) (i : PtrNo),
    let o := s.hearth n.val
    let p := o.getP i.val
    s.ready n.val false = true ∧ noWatch s n.val ∧ o.sb = [] ∧ o.getP (24 + i.val) = 0 ∧ o.getP (8 + i.val) = 4 ∧
        p.toNat % 4 = 0 ∧ p.toNat + 36 ≤ 0x8000) ∧
  (∃ (n : HearthId) (s : State) (i : PtrNo),
    let o := s.hearth n.val
    let back (p : Word) : Word := preMod p (o.getP (8 + i.val)) (o.getP (16 + i.val)) (o.getP (24 + i.val))
    let word (p : Word) : Word := BitVec.ofNat 32 (o.ramBytes p.toNat 4)
    let at' (j : Nat) : Word := Nat.repeat back j (o.getP i.val)
    let p := o.getP i.val
    let sound (p : Word) : Prop := p.toNat % 4 = 0 ∧ p.toNat < 0x8000 ∧ o.wordErr p.toNat = 0
    s.ready n.val false = true ∧ noWatch s n.val ∧ o.sb = [] ∧ (∀ j, 1 ≤ j → j ≤ 9 → sound (at' j)) ∧
        (word (at' 9)).toNat % 8 ≤ 4) :=
  ⟨⟨1, hot fun h => { gs [(1, 1)] h with loops := List.replicate 3 ⟨0, 9, 1, true, 0⟩ }, 1, 1, by dsimp only; decide⟩,
   ⟨1, hot id, 1, 1, by dsimp only; decide⟩,
   ⟨1, hot id, 4095, 4095, by dsimp only; decide⟩,
   ⟨1, hot id, 0, 1, by dsimp only; decide⟩,
   ⟨1, hot (ps [(0, 0x7FDC), (8, 4)]), 0, by unfold noWatch; dsimp only; decide⟩,
   ⟨1, hot (ps [(0, 36), (8, 4)]), 0, by unfold noWatch; exact ⟨by decide, by decide, by decide,
       fun j h1 h9 => by { have h : j = 1 ∨ j = 2 ∨ j = 3 ∨ j = 4 ∨ j = 5 ∨ j = 6 ∨ j = 7 ∨ j = 8 ∨ j = 9 := (by omega); rcases h with rfl | rfl | rfl | rfl | rfl | rfl | rfl | rfl | rfl <;> decide }, by decide⟩⟩⟩

theorem met_TrapsAndReturns :
  (∃ (n : HearthId) (s : State),
    let o := s.hearth n.val
    s.ready n.val true = true ∧ o.stat.trap = true) ∧
  (∃ (n : HearthId) (s : State),
    let o := s.hearth n.val
    s.ready n.val true = true ∧ o.stat.trap = false ∧ o.stat.wres ≠ 1) ∧
  (∃ (n : HearthId) (s : State),
    let o := s.hearth n.val
    s.ready n.val true = true ∧ o.stat.trap = false ∧ o.stat.wres = 1) ∧
  (∃ (n : HearthId) (s : State),
    let o := s.hearth n.val
    s.ready n.val true = true ∧ o.stat.trap = false ∧ o.stat.wres = 5) ∧
  (∃ (n : HearthId) (s : State) (t : Fin 4096),
    let o := s.hearth n.val
    s.ready n.val true = true ∧ o.stat.trap = false ∧ t.val ≤ o.pc) ∧
  (∃ (n : HearthId) (s : State) (t : Fin 4096),
    let o := s.hearth n.val
    s.ready n.val true = true ∧ o.stat.trap = false ∧ o.pc < t.val ∧ t.val ≠ 0 ∧ o.loops.length = 4) ∧
  (∃ (n : HearthId) (s : State) (nr : Fin 32),
    let o := s.hearth n.val
    s.ready n.val false = true ∧ o.stat.trap = false ∧ 24 ≤ nr.val) :=
  ⟨⟨1, hot inTrap, by dsimp only; decide⟩,
   ⟨1, hot (wres 2), by dsimp only; decide⟩,
   ⟨1, hot id, by dsimp only; decide⟩,
   ⟨1, hot (wres 5), by dsimp only; decide⟩,
   ⟨1, hot fun h => { h with pc := 4095, npc := 0 }, 4095, by dsimp only; decide⟩,
   ⟨1, hot fun h => { h with loops := List.replicate 4 ⟨0, 9, 1, true, 0⟩ }, 1, by dsimp only; decide⟩,
   ⟨1, hot id, 24, by dsimp only; decide⟩⟩

theorem met_TrapsBeforeAndAroundInstructions :
  (∃ (n : HearthId) (s : State) (w : Word),
    let o := s.hearth n.val
    s.ready n.val false = true ∧ s.quiet = true ∧ o.stat.trap = false ∧ decodeHearth n w = none) ∧
  (∃ (n : HearthId) (s : State) (x : AccNo) (rs : GReg) (rt : GReg) (f : Bool),
    let o := s.hearth n.val
    s.ready n.val false = true ∧ o.stat.trap = false ∧ (Instr.macx n x rs rt f).wellFormed = false) ∧
  (∃ (n : HearthId) (s : State),
    let o := s.hearth n.val
    s.ready n.val true = true ∧ o.stat.trap = true) ∧
  (∃ (n : HearthId) (s : State),
    let o := s.hearth n.val
    s.awake = true ∧ s.executes n.val = true ∧ s.running n.val = true ∧ o.stat.ie = true ∧ o.stat.trap = false ∧
        s.irqPend n.val &&& s.reg (HRT_IRQ_EN n.val) ≠ 0 ∧ o.imprecise = none ∧ o.stalled = none ∧ o.stat.wres ≠ 5) ∧
  (∃ (n : HearthId) (s : State),
    let o := s.hearth n.val
    s.awake = true ∧ s.executes n.val = true ∧ s.running n.val = true ∧ o.stat.ie = true ∧ o.stat.trap = false ∧
        s.irqPend n.val &&& s.reg (HRT_IRQ_EN n.val) ≠ 0 ∧ o.imprecise = none ∧ o.stalled = none ∧ o.stat.wres = 5) ∧
  (∃ (n : HearthId) (s : State) (a : Nat) (r : Option Resp),
    let o := s.hearth n.val
    s.awake = true ∧ s.executes n.val = true ∧ o.sent = false ∧ o.stat.trap = false ∧ o.wpHit = none ∧
        o.stepping = false ∧ o.haltDue = false ∧ (o.bpSkip = false → s.breakpoint n.val o.pc = none) ∧
        o.imprecise = some (a, r)) ∧
  (∃ (n : HearthId) (s : State),
    s.awake = true ∧ s.pwr.xoLost = false ∧ s.running n.val = true ∧ s.fld (HRT_WDOG n.val) HRT_WDOG_limit ≠ 0 ∧
        s.fld (HRT_WDOG n.val) HRT_WDOG_limit ≤ s.fld (HRT_WDOG n.val) HRT_WDOG_count) :=
  ⟨⟨1, hot id, 0xFFFFFFFF, by dsimp only; decide⟩,
   ⟨1, hot id, 1, 1, 1, false, by dsimp only; decide⟩,
   ⟨1, hot inTrap, by dsimp only; decide⟩,
   ⟨1, hot (st fun t => { t with ie := true }) fun s => (s.setReg (HRT_IRQ_EN 1) 0xFFFFFFFF).setReg (HRT_IRQ_PEND 1) 2,
       by dsimp only; decide⟩,
   ⟨1, hot (st fun t => { t with ie := true, wres := 5 }) fun s => (s.setReg (HRT_IRQ_EN 1) 0xFFFFFFFF).setReg (HRT_IRQ_PEND 1) 2, by dsimp only; decide⟩,
   ⟨1, hot fun h => { h with imprecise := some (8, none) }, 8, none, by dsimp only; decide⟩,
   ⟨1, hot id (flds [(HRT_WDOG 1, HRT_WDOG_limit, 1), (HRT_WDOG 1, HRT_WDOG_count, 1)]), by decide⟩⟩

theorem met_WaitsFenceAndNop :
  (∃ (n : HearthId) (s : State) (k : Nat),
    let o := s.hearth n.val
    s.ready n.val false = true ∧ s.paceWaits n.val = false ∧ o.latch = some k ∧ o.armed = none ∧ o.zcDue = false) ∧
  (∃ (n : HearthId) (s : State),
    let o := s.hearth n.val
    s.ready n.val false = true ∧ s.paceWaits n.val = false ∧ o.latch = none) ∧
  (∃ (n : HearthId) (s : State),
    let o := s.hearth n.val
    s.ready n.val false = true ∧ o.sb = [] ∧ s.drained n.val = true) ∧
  (∃ (n : HearthId) (s : State),
    let o := s.hearth n.val
    s.ready n.val false = true ∧ (o.sb ≠ [] ∨ s.drained n.val = false)) :=
  ⟨⟨1, hot fun h => { h with latch := some 7 }, 7, by dsimp only; decide⟩,
   ⟨1, hot id, by dsimp only; decide⟩,
   ⟨1, hot id, by dsimp only; decide⟩,
   ⟨1, hot fun h => { h with sb := [⟨0, .w, 0⟩] }, by dsimp only; decide⟩⟩

theorem met_ArmedSwapAtWaits :
  (∃ (n : HearthId) (s : State) (k : Nat) (N : Nat) (window : Nat),
    let o := s.hearth n.val
    let late (g : Nat) := (g + 256 - N % 256) % 256
    s.ready n.val false = true ∧ o.armed = some (N, window) ∧ o.zcDue = false ∧ s.paceOn n.val = false ∧
        o.latch = some k ∧ late (k % 256) < 128) ∧
  (∃ (n : HearthId) (s : State) (k : Nat) (N : Nat) (window : Nat),
    let o := s.hearth n.val
    let late (g : Nat) := (g + 256 - N % 256) % 256
    s.ready n.val false = true ∧ o.armed = some (N, window) ∧ o.zcDue = false ∧ s.paceOn n.val = false ∧
        o.latch = some k ∧ 128 ≤ late (k % 256)) ∧
  (∃ (n : HearthId) (s : State) (rd : GReg) (rm : GReg) (N : Nat) (window : Nat) (q : QueueNo) (tok : Token)
      (rest : List Token),
    let o := s.hearth n.val
    let late (g : Nat) := (g + 256 - N % 256) % 256
    s.ready n.val false = true ∧ o.armed = some (N, window) ∧ o.zcDue = false ∧ s.paceOn n.val = false ∧
        o.queue q.val = tok :: rest ∧ tok.kind = .audio ∧ tok.stag < 256 ∧ (rd ≠ rm ∨ rd.val = 0) ∧ late tok.stag < 128) ∧
  (∃ (n : HearthId) (s : State) (rd : GReg) (rm : GReg) (N : Nat) (window : Nat) (q : QueueNo) (tok : Token)
      (rest : List Token),
    let o := s.hearth n.val
    let late (g : Nat) := (g + 256 - N % 256) % 256
    s.ready n.val false = true ∧ o.armed = some (N, window) ∧ o.zcDue = false ∧ s.paceOn n.val = false ∧
        o.queue q.val = tok :: rest ∧ tok.kind = .audio ∧ tok.stag < 256 ∧ (rd ≠ rm ∨ rd.val = 0) ∧ 128 ≤ late tok.stag) :=
  ⟨⟨1, hot fun h => { h with armed := some (0xFF, 1), latch := some 0x17E }, 0x17E, 0xFF, 1, by dsimp only; decide⟩,
   ⟨1, hot fun h => { h with armed := some (0xFF, 1), latch := some 0x17F }, 0x17F, 0xFF, 1, by dsimp only; decide⟩,
   ⟨1, hot fun h => { h with armed := some (3, 0), q := [(0, [{ tok0 with stag := 130 }])] }, 1, 2, 3, 0, 0,
       { tok0 with stag := 130 }, [], by dsimp only; decide⟩,
   ⟨1, hot fun h => { h with armed := some (3, 0), q := [(3, [{ tok0 with stag := 131 }])] }, 1, 2, 3, 0, 3,
       { tok0 with stag := 131 }, [], by dsimp only; decide⟩⟩

theorem met_TokensSentAndReceived :
  (∃ (n : HearthId) (s : State) (kind : Fin 16),
    let o := s.hearth n.val
    let gate := s.bit (HRT_FENCE n.val) HRT_FENCE_gate
    s.ready n.val false = true ∧ (kind.val = 0 ∨ kind.val = 2) ∧ gate = false ∧ o.out.length < 8) ∧
  (∃ (n : HearthId) (s : State) (kind : Fin 16),
    let o := s.hearth n.val
    let gate := s.bit (HRT_FENCE n.val) HRT_FENCE_gate
    s.ready n.val false = true ∧ (kind.val = 0 ∨ kind.val = 2) ∧ (gate = true ∨ 8 ≤ o.out.length)) ∧
  (∃ (n : HearthId) (s : State) (kind : Fin 16),
    let o := s.hearth n.val
    s.ready n.val false = true ∧ kind.val ≠ 0 ∧ kind.val ≠ 2 ∧ o.stat.trap = false) ∧
  (∃ (n : HearthId) (s : State) (rd : GReg) (rm : GReg) (q : QueueNo) (tok : Token) (rest : List Token),
    let o := s.hearth n.val
    s.ready n.val false = true ∧ (rd ≠ rm ∨ rd.val = 0) ∧ s.paceQueue n.val q.val = false ∧ o.armed = none ∧
        o.zcDue = false ∧ o.queue q.val = tok :: rest) ∧
  (∃ (n : HearthId) (s : State) (rd : GReg) (rm : GReg) (q : QueueNo),
    let o := s.hearth n.val
    s.ready n.val false = true ∧ (rd ≠ rm ∨ rd.val = 0) ∧ s.paceQueue n.val q.val = false ∧ o.queue q.val = []) :=
  ⟨⟨1, hot fun h => { h with out := List.replicate 7 tok0 }, 2, by dsimp only; decide⟩,
   ⟨1, hot fun h => { h with out := List.replicate 8 tok0 }, 0, by dsimp only; decide⟩,
   ⟨1, hot id, 1, by dsimp only; decide⟩,
   ⟨1, hot fun h => { h with q := [(0, [tok0])] }, 0, 0, 0, tok0, [], by dsimp only; decide⟩,
   ⟨1, hot id, 1, 2, 0, by dsimp only; decide⟩⟩

theorem met_StalledInstructionsGoOn :
  (∃ (n : HearthId) (s : State),
    let o := s.hearth n.val
    s.awake = true ∧ s.quiet = true ∧ o.stalled = none) ∧
  (∃ (n : HearthId) (s : State) (rs : GReg) (ctag : Fin 4096) (kind : Fin 16),
    let o := s.hearth n.val
    s.awake = true ∧ s.quiet = true ∧ s.executes n.val = true ∧ o.imprecise = none ∧ o.bpSkip = true ∧
        o.stat.annul = false ∧ o.wpHit = none ∧ o.stepping = false ∧ o.haltDue = false ∧
        tabGet falseAt o.progBad o.pc = false ∧ (o.atLoopEnd = false ∨ o.inSlot = false) ∧
        o.stalled = some (.send n rs ctag kind) ∧ (kind.val = 0 ∨ kind.val = 2) ∧
        s.bit (HRT_FENCE n.val) HRT_FENCE_gate = false ∧ o.out.length < 8) ∧
  (∃ (n : HearthId) (s : State) (rd : GReg) (rm : GReg) (q : QueueNo),
    let o := s.hearth n.val
    s.awake = true ∧ s.quiet = true ∧ s.executes n.val = true ∧ o.imprecise = none ∧ o.bpSkip = true ∧
        o.stat.annul = false ∧ o.wpHit = none ∧ o.stepping = false ∧ o.haltDue = false ∧
        tabGet falseAt o.progBad o.pc = false ∧ (o.atLoopEnd = false ∨ o.inSlot = false) ∧
        o.stalled = some (.recv n rd rm q) ∧ (rd ≠ rm ∨ rd.val = 0) ∧ o.queue q.val = []) :=
  ⟨⟨1, State.reset, by dsimp only; decide⟩,
   ⟨1, hot fun h => { h with stalled := some (.send 1 1 4095 2), bpSkip := true }, 1, 4095, 2, by dsimp only; decide⟩,
   ⟨1, hot fun h => { h with stalled := some (.recv 1 1 2 3), bpSkip := true }, 1, 2, 3, by dsimp only; decide⟩⟩

theorem met_AssistUnit :
  (∃ (n : HearthId) (s : State) (rt : GReg),
    let o := s.hearth n.val
    let b := o.getG rt.val
    s.ready n.val false = true ∧ (s.hearth n.val).assist = none ∧ b = 0) ∧
  (∃ (n : HearthId) (s : State) (rs : GReg) (rt : GReg),
    let o := s.hearth n.val
    let a := o.getG rs.val
    let b := o.getG rt.val
    let x := a.toInt
    let y := b.toInt
    s.ready n.val false = true ∧ (s.hearth n.val).assist = none ∧ b ≠ 0 ∧ y.natAbs ≤ x.natAbs) ∧
  (∃ (n : HearthId) (s : State) (rs : GReg) (rt : GReg),
    let o := s.hearth n.val
    let a := o.getG rs.val
    let b := o.getG rt.val
    let x := a.toInt
    let y := b.toInt
    s.ready n.val false = true ∧ (s.hearth n.val).assist = none ∧ b ≠ 0 ∧ x.natAbs < y.natAbs) ∧
  (∃ (n : HearthId) (s : State) (rs : GReg) (rt : GReg),
    let o := s.hearth n.val
    let a := o.getG rs.val
    let b := o.getG rt.val
    let x := a.toInt
    let y := b.toInt
    s.ready n.val false = true ∧ (s.hearth n.val).assist = none ∧ x = -2 ^ 31 ∧ y = -1) ∧
  (∃ (n : HearthId) (s : State) (rs : GReg) (rt : GReg),
    let o := s.hearth n.val
    let a := o.getG rs.val
    let b := o.getG rt.val
    let x := a.toInt
    let y := b.toInt
    s.ready n.val false = true ∧ (s.hearth n.val).assist = none ∧ b ≠ 0 ∧ (¬(x = -2 ^ 31 ∧ y = -1))) ∧
  (∃ (n : HearthId) (s : State) (rs : GReg),
    let o := s.hearth n.val
    let a := o.getG rs.val
    let x := a.toInt
    s.ready n.val false = true ∧ (s.hearth n.val).assist = none ∧ x = 0) ∧
  (∃ (n : HearthId) (s : State) (rs : GReg),
    let o := s.hearth n.val
    let a := o.getG rs.val
    let x := a.toInt
    s.ready n.val false = true ∧ (s.hearth n.val).assist = none ∧ x ≠ 0 ∧ x.natAbs < 2 ^ 30) ∧
  (∃ (n : HearthId) (s : State) (rs : GReg),
    let o := s.hearth n.val
    let a := o.getG rs.val
    let x := a.toInt
    s.ready n.val false = true ∧ (s.hearth n.val).assist = none ∧ x = 2 ^ 30) ∧
  (∃ (n : HearthId) (s : State) (rs : GReg),
    let o := s.hearth n.val
    let a := o.getG rs.val
    let x := a.toInt
    s.ready n.val false = true ∧ (s.hearth n.val).assist = none ∧ 2 ^ 30 ≤ x.natAbs) ∧
  (∃ (n : HearthId) (s : State) (rs : GReg),
    let o := s.hearth n.val
    let a := o.getG rs.val
    let x := a.toInt
    s.ready n.val false = true ∧ (s.hearth n.val).assist = none ∧ x < 0) ∧
  (∃ (n : HearthId) (s : State) (rs : GReg),
    let o := s.hearth n.val
    let a := o.getG rs.val
    let x := a.toInt
    s.ready n.val false = true ∧ (s.hearth n.val).assist = none ∧ 0 ≤ x) ∧
  (∃ (n : HearthId) (s : State) (rs : GReg),
    let o := s.hearth n.val
    let a := o.getG rs.val
    let x := a.toInt
    s.ready n.val false = true ∧ (s.hearth n.val).assist = none ∧ 0 < x ∧ x < 2 ^ 29) ∧
  (∃ (n : HearthId) (s : State) (rs : GReg),
    let o := s.hearth n.val
    let a := o.getG rs.val
    let x := a.toInt
    s.ready n.val false = true ∧ (s.hearth n.val).assist = none ∧ x = 2 ^ 29) ∧
  (∃ (n : HearthId) (s : State) (rs : GReg),
    let o := s.hearth n.val
    let a := o.getG rs.val
    let x := a.toInt
    s.ready n.val false = true ∧ (s.hearth n.val).assist = none ∧ 2 ^ 29 < x) ∧
  (∃ (n : HearthId) (s : State) (rs : GReg),
    let o := s.hearth n.val
    let a := o.getG rs.val
    let x := a.toInt
    s.ready n.val false = true ∧ (s.hearth n.val).assist = none ∧ x ≤ 0) ∧
  (∃ (n : HearthId) (s : State) (rs : GReg),
    let o := s.hearth n.val
    let a := o.getG rs.val
    let x := a.toInt
    s.ready n.val false = true ∧ (s.hearth n.val).assist = none ∧ x = 2 ^ 31 - 1) ∧
  (∃ (n : HearthId) (s : State) (rs : GReg),
    let o := s.hearth n.val
    let a := o.getG rs.val
    let x := a.toInt
    s.ready n.val false = true ∧ (s.hearth n.val).assist = none ∧ x < -31 * 2 ^ 26) ∧
  (∃ (n : HearthId) (s : State) (nr : Fin 32) (a : AssistOp),
    let o := s.hearth n.val
    s.ready n.val false = true ∧ o.assist = some a ∧ (nr.val = 13 ∨ nr.val = 14)) ∧
  (∃ (n : HearthId) (s : State),
    let o := s.hearth n.val
    s.ready n.val false = true ∧ o.assist = none) ∧
  (∃ (n : HearthId) (s : State) (a : AssistOp),
    let o := s.hearth n.val
    s.awake = true ∧ o.assist = some a) ∧
  (∃ (n : HearthId) (s : State),
    let o := s.hearth n.val
    s.awake = true ∧ o.assist = none) :=
  ⟨⟨1, hot id, 1, by dsimp only; decide⟩,
   ⟨1, hot (gs [(1, 0x80000000), (2, 0x80000000)]), 1, 2, by dsimp only; decide⟩,
   ⟨1, hot (gs [(1, 0x80000001), (2, 0x80000000)]), 1, 2, by dsimp only; decide⟩,
   ⟨1, hot (gs [(1, 0x80000000), (2, 0xFFFFFFFF)]), 1, 2, by dsimp only; decide⟩,
   ⟨1, hot (gs [(1, 0x80000001), (2, 0xFFFFFFFF)]), 1, 2, by dsimp only; decide⟩,
   ⟨1, hot id, 1, by dsimp only; decide⟩,
   ⟨1, hot (gs [(1, 0x3FFFFFFF)]), 1, by dsimp only; decide⟩,
   ⟨1, hot (gs [(1, 0x40000000)]), 1, by dsimp only; decide⟩,
   ⟨1, hot (gs [(1, 0xC0000000)]), 1, by dsimp only; decide⟩,
   ⟨1, hot (gs [(1, 0xFFFFFFFF)]), 1, by dsimp only; decide⟩,
   ⟨1, hot id, 1, by dsimp only; decide⟩,
   ⟨1, hot (gs [(1, 0x1FFFFFFF)]), 1, by dsimp only; decide⟩,
   ⟨1, hot (gs [(1, 0x20000000)]), 1, by dsimp only; decide⟩,
   ⟨1, hot (gs [(1, 0x20000001)]), 1, by dsimp only; decide⟩,
   ⟨1, hot id, 1, by dsimp only; decide⟩,
   ⟨1, hot (gs [(1, 0x7FFFFFFF)]), 1, by dsimp only; decide⟩,
   ⟨1, hot (gs [(1, 0x83FFFFFF)]), 1, by dsimp only; decide⟩,
   ⟨1, hot fun h => { h with assist := some ⟨1, false, false, false⟩ }, 13, ⟨1, false, false, false⟩,
       by dsimp only; decide⟩,
   ⟨1, hot id, by dsimp only; decide⟩,
   ⟨1, hot fun h => { h with assist := some ⟨1, false, false, false⟩ }, ⟨1, false, false, false⟩, by dsimp only; decide⟩,
   ⟨1, State.reset, by dsimp only; decide⟩⟩

theorem met_TransformInstructions :
  (∃ (n : HearthId) (s : State) (rt : GReg) (i : PtrNo),
    let o := s.hearth n.val
    let count := (o.getG rt.val).toNat
    let step (p : Word) : Word := postMod p (o.getP (8 + i.val)) (o.getP (16 + i.val)) (o.getP (24 + i.val))
    let place (j : Nat) : Nat := (Nat.repeat step j (o.getP i.val)).toNat
    let sound (a : Nat) : Prop := a % 4 = 0 ∧ a < 0x8000 ∧ o.wordErr a = 0
    s.ready n.val false = true ∧ noWatch s n.val ∧ count ≤ 1024 ∧ o.sb = [] ∧ (∀ j, j < count → sound (place j))) ∧
  (∃ (n : HearthId) (s : State) (pa : PtrNo) (pb : PtrNo) (pw : PtrNo) (k : Fin 4),
    let o := s.hearth n.val
    let sound (a : Nat) : Prop := a % 4 = 0 ∧ a < 0x8000 ∧ o.wordErr a = 0
    let a := (o.getP pa.val).toNat
    let b := (o.getP pb.val).toNat
    let w := (o.getP pw.val).toNat
    s.ready n.val false = true ∧ noWatch s n.val ∧ pa ≠ pb ∧ k.val ≠ 3 ∧ o.sb = [] ∧ a % 8 = 0 ∧ b % 8 = 0 ∧ w % 8 = 0 ∧
        a < 0x8000 ∧ b < 0x8000 ∧ w < 0x8000 ∧ a ≠ b ∧ sound a ∧ sound (a + 4) ∧ sound b ∧ sound (b + 4) ∧ sound w ∧
        sound (w + 4)) :=
  ⟨⟨1, hot (gs [(2, 1)] ∘ ps [(0, 0x7FFC), (8, 4)]), 2, 0,
      by unfold noWatch; exact ⟨by decide, by decide, by decide, by decide, by decide⟩⟩,
   ⟨1, hot (ps [(0, 0), (1, 8), (2, 0x7FF8)]), 0, 1, 2, 2, by unfold noWatch; dsimp only; decide⟩⟩

theorem met_SystemRegisters :
  (∃ (n : HearthId) (s : State) (nr : Fin 32) (v : Word),
    let o := s.hearth n.val
    s.ready n.val false = true ∧ (nr.val, v) ∈ sysSeen s n.val ∧ (o.assist = none ∨ (nr.val ≠ 13 ∧ nr.val ≠ 14))) ∧
  (∃ (n : HearthId) (s : State) (nr : Fin 32),
    let o := s.hearth n.val
    s.ready n.val false = true ∧ o.assist ≠ none ∧ (nr.val = 13 ∨ nr.val = 14)) ∧
  (∃ (n : HearthId) (s : State) (nr : Fin 32) (rs : GReg) (f : Hearth → Hearth),
    let o := s.hearth n.val
    let v := o.getG rs.val
    let w := v.toNat
    let plain : List (Nat × (Hearth → Hearth)) := [(0,
        fun k => { k with stat := { k.stat with z := v.getLsbD 0, n := v.getLsbD 1, c := v.getLsbD 2, v := v.getLsbD 3, sat := v.getLsbD 4, ie := v.getLsbD 5 } }), (1, fun k => { k with spc := w }), (2, fun k => { k with snpc := w }), (3, fun k => { k with sstat := BitVec.ofNat 32 w }), (4, fun k => { k with xpc := w }), (5, fun k => { k with xnpc := w }), (6, fun k => { k with xstat := BitVec.ofNat 32 w }), (7, id), (8, id), (9, id), (12, fun k => { k with spill := w / 64 * 64 }), (15, fun k => { k with exp := BitVec.ofNat 8 w }), (16, id), (17, id), (23, id)]
    s.ready n.val false = true ∧ (nr.val, f) ∈ plain) ∧
  (∃ (n : HearthId) (s : State) (nr : Fin 32) (rs : GReg) (f : Hearth → Hearth),
    let o := s.hearth n.val
    let v := o.getG rs.val
    let assist : List (Nat × (Hearth → Hearth)) := [(13, fun k => { k with asr := v }),
        (14, fun k => { k with dz := v.getLsbD 0, dom := v.getLsbD 1 })]
    s.ready n.val false = true ∧ (nr.val, f) ∈ assist ∧ o.assist = none) ∧
  (∃ (n : HearthId) (s : State) (nr : Fin 32),
    s.ready n.val false = true ∧ s.hearthSup n.val = true ∧ nr.val = 10) ∧
  (∃ (n : HearthId) (s : State) (nr : Fin 32),
    s.ready n.val false = true ∧ s.hearthSup n.val = true ∧ nr.val = 11) ∧
  (∃ (n : HearthId) (s : State) (nr : Fin 32),
    let o := s.hearth n.val
    s.ready n.val false = true ∧ s.hearthSup n.val = false ∧ o.stat.trap = false ∧ (nr.val = 10 ∨ nr.val = 11)) ∧
  (∃ (n : HearthId) (s : State) (nr : Fin 32),
    s.ready n.val false = true ∧ nr.val = 18) ∧
  (∃ (n : HearthId) (s : State) (nr : Fin 32) (rs : GReg) (i : Instr),
    s.ready n.val false = true ∧ (i = .doorbell n ∨ (i = .sysw n nr rs ∧ nr.val = 21))) ∧
  (∃ (n : HearthId) (s : State) (nr : Fin 32) (rs : GReg) (i : Instr),
    s.ready n.val false = true ∧ (i = .wdkick n ∨ (i = .sysw n nr rs ∧ nr.val = 22))) :=
  ⟨⟨1, hot id, 23, 1, by dsimp only; decide⟩,
   ⟨1, hot fun h => { h with assist := some ⟨1, false, false, false⟩ }, 13, by dsimp only; decide⟩,
   ⟨1, hot id, 7, 1, id, ⟨by decide, List.mem_of_getElem? (i := 7) rfl⟩⟩,
   ⟨1, hot id, 13, 1, fun k => { k with asr := 0 }, ⟨by decide, .head _, by decide⟩⟩,
   ⟨1, hot id fun s => s.setReg (SYS_HEARTH_PRIV 0) 2, 10, by decide⟩,
   ⟨1, hot id fun s => s.setReg (SYS_HEARTH_PRIV 0) 2, 11, by decide⟩,
   ⟨1, hot id, 11, by dsimp only; decide⟩,
   ⟨1, hot id, 18, by decide⟩,
   ⟨1, hot id, 21, 1, .sysw 1 21 1, ⟨by decide, .inr ⟨rfl, rfl⟩⟩⟩,
   ⟨1, hot id, 22, 1, .wdkick 1, ⟨by decide, .inl rfl⟩⟩⟩

theorem met_WindowsStowedAndFetched :
  (∃ (n : HearthId) (s : State) (rs : GReg) (i : Instr) (j : Instr),
    let o := s.hearth n.val
    s.ready n.val false = true ∧ (i = .wstow n ∨ i = .sysw n 19 rs) ∧ (j = .wfetch n ∨ j = .sysw n 20 rs) ∧
        o.stat.trap = false) ∧
  (∃ (n : HearthId) (s : State) (rs : GReg) (i : Instr) (j : Instr),
    let o := s.hearth n.val
    s.ready n.val false = true ∧ (i = .wstow n ∨ i = .sysw n 19 rs) ∧ (j = .wfetch n ∨ j = .sysw n 20 rs) ∧
        o.stat.trap = true ∧ o.stat.wres = 1) ∧
  (∃ (n : HearthId) (s : State) (rs : GReg) (i : Instr) (j : Instr),
    let o := s.hearth n.val
    s.ready n.val false = true ∧ (i = .wstow n ∨ i = .sysw n 19 rs) ∧ (j = .wfetch n ∨ j = .sysw n 20 rs) ∧
        o.stat.trap = true ∧ o.stat.wres = 5) ∧
  (∃ (n : HearthId) (s : State) (rs : GReg) (i : Instr) (j : Instr),
    let o := s.hearth n.val
    s.ready n.val false = true ∧ (i = .wstow n ∨ i = .sysw n 19 rs) ∧ (j = .wfetch n ∨ j = .sysw n 20 rs) ∧
        o.stat.trap = true ∧ o.sb = [] ∧ o.spill % 64 = 0 ∧ 2 ≤ o.stat.wres ∧ o.stat.wres ≤ 5 ∧ o.stat.wcur < 5 ∧
        o.spill + 64 ≤ s.fld (HRT_SPILL_LIM n.val) HRT_SPILL_LIM_hi) ∧
  (∃ (n : HearthId) (s : State) (rs : GReg) (i : Instr) (j : Instr),
    let o := s.hearth n.val
    s.ready n.val false = true ∧ (i = .wstow n ∨ i = .sysw n 19 rs) ∧ (j = .wfetch n ∨ j = .sysw n 20 rs) ∧
        o.stat.trap = true ∧ o.sb = [] ∧ o.spill % 64 = 0 ∧ 1 ≤ o.stat.wres ∧ o.stat.wres ≤ 4 ∧ o.stat.wcur < 5 ∧
        s.fld (HRT_SPILL_LIM n.val) HRT_SPILL_LIM_lo + 64 ≤ o.spill ∧ o.spill ≤ 0x8000 ∧ (∀ r,
        r < 16 → o.wordErr (o.spill - 64 + 4 * r) = 0)) :=
  ⟨⟨1, hot id, 1, .wstow 1, .wfetch 1, ⟨by decide, .inl rfl, .inl rfl, by decide⟩⟩,
   ⟨1, hot inTrap, 1, .wstow 1, .wfetch 1, ⟨by decide, .inl rfl, .inl rfl, by decide⟩⟩,
   ⟨1, hot (inTrap ∘ wres 5), 1, .sysw 1 19 1, .sysw 1 20 1, ⟨by decide, .inr rfl, .inr rfl, by decide⟩⟩,
   ⟨1, hot (inTrap ∘ wres 5), 1, .wstow 1, .wfetch 1, ⟨by decide, .inl rfl, .inl rfl, by decide⟩⟩,
   ⟨1, hot (fun h => { inTrap (wres 4 h) with spill := 0x7C40 }), 1, .wstow 1, .wfetch 1,
       ⟨by decide, .inl rfl, .inl rfl, by decide⟩⟩⟩

theorem met_EngineMemoryAccess :
  (∃ (n : HearthId) (s : State) (rd : GReg) (ra : GReg) (off : BitVec 13) (sz : AccSize) (u : Bool),
    let o := s.hearth n.val
    let a := (o.getG ra.val + off.signExtend 32).toNat
    let read : Access := ⟨a, sz, none, true⟩
    busReady s n.val ∧ (Instr.ldm n rd ra off sz u).wellFormed = true ∧
        passes s n.val (a / 8 * 8) (a / 8 * 8 + 7) false ∧ s.mustWait n.val read = false) ∧
  (∃ (n : HearthId) (s : State) (rd : GReg) (ra : GReg) (off : BitVec 13) (sz : AccSize),
    let o := s.hearth n.val
    let a := (o.getG ra.val + off.signExtend 32).toNat
    busReady s n.val ∧ (Instr.stm n rd ra off sz).wellFormed = true ∧ passes s n.val (a / 8 * 8) (a / 8 * 8 + 7) true) ∧
  (∃ (n : HearthId) (s : State) (rd : GReg) (ra : GReg) (off : BitVec 13) (sz : AccSize),
    let o := s.hearth n.val
    let a := (o.getG ra.val + off.signExtend 32).toNat
    let z := sizeBytes sz
    busReady s n.val ∧ (Instr.rotm n rd ra off sz).wellFormed = true ∧ passes s n.val a (a + z - 1) false ∧ a % 8 + z ≤ 8) ∧
  (∃ (n : HearthId) (s : State) (rd : GReg) (ra : GReg) (off : BitVec 13) (sz : AccSize),
    let o := s.hearth n.val
    let a := (o.getG ra.val + off.signExtend 32).toNat
    let z := sizeBytes sz
    let after : Access := ⟨(o.getG ra.val + off.signExtend 32 + 8).toNat, sz, none, true⟩
    busReady s n.val ∧ (Instr.rotm n rd ra off sz).wellFormed = true ∧ passes s n.val a (a + z - 1) false ∧
        8 < a % 8 + z ∧ s.mustWait n.val after = false) ∧
  (∃ (n : HearthId) (s : State) (rd : GReg) (ra : GReg) (w : Fin 256),
    let o := s.hearth n.val
    let src := (o.getG ra.val).toNat
    let dst := (o.getG rd.val).toNat
    let k := 8 * (w.val + 1)
    busReady s n.val ∧ src % 8 = 0 ∧ dst % 8 = 0 ∧ src + k ≤ 0x800000 ∧ dst + k ≤ 0x800000 ∧
        mayReach s n.val src (src + k - 1) false ∧ mayReach s n.val dst (dst + k - 1) true) ∧
  (∃ (n : HearthId) (rd : GReg) (ra : GReg) (off : BitVec 13) (sz : AccSize) (u : Bool) (r : Reply),
    respErr r.resp = false ∧ (Instr.ldm n rd ra off sz u).wellFormed = true) ∧
  (∃ (n : HearthId) (s : State) (rd : GReg) (ra : GReg) (off : BitVec 13) (sz : AccSize) (r : Reply),
    let o := s.hearth n.val
    let a := (o.getG ra.val + off.signExtend 32).toNat
    let z := sizeBytes sz
    respErr r.resp = false ∧ (Instr.rotm n rd ra off sz).wellFormed = true ∧ passes s n.val a (a + z - 1) false ∧
        8 < a % 8 + z) :=
  ⟨⟨1, hot (gs [(1, 0x7FFFFF)]) sup, 1, 1, 0, .b8, false, by unfold busReady passes mayReach; dsimp only; decide +kernel⟩,
   ⟨1, hot (gs [(1, 4)]) sup, 2, 1, 0, .b32, by unfold busReady passes mayReach; dsimp only; decide +kernel⟩,
   ⟨1, hot (gs [(1, 4)]) sup, 2, 1, 0, .b32, by unfold busReady passes mayReach; dsimp only; decide +kernel⟩,
   ⟨1, hot (gs [(1, 6)]) sup, 2, 1, 0, .b32, by unfold busReady passes mayReach; dsimp only; decide +kernel⟩,
   ⟨1, hot (gs [(1, 0x7FF800), (2, 0x7FF800)]) sup, 2, 1, 255, by unfold busReady mayReach; dsimp only; decide +kernel⟩,
   ⟨1, 2, 1, 0, .b64, false, ⟨.ok, 5⟩, by decide +kernel⟩,
   ⟨1, sup (replied (.rotm 1 2 1 0 .b32) ⟨.ok, 5⟩ (gs [(1, 6)])), 2, 1, 0, .b32, ⟨.ok, 5⟩,
       by unfold passes mayReach; dsimp only; decide +kernel⟩⟩

theorem met_MemoryStationsServe :
  (∃ (n : HearthId) (r : HearthId) (s : State) (q : FPort) (out : FPort) (a : Nat) (sz : AccSize)
      (d : Option (BitVec 64)) (waits : Bool) (id : Nat) (rest : List FTok),
    let x : Access := ⟨a, sz, d, true⟩
    s.bit MEMC_INJ_CTRL MEMC_INJ_CTRL_arm = false ∧ a < 0x800000 ∧ s.flipsOf (a / 8) = 0 ∧
        reaches s n r q out x waits id rest ∧ d = none) ∧
  (∃ (n : HearthId) (r : HearthId) (s : State) (q : FPort) (out : FPort) (a : Nat) (sz : AccSize)
      (d : Option (BitVec 64)) (waits : Bool) (id : Nat) (rest : List FTok) (y : BitVec 64),
    let x : Access := ⟨a, sz, d, true⟩
    s.bit MEMC_INJ_CTRL MEMC_INJ_CTRL_arm = false ∧ a < 0x800000 ∧ s.flipsOf (a / 8) = 0 ∧
        reaches s n r q out x waits id rest ∧ d = some y) ∧
  (∃ (n : HearthId) (s : State) (q : FPort) (w : Word) (b : Bool) (rest : List FTok) (id : Nat) (x : Access)
      (waits : Bool) (a : Reply),
    s.awake = true ∧ s.quiet = true ∧ q ≠ .l ∧ (neighbour n.val q).isSome = true ∧ s.outTurn true n.val q .l = true ∧
        (∀ st, planeStation true st = true → s.inboxOf st = []) ∧ s.bufOf true n.val q = ⟨⟨.move, mantelNode x.addr - 0xC0,
        n.val + 2 * 2 ^ 8, w⟩, b, none⟩ :: rest ∧ s.moves n.val = [⟨id, x, none, waits, .back 1 a⟩]) ∧
  (∃ (n : HearthId) (s : State) (id : Nat) (src : Nat) (dst : Nat) (c : Option (Nat × Nat × Option Nat)) (waits : Bool)
      (y : Access) (g : MoveStage) (m : Nat),
    src % 8 = 0 ∧ dst % 8 = 0 ∧ src + 8 ≤ 0x800000 ∧ dst + 8 ≤ 0x800000 ∧ s.moves n.val = [⟨id, y, c, waits, g⟩] ∧
        s.flipsOf (src / 8) = 0 ∧ m ≠ n.val) ∧
  (∃ (n : HearthId) (s : State) (id : Nat) (src : Nat) (dst : Nat) (bad : Option Nat)
      (c : Option (Nat × Nat × Option Nat)) (waits : Bool) (y : Access) (g : MoveStage),
    let v := BitVec.ofNat 64 (rotBytes s src 8)
    src % 8 = 0 ∧ dst % 8 = 0 ∧ src + 8 ≤ 0x800000 ∧ dst + 8 ≤ 0x800000 ∧ s.moves n.val = [⟨id, y, c, waits, g⟩] ∧
        s.bit MEMC_INJ_CTRL MEMC_INJ_CTRL_arm = false ∧ c = some (dst, 1, bad) ∧ g = .copying v) :=
  ⟨⟨1, 2, atStation ⟨4, .b64, none, true⟩ id, .w, .n, 4, .b64, none, true, 0, [],
      by unfold reaches; dsimp only; exact ⟨by decide +kernel, by decide +kernel, by decide +kernel,
      ⟨by decide +kernel, by decide +kernel, by decide +kernel, by decide +kernel, by decide +kernel, by decide +kernel,
      by decide +kernel, ⟨0, false, by decide +kernel⟩, fun _ _ => rfl, by decide +kernel, by decide +kernel⟩,
      by decide +kernel⟩⟩,
   ⟨1, 2, atStation ⟨4, .b64, some 7, true⟩ id, .w, .n, 4, .b64, some 7, true, 0, [], 7,
       by unfold reaches; dsimp only; exact ⟨by decide +kernel, by decide +kernel, by decide +kernel,
       ⟨by decide +kernel, by decide +kernel, by decide +kernel, by decide +kernel, by decide +kernel, by decide +kernel,
       by decide +kernel, ⟨0, false, by decide +kernel⟩, fun _ _ => rfl, by decide +kernel, by decide +kernel⟩,
       by decide +kernel⟩⟩,
   ⟨1, (openRam State.reset |>.setBuf true 1 .w [⟨⟨.move, 34, 513, 0⟩, false, none⟩]).setMoves 1 [⟨0,
       ⟨4, .b64, none, true⟩, none, true, .back 1 ⟨.ok, 5⟩⟩], .w, 0, false, [], 0, ⟨4, .b64, none, true⟩, true, ⟨.ok, 5⟩,
       ⟨by decide +kernel, by decide +kernel, by decide +kernel, by decide +kernel, by decide +kernel, fun _ _ => rfl,
       by decide +kernel, by decide +kernel⟩⟩,
   ⟨1, (openRam State.reset).setMoves 1 [⟨0, ⟨0, .b64, none, true⟩, none, false, .going 0⟩], 0, 0, 0x7FFFF8, none, false,
       ⟨0, .b64, none, true⟩, .going 0, 2, by decide +kernel⟩,
   ⟨1, (openRam State.reset).setMoves 1 [⟨0, ⟨0, .b64, none, true⟩, some (0x7FFFF8, 1, none), false, .copying 0⟩], 0, 0,
       0x7FFFF8, none, some (0x7FFFF8, 1, none), false, ⟨0, .b64, none, true⟩, .copying 0, by dsimp only; decide +kernel⟩⟩

theorem met_EngineAccessesRefused :
  (∃ (n : HearthId) (s : State) (rd : GReg) (ra : GReg) (off : BitVec 13) (sz : AccSize) (u : Bool),
    let o := s.hearth n.val
    let a := (o.getG ra.val + off.signExtend 32).toNat
    busReady s n.val ∧ (s.hearth n.val).stat.trap = false ∧ a < 0x800000 ∧
        (¬mayReach s n.val (a / 8 * 8) (a / 8 * 8 + 7) false) ∧ (Instr.ldm n rd ra off sz u).wellFormed = true) ∧
  (∃ (n : HearthId) (s : State) (rd : GReg) (ra : GReg) (off : BitVec 13) (sz : AccSize),
    let o := s.hearth n.val
    let a := (o.getG ra.val + off.signExtend 32).toNat
    busReady s n.val ∧ (s.hearth n.val).stat.trap = false ∧ a < 0x800000 ∧
        (¬mayReach s n.val (a / 8 * 8) (a / 8 * 8 + 7) true) ∧ (Instr.stm n rd ra off sz).wellFormed = true) ∧
  (∃ (n : HearthId) (s : State) (rd : GReg) (ra : GReg) (off : BitVec 13) (sz : AccSize),
    let o := s.hearth n.val
    let a := (o.getG ra.val + off.signExtend 32).toNat
    busReady s n.val ∧ (s.hearth n.val).stat.trap = false ∧ a < 0x800000 ∧
        (¬mayReach s n.val a (a + sizeBytes sz - 1) false) ∧ (Instr.rotm n rd ra off sz).wellFormed = true) ∧
  (∃ (n : HearthId) (s : State) (ra : GReg) (w : Fin 256),
    let o := s.hearth n.val
    let src := (o.getG ra.val).toNat
    let k := 8 * (w.val + 1)
    busReady s n.val ∧ (s.hearth n.val).stat.trap = false ∧ src < 0x800000 ∧ (¬mayReach s n.val src (src + k - 1) false)) ∧
  (∃ (n : HearthId) (s : State) (rd : GReg) (ra : GReg) (w : Fin 256),
    let o := s.hearth n.val
    let src := (o.getG ra.val).toNat
    let dst := (o.getG rd.val).toNat
    let k := 8 * (w.val + 1)
    busReady s n.val ∧ (s.hearth n.val).stat.trap = false ∧ passes s n.val src (src + k - 1) false ∧ dst < 0x800000 ∧
        (¬mayReach s n.val dst (dst + k - 1) true)) ∧
  (∃ (n : HearthId) (s : State) (rd : GReg) (ra : GReg) (w : Fin 256),
    let o := s.hearth n.val
    let src := (o.getG ra.val).toNat
    let dst := (o.getG rd.val).toNat
    let k := 8 * (w.val + 1)
    busReady s n.val ∧ (s.hearth n.val).stat.trap = false ∧ passes s n.val src (src + k - 1) false ∧
        passes s n.val dst (dst + k - 1) true ∧ src % 8 ≠ 0) ∧
  (∃ (n : HearthId) (s : State) (rd : GReg) (ra : GReg) (off : BitVec 13) (sz : AccSize) (u : Bool) (r : Reply)
      (rest : List (Waiter × Reply)),
    respErr r.resp = true ∧ (s.hearth n.val).stat.trap = false ∧ (Instr.ldm n rd ra off sz u).wellFormed = true ∧
        answered s n.val (.ldm n rd ra off sz u) r rest) :=
  ⟨⟨1, hot id openRam, 1, 1, 0, .b32, false, by unfold busReady mayReach; dsimp only; decide⟩,
   ⟨1, hot id (openRam ∘ flds [(HRT_MPR_BASE 1 0, HRT_MPR_BASE_en, 1), (HRT_MPR_BASE 1 0, HRT_MPR_BASE_r, 1)]), 1, 1, 0,
       .b32, by unfold busReady mayReach; dsimp only; decide⟩,
   ⟨1, hot id openRam, 1, 1, 0, .b32, by unfold busReady mayReach; dsimp only; decide⟩,
   ⟨1, hot (gs [(1, 0x7FF800)]), 1, 255, by unfold busReady mayReach; dsimp only; decide +kernel⟩,
   ⟨1, hot (gs [(2, 0x1000)]) (flds [(HRT_MPR_BASE 1 0, HRT_MPR_BASE_en, 1), (HRT_MPR_BASE 1 0, HRT_MPR_BASE_r, 1)]), 2, 1,
       0, by unfold busReady passes mayReach; dsimp only; decide +kernel⟩,
   ⟨1, hot (gs [(1, 4)]) sup, 1, 1, 0, by unfold busReady passes mayReach; dsimp only; decide +kernel⟩,
   ⟨1, replied (.ldm 1 2 1 0 .b32 false) ⟨.ecc, 0⟩ id, 2, 1, 0, .b32, false, ⟨.ecc, 0⟩, [],
       by unfold answered; decide +kernel⟩⟩

theorem met_BallsOfHearths :
  (∃ (n : HearthId) (s : State),
    busReady s n.val) ∧
  (∃ (r : Reply),
    respErr r.resp = false) ∧
  (∃ (n : HearthId) (r : HearthId) (s : State) (q : FPort) (out : FPort) (b : Fin 256) (write : Bool) (waits : Bool)
      (id : Nat) (rest : List FTok),
    let x : Access := ⟨SYS_BALL b.val, .b32, if write then some 0 else none, true⟩
    reaches s n r q out x waits id rest ∧ write = false ∧ (s.ball b.val).owner = none) ∧
  (∃ (n : HearthId) (r : HearthId) (s : State) (q : FPort) (out : FPort) (b : Fin 256) (write : Bool) (waits : Bool)
      (id : Nat) (rest : List FTok),
    let x : Access := ⟨SYS_BALL b.val, .b32, if write then some 0 else none, true⟩
    reaches s n r q out x waits id rest ∧ write = false ∧ (s.ball b.val).owner = some n.val) ∧
  (∃ (n : HearthId) (r : HearthId) (s : State) (q : FPort) (out : FPort) (b : Fin 256) (write : Bool) (waits : Bool)
      (id : Nat) (rest : List FTok) (m : Nat),
    let x : Access := ⟨SYS_BALL b.val, .b32, if write then some 0 else none, true⟩
    reaches s n r q out x waits id rest ∧ write = false ∧ m < 1024 ∧ m ≠ n.val ∧ (s.ball b.val).owner = some m) ∧
  (∃ (n : HearthId) (r : HearthId) (s : State) (q : FPort) (out : FPort) (b : Fin 256) (write : Bool) (waits : Bool)
      (id : Nat) (rest : List FTok),
    let x : Access := ⟨SYS_BALL b.val, .b32, if write then some 0 else none, true⟩
    reaches s n r q out x waits id rest ∧ write = true ∧ (s.ball b.val).owner = some n.val) :=
  ⟨⟨1, hot id sup, by unfold busReady; decide⟩,
   ⟨⟨.ok, 0x80000001⟩, by decide +kernel⟩,
   ⟨1, 2, atStation ⟨SYS_BALL 255, .b32, none, true⟩ id, .w, .n, 255, false, true, 0, [],
       by unfold reaches; dsimp only; exact ⟨⟨by decide +kernel, by decide +kernel, by decide +kernel, by decide +kernel,
       by decide +kernel, by decide +kernel, by decide +kernel, ⟨0, false, by decide +kernel⟩, fun _ _ => rfl,
       by decide +kernel, by decide +kernel⟩, by decide +kernel, by decide +kernel⟩⟩,
   ⟨1, 2, atStation ⟨SYS_BALL 255, .b32, none, true⟩ (held 255 ⟨some 1, 5, 2⟩), .w, .n, 255, false, true, 0, [],
       by unfold reaches; dsimp only; exact ⟨⟨by decide +kernel, by decide +kernel, by decide +kernel, by decide +kernel,
       by decide +kernel, by decide +kernel, by decide +kernel, ⟨0, false, by decide +kernel⟩, fun _ _ => rfl,
       by decide +kernel, by decide +kernel⟩, by decide +kernel, by decide +kernel⟩⟩,
   ⟨1, 2, atStation ⟨SYS_BALL 255, .b32, none, true⟩ (held 255 ⟨some 1023, 5, 2⟩), .w, .n, 255, false, true, 0, [], 1023,
       by unfold reaches; dsimp only; exact ⟨⟨by decide +kernel, by decide +kernel, by decide +kernel, by decide +kernel,
       by decide +kernel, by decide +kernel, by decide +kernel, ⟨0, false, by decide +kernel⟩, fun _ _ => rfl,
       by decide +kernel, by decide +kernel⟩, by decide +kernel, by decide +kernel, by decide +kernel, by decide +kernel⟩⟩,
   ⟨1, 2, atStation ⟨SYS_BALL 255, .b32, some 0, true⟩ (held 255 ⟨some 1, 5, 2⟩), .w, .n, 255, true, true, 0, [],
       by unfold reaches; dsimp only; exact ⟨⟨by decide +kernel, by decide +kernel, by decide +kernel, by decide +kernel,
       by decide +kernel, by decide +kernel, by decide +kernel, ⟨0, false, by decide +kernel⟩, fun _ _ => rfl,
       by decide +kernel, by decide +kernel⟩, by decide +kernel, by decide +kernel⟩⟩⟩

theorem met_ParameterSlots :
  (∃ (n : HearthId) (s : State) (tok : Token) (rest : List Token),
    let o := s.hearth n.val
    s.awake = true ∧ o.paramIn = tok :: rest ∧ tok.ctag / 256 = 0) ∧
  (∃ (n : HearthId) (s : State) (tok : Token) (rest : List Token),
    let o := s.hearth n.val
    s.awake = true ∧ o.paramIn = tok :: rest ∧ tok.ctag / 256 = 1) ∧
  (∃ (n : HearthId) (s : State) (tok : Token) (rest : List Token),
    let o := s.hearth n.val
    s.awake = true ∧ o.paramIn = tok :: rest ∧ tok.ctag / 256 = 2) ∧
  (∃ (n : HearthId) (s : State) (tok : Token) (rest : List Token),
    let o := s.hearth n.val
    s.awake = true ∧ o.paramIn = tok :: rest ∧ tok.ctag / 256 = 3) ∧
  (∃ (s : State) (m : Mid),
    s.awake = true ∧ s.isSup m.val = true ∧ s.windowFree m.val = true) ∧
  (∃ (n : HearthId) (s : State),
    let o := s.hearth n.val
    s.awake = true ∧ (∃ j, (o.slot j).zcPend = true) ∧ o.zcLeft = 0) :=
  ⟨⟨1, hot fun h => { h with paramIn := [tok0] }, tok0, [], by dsimp only; decide⟩,
   ⟨1, hot fun h => { h with paramIn := [{ tok0 with ctag := 256 }] }, { tok0 with ctag := 256 }, [],
       by dsimp only; decide⟩,
   ⟨1, hot fun h => { h with paramIn := [{ tok0 with ctag := 512 }] }, { tok0 with ctag := 512 }, [],
       by dsimp only; decide⟩,
   ⟨1, hot fun h => { h with paramIn := [{ tok0 with ctag := 1023 }] }, { tok0 with ctag := 1023 }, [],
       by dsimp only; decide⟩,
   ⟨openRam State.reset, 0x300, by decide⟩,
   ⟨1, hot fun h => h.setSlot 255 ⟨0, 1, false, true, true⟩, ⟨by decide, ⟨255, by decide⟩, by decide⟩⟩⟩

theorem met_HearthsHaltedAndReset :
  (∃ (n : HearthId) (s : State) (m : Mid),
    let o := s.hearth n.val
    s.awake = true ∧ s.isSup m.val = true ∧ s.windowFree m.val = true ∧ s.running n.val = true ∧
        (o.sent = true ∨ s.stallOver n.val = true)) ∧
  (∃ (n : HearthId) (s : State) (m : Mid),
    let o := s.hearth n.val
    s.awake = true ∧ s.isSup m.val = true ∧ s.windowFree m.val = true ∧ s.running n.val = true ∧ o.sent = false ∧
        s.stallOver n.val = false) ∧
  (∃ (n : HearthId) (s : State) (m : Mid),
    let double := s.bit (HRT_FAULT n.val) HRT_FAULT_halted
    s.awake = true ∧ s.isSup m.val = true ∧ s.windowFree m.val = true ∧ s.running n.val = false ∧ s.quiet = true ∧
        double = true) ∧
  (∃ (n : HearthId) (s : State) (m : Mid),
    let o := s.hearth n.val
    s.awake = true ∧ s.isSup m.val = true ∧ s.windowFree m.val = true ∧ s.running n.val = false ∧ o.sb = []) ∧
  (∃ (n : HearthId) (s : State) (m : Mid),
    let o := s.hearth n.val
    let double := s.bit (HRT_FAULT n.val) HRT_FAULT_halted
    s.awake = true ∧ s.isSup m.val = true ∧ s.windowFree m.val = true ∧ s.quiet = true ∧ s.ramOpen = true ∧
        s.running n.val = false ∧ double = false ∧ n.val ≠ 0 ∧ o.stalled = none ∧ o.imprecise = none ∧
        o.stat.annul = false ∧ tabGet falseAt o.progBad o.pc = false ∧ (o.atLoopEnd = false ∨ o.inSlot = false) ∧
        tabGet zeroWord o.prog o.pc = 0xBC000000 ∧ o.wpHit = none) :=
  ⟨⟨1, hot fun h => { h with sent := true }, 0x300, by dsimp only; decide⟩,
   ⟨1, hot id, 0x300, by dsimp only; decide⟩,
   ⟨1, flds [(HRT_FAULT 1, HRT_FAULT_halted, 1)] (openRam State.reset), 0x300, by dsimp only; decide⟩,
   ⟨1, openRam State.reset, 0x300, by dsimp only; decide⟩,
   ⟨1, (openRam State.reset).modHearth 1 fun h => { h with prog := [(0, 0xBC000000)] }, 0x300, by dsimp only; decide⟩⟩

theorem met_DebugRegistersOfHearths :
  (∃ (n : HearthId) (s : State) (m : Mid),
    s.awake = true ∧ s.isSup m.val = true ∧ s.windowFree m.val = true ∧ s.running n.val = true) ∧
  (∃ (n : HearthId) (s : State) (m : Mid),
    let code := s.fld (HRT_DBG_SEL n.val) HRT_DBG_SEL_code
    s.awake = true ∧ s.isSup m.val = true ∧ s.windowFree m.val = true ∧ s.running n.val = false ∧ code = 0) ∧
  (∃ (n : HearthId) (s : State) (m : Mid),
    let code := s.fld (HRT_DBG_SEL n.val) HRT_DBG_SEL_code
    s.awake = true ∧ s.isSup m.val = true ∧ s.windowFree m.val = true ∧ s.running n.val = false ∧ 0 < code ∧ code < 32) ∧
  (∃ (n : HearthId) (s : State) (m : Mid),
    let code := s.fld (HRT_DBG_SEL n.val) HRT_DBG_SEL_code
    s.awake = true ∧ s.isSup m.val = true ∧ s.windowFree m.val = true ∧ s.running n.val = false ∧ 32 ≤ code ∧ code < 64) ∧
  (∃ (n : HearthId) (s : State) (m : Mid),
    let code := s.fld (HRT_DBG_SEL n.val) HRT_DBG_SEL_code
    s.awake = true ∧ s.isSup m.val = true ∧ s.windowFree m.val = true ∧ s.running n.val = false ∧ 64 ≤ code ∧ code < 80 ∧
        code % 4 = 0) ∧
  (∃ (n : HearthId) (s : State) (m : Mid),
    let code := s.fld (HRT_DBG_SEL n.val) HRT_DBG_SEL_code
    s.awake = true ∧ s.isSup m.val = true ∧ s.windowFree m.val = true ∧ s.running n.val = false ∧ 64 ≤ code ∧ code < 80 ∧
        code % 4 = 1) ∧
  (∃ (n : HearthId) (s : State) (m : Mid),
    let code := s.fld (HRT_DBG_SEL n.val) HRT_DBG_SEL_code
    s.awake = true ∧ s.isSup m.val = true ∧ s.windowFree m.val = true ∧ s.running n.val = false ∧ 64 ≤ code ∧ code < 80 ∧
        code % 4 = 2) ∧
  (∃ (n : HearthId) (s : State) (m : Mid) (w : Word),
    let code := s.fld (HRT_DBG_SEL n.val) HRT_DBG_SEL_code
    s.awake = true ∧ s.isSup m.val = true ∧ s.windowFree m.val = true ∧ s.running n.val = false ∧ 96 ≤ code ∧ (code - 96,
        w) ∈ sysSeen s n.val) ∧
  (∃ (n : HearthId) (s : State) (m : Mid),
    let o := s.hearth n.val
    let code := s.fld (HRT_DBG_SEL n.val) HRT_DBG_SEL_code
    s.awake = true ∧ s.isSup m.val = true ∧ s.windowFree m.val = true ∧ s.running n.val = false ∧ 128 ≤ code ∧
        (code - 128) / 2 < o.loops.length) ∧
  (∃ (n : HearthId) (s : State) (m : Mid) (v : Word),
    let code := s.fld (HRT_DBG_SEL n.val) HRT_DBG_SEL_code
    s.awake = true ∧ s.isSup m.val = true ∧ s.windowFree m.val = true ∧ s.running n.val = false ∧ code = 96 ∧
        (4 < v.toNat / 2 ^ 8 % 8 ∨ v.toNat / 2 ^ 11 % 8 = 0 ∨ 5 < v.toNat / 2 ^ 11 % 8)) :=
  ⟨⟨1, hot id, 0x300, by decide⟩,
   ⟨1, openRam State.reset, 0x300, by dsimp only; decide⟩,
   ⟨1, flds [(HRT_DBG_SEL 1, HRT_DBG_SEL_code, 31)] (openRam State.reset), 0x300, by dsimp only; decide⟩,
   ⟨1, flds [(HRT_DBG_SEL 1, HRT_DBG_SEL_code, 63)] (openRam State.reset), 0x300, by dsimp only; decide⟩,
   ⟨1, flds [(HRT_DBG_SEL 1, HRT_DBG_SEL_code, 64)] (openRam State.reset), 0x300, by dsimp only; decide⟩,
   ⟨1, flds [(HRT_DBG_SEL 1, HRT_DBG_SEL_code, 77)] (openRam State.reset), 0x300, by dsimp only; decide⟩,
   ⟨1, flds [(HRT_DBG_SEL 1, HRT_DBG_SEL_code, 78)] (openRam State.reset), 0x300, by dsimp only; decide⟩,
   ⟨1, flds [(HRT_DBG_SEL 1, HRT_DBG_SEL_code, 119)] (openRam State.reset), 0x300, 1, by dsimp only; decide⟩,
   ⟨1, (flds [(HRT_DBG_SEL 1, HRT_DBG_SEL_code, 129)] (openRam State.reset)).modHearth 1 fun h => { h with loops := [⟨0, 9, 1, true, 0⟩] }, 0x300, by dsimp only; decide⟩,
   ⟨1, flds [(HRT_DBG_SEL 1, HRT_DBG_SEL_code, 96)] (openRam State.reset), 0x300, 0x3000, by dsimp only; decide⟩⟩

theorem met_AccessesAndResponses :
  (∃ (m : Mid) (s : State),
    s.awake = true ∧ s.windowFree m.val = false) ∧
  (∃ (s : State) (a : Word),
    let x := a.toNat
    s.awake = true ∧ s.quiet = true ∧ (¬targetAt x)) ∧
  (∃ (m : Mid) (s : State) (a : Word),
    let x := a.toNat
    s.awake = true ∧ s.quiet = true ∧ targetAt x ∧ 0x800000 ≤ x ∧ m.val < 192 ∧ s.hearthSup m.val = false ∧
        x ≠ SYS_FENCE ∧ (x < 0x2001000 ∨ 0x2001800 ≤ x)) ∧
  (∃ (m : Mid) (s : State) (a : Word) (sz : AccSize),
    let x := a.toNat
    s.awake = true ∧ s.quiet = true ∧ targetAt x ∧ 0x2000000 ≤ x ∧ s.isSup m.val = true ∧ (sz ≠ .b32 ∨ x % 4 ≠ 0)) ∧
  (∃ (m : Mid) (s : State) (a : Word),
    let x := a.toNat
    let armed := s.bit MEMC_INJ_CTRL MEMC_INJ_CTRL_arm
    s.awake = true ∧ s.quiet = true ∧ s.isSup m.val = true ∧ x < 0x800000 ∧ s.ramOpen = true ∧ s.flipsOf (x / 8) = 0 ∧
        armed = false) ∧
  (∃ (m : Mid) (s : State) (a : Word) (n : HearthId),
    let x := a.toNat
    s.awake = true ∧ s.quiet = true ∧ s.isSup m.val = true ∧ x = HRT_IRQ_EN n.val ∧ s.windowFree m.val = true) ∧
  (∃ (m : Mid) (s : State) (a : Word),
    let x := a.toNat
    s.awake = true ∧ s.quiet = true ∧ s.isSup m.val = true ∧ x = SYS_VIOL_INFO) ∧
  (∃ (m : Mid) (s : State) (a : Word),
    let x := a.toNat
    s.awake = true ∧ s.quiet = true ∧ s.isSup m.val = true ∧ x = SYS_VIOL_COUNT) ∧
  (∃ (m : Mid) (s : State),
    s.awake = true ∧ s.quiet = true ∧ (s.isSup m.val = true ∨ m.val < 192) ∧ s.inFlight m.val = false) :=
  ⟨⟨0x300, State.reset, by decide⟩,
   ⟨State.reset, 0x02120000, by unfold targetAt; dsimp only; decide⟩,
   ⟨1, State.reset, 0x02001800, by unfold targetAt; dsimp only; decide⟩,
   ⟨0x300, State.reset, 0x0211FFFF, .b32, by unfold targetAt; dsimp only; decide⟩,
   ⟨0x300, openRam State.reset, 0x7FFFFF, by dsimp only; decide⟩,
   ⟨0x300, openRam State.reset, BitVec.ofNat 32 (HRT_IRQ_EN 1), 1, by dsimp only; decide⟩,
   ⟨0x300, State.reset, BitVec.ofNat 32 SYS_VIOL_INFO, by dsimp only; decide⟩,
   ⟨0x300, State.reset, BitVec.ofNat 32 SYS_VIOL_COUNT, by dsimp only; decide⟩,
   ⟨1, { State.reset with fences := [(1, ⟨1, 3⟩)] }, by decide⟩⟩

theorem met_WideCountersReadAndLoaded :
  (∃ (m : Mid) (s : State) (c : WideCtr),
    let servo := s.srvState s.deuceActive
    let refused := (c = .tod ∧ (servo = 2 ∨ servo = 3)) ∨ (c = .rally ∧ s.rallySrc = 1)
    s.awake = true ∧ s.isSup m.val = true ∧ s.noneWaits m.val = true ∧ refused) ∧
  (∃ (m : Mid) (s : State) (c : WideCtr),
    let servo := s.srvState s.deuceActive
    let refused := (c = .tod ∧ (servo = 2 ∨ servo = 3)) ∨ (c = .rally ∧ s.rallySrc = 1)
    s.awake = true ∧ s.isSup m.val = true ∧ s.noneWaits m.val = true ∧ (¬refused)) ∧
  (∃ (s : State) (c : WideCtr) (y : Nat),
    let key := wideKey (ctrVal c)
    let old := s.wideOf key
    s.awake = true ∧ c = .rtc ∧ old.load = some y ∧ s.bit EMB_ALARM_HI EMB_ALARM_HI_en = false ∧
        s.bit EMB_XP_CFG EMB_XP_CFG_en = false) :=
  ⟨⟨0x300, flds [(RSG_STATE, RSG_STATE_cand, 1), (RSG_STATE, RSG_STATE_state, 2)] State.reset, .rally,
      by dsimp only; decide⟩,
   ⟨0x300, State.reset, .rtc, by dsimp only; decide⟩,
   ⟨flds [(EMB_XP_CFG, EMB_XP_CFG_en, 0)] (State.reset.setWide (wideKey .rtc) ⟨0, 0, 0, some 7⟩), .rtc, 7,
       by dsimp only; decide⟩⟩

theorem met_BallReleases :
  (∃ (m : Mid) (b : Fin 256) (v : Word) (s : State),
    s.awake = true ∧ reachesBalls s m.val ∧ s.noneWaits m.val = true ∧ v = 0 ∧ (s.ball b.val).owner = some m.val) ∧
  (∃ (m : Mid) (b : Fin 256) (v : Word) (s : State),
    s.awake = true ∧ reachesBalls s m.val ∧ s.noneWaits m.val = true ∧ v = 0 ∧ (s.ball b.val).owner ≠ some m.val) ∧
  (∃ (m : Mid) (v : Word) (s : State),
    s.awake = true ∧ reachesBalls s m.val ∧ s.noneWaits m.val = true ∧ v ≠ 0) :=
  ⟨⟨0x300, 255, 0, held 255 ⟨some 0x300, 0, 0⟩ State.reset, by unfold reachesBalls; decide⟩,
   ⟨191, 255, 0, held 255 ⟨some 1, 0, 0⟩ State.reset, by unfold reachesBalls; decide⟩,
   ⟨0x300, 1, State.reset, by unfold reachesBalls; decide⟩⟩

theorem met_BallsGrantedAndTurnedOver :
  (∃ (m : Mid) (b : Fin 256) (s : State),
    let x := s.ball b.val
    s.awake = true ∧ reachesBalls s m.val ∧ s.noneWaits m.val = true ∧ x.owner = none) ∧
  (∃ (m : Mid) (b : Fin 256) (s : State),
    let x := s.ball b.val
    s.awake = true ∧ reachesBalls s m.val ∧ s.noneWaits m.val = true ∧ x.owner = some m.val) ∧
  (∃ (m : Mid) (b : Fin 256) (s : State) (o : Nat),
    let x := s.ball b.val
    s.awake = true ∧ reachesBalls s m.val ∧ s.noneWaits m.val = true ∧ x.owner = some o ∧ o ≠ m.val) ∧
  (∃ (b : Fin 256) (s : State) (o : Nat),
    let x := s.ball b.val
    s.awake = true ∧ s.pwr.xoLost = false ∧ x.owner = some o ∧ x.lease ≠ 0 ∧ x.lease ≤ x.count) ∧
  (∃ (m : Mid) (v : Word) (s : State),
    let c := v.toNat % 256
    s.awake = true ∧ s.isSup m.val = true ∧ s.noneWaits m.val = true ∧ (s.ball c).owner = none) ∧
  (∃ (m : Mid) (v : Word) (s : State) (o : Nat),
    let c := v.toNat % 256
    let still : Prop := s.running o = false ∧ s.bit (HRT_FENCE o) HRT_FENCE_gate = true ∧ s.drained o = true
    s.awake = true ∧ s.isSup m.val = true ∧ s.noneWaits m.val = true ∧ (s.ball c).owner = some o ∧ (192 ≤ o ∨ still)) ∧
  (∃ (m : Mid) (v : Word) (s : State) (o : Nat),
    let c := v.toNat % 256
    let still : Prop := s.running o = false ∧ s.bit (HRT_FENCE o) HRT_FENCE_gate = true ∧ s.drained o = true
    s.awake = true ∧ s.isSup m.val = true ∧ s.noneWaits m.val = true ∧ (s.ball c).owner = some o ∧ o < 192 ∧ (¬still)) :=
  ⟨⟨0x300, 0, State.reset, by unfold reachesBalls; dsimp only; decide⟩,
   ⟨0x300, 0, held 0 ⟨some 0x300, 9, 4⟩ State.reset, by unfold reachesBalls; dsimp only; decide⟩,
   ⟨0x300, 0, held 0 ⟨some 1, 9, 4⟩ State.reset, 1, by unfold reachesBalls; dsimp only; decide⟩,
   ⟨255, held 255 ⟨some 1, 9, 9⟩ State.reset, 1, by dsimp only; decide⟩,
   ⟨0x300, 0xFFFFFFFF, State.reset, by dsimp only; decide⟩,
   ⟨0x300, 255, held 255 ⟨some 192, 9, 9⟩ State.reset, 192, by dsimp only; decide⟩,
   ⟨0x300, 255, hot id (held 255 ⟨some 1, 9, 9⟩), 1, by dsimp only; decide⟩⟩

theorem met_PaceMonitor :
  (∃ (n : HearthId) (s : State),
    let o := s.hearth n.val
    let window := 2 ^ max 4 (s.fld (HRT_PACE_CTRL n.val) HRT_PACE_CTRL_window)
    s.awake = true ∧ s.pwr.xoLost = false ∧ window ≤ o.pace.arrivals) ∧
  (∃ (n : HearthId) (s : State) (tok : Token) (rest : List Token),
    let o := s.hearth n.val
    s.awake = true ∧ o.ctlIn = tok :: rest ∧ tok.ctag / 256 = 0) ∧
  (∃ (n : HearthId) (m : Mid) (s : State) (v : Word),
    s.awake = true ∧ s.isSup m.val = true ∧ s.windowFree m.val = true ∧ s.paceOn n.val = false ∧
        HRT_PACE_CTRL_en.get v = 1) ∧
  (∃ (m : Mid) (s : State) (v : Word),
    s.awake = true ∧ s.isSup m.val = true ∧ s.windowFree m.val = true ∧ v.getLsbD 0 = true) ∧
  (∃ (n : HearthId) (s : State) (t0 : Nat),
    let o := s.hearth n.val
    s.awake = true ∧ s.paceOn n.val = true ∧ o.pace.started = true ∧ o.pace.ended = some t0 ∧ o.pace.steps < 2 ^ 16 ∧
        t0 ≤ s.now) :=
  ⟨⟨1, hot fun h => { h with pace := { h.pace with arrivals := 2 ^ 15 } }, by dsimp only; decide⟩,
   ⟨1, hot fun h => { h with ctlIn := [tok0] }, tok0, [], by dsimp only; decide⟩,
   ⟨1, 0x300, openRam State.reset, 1, by decide⟩,
   ⟨0x300, openRam State.reset, 1, by decide⟩,
   ⟨1, hot (fun h => { h with pace := ⟨true, some 0, 0xFFFF, 0⟩ }) (flds [(HRT_PACE_CTRL 1, HRT_PACE_CTRL_en, 1)]), 0,
       by dsimp only; decide⟩⟩

theorem met_SourcesRaisedAndConfigured :
  (∃ (s : State) (n : Fin 512),
    let edge : Prop := sourceExists n.val = true ∧ levelSource n.val = false ∧ gpioSource n.val = false
    s.awake = true ∧ edge ∧ srcAt s n.val = .idle) ∧
  (∃ (s : State) (n : Fin 512),
    let edge : Prop := sourceExists n.val = true ∧ levelSource n.val = false ∧ gpioSource n.val = false
    s.awake = true ∧ edge ∧ srcAt s n.val = .active) ∧
  (∃ (s : State) (n : Fin 512),
    let edge : Prop := sourceExists n.val = true ∧ levelSource n.val = false ∧ gpioSource n.val = false
    s.awake = true ∧ edge ∧ (srcAt s n.val = .pending ∨ srcAt s n.val = .activeAgain)) ∧
  (∃ (s : State) (n : Fin 512) (h : Nat),
    let edge : Prop := sourceExists n.val = true ∧ levelSource n.val = false ∧ gpioSource n.val = false
    let ctl := MSIX_CTRL (s.fld (EVC_TGT_CFG_X (h - 4)) EVC_TGT_CFG_X_vector)
    s.awake = true ∧ edge ∧ 4 ≤ h ∧ h < 8 ∧ s.tgtMsix h = true ∧ s.line h = false ∧ s.pcie.msixEn = true ∧
        s.pcie.busMaster = true ∧ s.pcie.funcMask = false ∧ s.pcie.d3hot = false ∧ s.bit ctl MSIX_CTRL_mask = false) ∧
  (∃ (m : Mid) (s : State) (v : Word),
    s.awake = true ∧ s.isSup m.val = true ∧ s.noneWaits m.val = true ∧ v.getLsbD 0 = true ∧ srcAt s 472 = .idle) ∧
  (∃ (m : Mid) (s : State) (n : Fin 512),
    s.awake = true ∧ s.isSup m.val = true ∧ s.noneWaits m.val = true ∧ sourceExists n.val = true ∧
        gpioSource n.val = false ∧ (s.srcState n.val = .idle ∨ s.srcState n.val = .pending)) ∧
  (∃ (m : Mid) (s : State) (n : Fin 512),
    s.awake = true ∧ s.isSup m.val = true ∧ s.noneWaits m.val = true ∧ sourceExists n.val = true ∧
        gpioSource n.val = false ∧ (s.srcState n.val = .active ∨ s.srcState n.val = .activeAgain)) ∧
  (∃ (m : Mid) (s : State) (n : Fin 512) (v : Word),
    s.awake = true ∧ s.isSup m.val = true ∧ s.noneWaits m.val = true ∧ gpioSource n.val = true ∧ 5 ≤ v.toNat / 2 ^ 8 % 8) ∧
  (∃ (m : Mid) (s : State) (t : Fin 8) (v : Word),
    let cfg := EVC_TGT_CFG_H t.val
    let who := v.toNat % 256
    let en := v.getLsbD 8
    s.awake = true ∧ s.isSup m.val = true ∧ s.noneWaits m.val = true ∧ t.val < 4 ∧ (192 ≤ who ∨ (en = true ∧
        (s.hearthSup who = false ∨ ∃ u, u < 4 ∧ u ≠ t.val ∧ s.bit (EVC_TGT_CFG_H u) EVC_TGT_CFG_H_en = true ∧
        s.fld (EVC_TGT_CFG_H u) EVC_TGT_CFG_H_hearth = who)) ∨ (s.stackOf t.val ≠ [] ∧
        (who ≠ s.fld cfg EVC_TGT_CFG_H_hearth ∨ en ≠ s.bit cfg EVC_TGT_CFG_H_en)))) ∧
  (∃ (m : Mid) (s : State) (t : Fin 8) (v : Word),
    let who := v.toNat % 256
    let en := v.getLsbD 8
    s.awake = true ∧ s.isSup m.val = true ∧ s.noneWaits m.val = true ∧ t.val < 4 ∧ who < 192 ∧ en = false ∧
        s.stackOf t.val = []) ∧
  (∃ (m : Mid) (s : State) (t : Fin 8),
    s.awake = true ∧ s.isSup m.val = true ∧ s.noneWaits m.val = true ∧ 4 ≤ t.val) :=
  ⟨⟨State.reset, 472, by unfold srcAt; dsimp only; decide⟩,
   ⟨{ State.reset with evc := { State.reset.evc with src := [(1, .active)] } }, 1, by unfold srcAt; dsimp only; decide⟩,
   ⟨{ State.reset with evc := { State.reset.evc with src := [(471, .activeAgain)] } }, 471,
       by unfold srcAt; dsimp only; decide⟩,
   ⟨{ flds [(EVC_TGT_CFG_X 3, EVC_TGT_CFG_X_mode, 1), (MSIX_CTRL 0, MSIX_CTRL_mask, 0)] State.reset with pcie := ⟨false, true, true, false, false⟩ }, 472, 7, by dsimp only; decide +kernel⟩,
   ⟨0x300, State.reset, 1, by unfold srcAt; decide⟩,
   ⟨0x300, State.reset, 461, by decide⟩,
   ⟨0x300, { State.reset with evc := { State.reset.evc with src := [(472, .activeAgain)] } }, 472, by decide⟩,
   ⟨0x300, State.reset, 488, 0x500, by decide⟩,
   ⟨0x300, State.reset, 3, 192, by dsimp only; decide⟩,
   ⟨0x300, State.reset, 3, 191, by dsimp only; decide⟩,
   ⟨0x300, State.reset, 4, by decide⟩⟩

theorem met_ClaimsCompletionsAndOffsides :
  (∃ (m : Mid) (s : State) (t : Fin 8) (n : Nat),
    let best : Prop := n < 512 ∧ delivers s t.val n ∧ ∀ k,
        k < 512 → delivers s t.val k → s.prioOf k < s.prioOf n ∨ (s.prioOf k = s.prioOf n ∧ n ≤ k)
    s.awake = true ∧ s.isSup m.val = true ∧ s.noneWaits m.val = true ∧ best) ∧
  (∃ (m : Mid) (s : State) (t : Fin 8),
    s.awake = true ∧ s.isSup m.val = true ∧ s.noneWaits m.val = true ∧ (∀ k, k < 512 → ¬delivers s t.val k)) ∧
  (∃ (m : Mid) (s : State) (t : Fin 8),
    s.awake = true ∧ s.isSup m.val = true ∧ s.noneWaits m.val = true ∧ s.isFrozen t.val = true) ∧
  (∃ (m : Mid) (s : State) (t : Fin 8) (v : Word) (n : Nat) (p : Nat) (rest : List (Nat × Nat)),
    let edge : Prop := s.isLevel n = false ∧ tabGet deferredDefault s.evc.deferred n = none
    s.awake = true ∧ s.isSup m.val = true ∧ s.noneWaits m.val = true ∧ s.isFrozen t.val = false ∧ s.stackOf t.val = (n,
        p) :: rest ∧ v.toNat % 512 = n ∧ edge) ∧
  (∃ (m : Mid) (s : State) (t : Fin 8) (v : Word),
    let exp : Nat := match s.stackOf t.val with | [] => 0 | e :: _ => e.1
    s.awake = true ∧ s.isSup m.val = true ∧ s.noneWaits m.val = true ∧ s.isFrozen t.val = false ∧
        (s.stackOf t.val = [] ∨ v.toNat % 512 ≠ exp) ∧ srcAt s 471 = .idle) ∧
  (∃ (m : Mid) (s : State) (t : Fin 8) (v : Word) (n : Nat) (p : Nat),
    let edge : Prop := s.isLevel n = false ∧ tabGet deferredDefault s.evc.deferred n = none
    s.awake = true ∧ s.isSup m.val = true ∧ s.noneWaits m.val = true ∧ v.getLsbD 0 = true ∧ s.stackOf t.val = [(n, p)] ∧
        edge) ∧
  (∃ (m : Mid) (s : State) (t : Fin 8) (v : Word),
    s.awake = true ∧ s.isSup m.val = true ∧ s.noneWaits m.val = true ∧ v.getLsbD 0 = true ∧ s.stackOf t.val = []) :=
  ⟨⟨0x300, { flds [(EVC_SRC_CFG 472, EVC_SRC_CFG_en, 1), (EVC_SRC_CFG 472, EVC_SRC_CFG_prio, 3)] State.reset with evc := { State.reset.evc with src := [(472, .pending)] } }, 0, 472, by unfold delivers; dsimp only; decide +kernel⟩,
   ⟨0x300, State.reset, 7, by unfold delivers; decide +kernel⟩,
   ⟨0x300, { State.reset with evc := { State.reset.evc with frozen := [(0, true)] } }, 0, by decide⟩,
   ⟨0x300, { State.reset with evc := { State.reset.evc with stack := [(0, [(472, 3)])] } }, 0, 472, 472, 3, [],
       by dsimp only; decide⟩,
   ⟨0x300, State.reset, 0, 472, by unfold srcAt; dsimp only; decide⟩,
   ⟨0x300, { State.reset with evc := { State.reset.evc with stack := [(0, [(472, 3)])] } }, 0, 1, 472, 3,
       by dsimp only; decide⟩,
   ⟨0x300, State.reset, 7, 1, by decide⟩⟩

theorem met_TokensHopAndReachSinks :
  (∃ (r : HearthId) (inp : FPort) (out : FPort) (s : State) (tok : Token) (left : List Token) (r2 : Nat),
    let o := s.hearth r.val
    let entry (g : FTok) : Nat := s.routeEntry g.bank r.val g.tok.ctag
    let names (g : FTok) (i p : FPort) : Prop := entry g / 2 ^ portCode p % 2 = 1 ∧ allowedOut r.val i p = true
    let only (g : FTok) (i p : FPort) : Prop := ∀ x, names g i x ↔ x = p
    let g : FTok := ⟨tok, s.activeBank, none⟩
    let table (k : TokKind) : Prop := k = .audio ∨ k = .event
    s.awake = true ∧ s.quiet = true ∧ inp ≠ .l ∧ (neighbour r.val inp).isSome = true ∧ out ≠ .l ∧
        neighbour r.val out = some r2 ∧ o.out = tok :: left ∧ table tok.kind ∧
        s.bit (HRT_FENCE r.val) HRT_FENCE_gate = false ∧ s.bufOf false r.val .l = [] ∧ only g .l out ∧
        (s.bufOf false r2 (opposite out)).length < 2 ∧ s.outTurn false r.val .l out = true) ∧
  (∃ (r : HearthId) (inp : FPort) (out : FPort) (s : State) (f : FTok) (rest : List FTok) (r2 : Nat),
    let entry (g : FTok) : Nat := s.routeEntry g.bank r.val g.tok.ctag
    let names (g : FTok) (i p : FPort) : Prop := entry g / 2 ^ portCode p % 2 = 1 ∧ allowedOut r.val i p = true
    let only (g : FTok) (i p : FPort) : Prop := ∀ x, names g i x ↔ x = p
    let table (k : TokKind) : Prop := k = .audio ∨ k = .event
    s.awake = true ∧ s.quiet = true ∧ inp ≠ .l ∧ (neighbour r.val inp).isSome = true ∧ out ≠ .l ∧
        s.bufOf false r.val inp = f :: rest ∧ f.outs = none ∧ table f.tok.kind ∧ only f inp out ∧
        neighbour r.val out = some r2 ∧ (r2, opposite out) ≠ (r.val, inp) ∧
        (s.bufOf false r2 (opposite out)).length < 2 ∧ s.outTurn false r.val inp out = true) ∧
  (∃ (r : HearthId) (inp : FPort) (out : FPort) (s : State) (f : FTok) (rest : List FTok) (r2 : Nat),
    let entry (g : FTok) : Nat := s.routeEntry g.bank r.val g.tok.ctag
    let names (g : FTok) (i p : FPort) : Prop := entry g / 2 ^ portCode p % 2 = 1 ∧ allowedOut r.val i p = true
    let only (g : FTok) (i p : FPort) : Prop := ∀ x, names g i x ↔ x = p
    let table (k : TokKind) : Prop := k = .audio ∨ k = .event
    s.awake = true ∧ s.quiet = true ∧ inp ≠ .l ∧ (neighbour r.val inp).isSome = true ∧ out ≠ .l ∧
        s.bufOf false r.val inp = f :: rest ∧ f.outs = none ∧ table f.tok.kind ∧ only f inp out ∧
        neighbour r.val out = some r2 ∧ (r2, opposite out) ≠ (r.val, inp) ∧
        (2 ≤ (s.bufOf false r2 (opposite out)).length ∨ s.outTurn false r.val inp out = false)) ∧
  (∃ (r : HearthId) (inp : FPort) (out : FPort) (s : State) (f : FTok) (rest : List FTok),
    let o := s.hearth r.val
    let entry (g : FTok) : Nat := s.routeEntry g.bank r.val g.tok.ctag
    let names (g : FTok) (i p : FPort) : Prop := entry g / 2 ^ portCode p % 2 = 1 ∧ allowedOut r.val i p = true
    let only (g : FTok) (i p : FPort) : Prop := ∀ x, names g i x ↔ x = p
    let table (k : TokKind) : Prop := k = .audio ∨ k = .event
    let q := entry f / 2 ^ 5 % 4
    s.awake = true ∧ s.quiet = true ∧ inp ≠ .l ∧ (neighbour r.val inp).isSome = true ∧ out ≠ .l ∧
        s.bufOf false r.val inp = f :: rest ∧ f.outs = none ∧ table f.tok.kind ∧ only f inp .l ∧ s.paceOn r.val = false ∧
        (o.queue q).length < 8 ∧ s.outTurn false r.val inp .l = true) ∧
  (∃ (r : HearthId) (inp : FPort) (out : FPort) (s : State) (f : FTok) (rest : List FTok),
    let o := s.hearth r.val
    let entry (g : FTok) : Nat := s.routeEntry g.bank r.val g.tok.ctag
    let names (g : FTok) (i p : FPort) : Prop := entry g / 2 ^ portCode p % 2 = 1 ∧ allowedOut r.val i p = true
    let only (g : FTok) (i p : FPort) : Prop := ∀ x, names g i x ↔ x = p
    let table (k : TokKind) : Prop := k = .audio ∨ k = .event
    let q := entry f / 2 ^ 5 % 4
    s.awake = true ∧ s.quiet = true ∧ inp ≠ .l ∧ (neighbour r.val inp).isSome = true ∧ out ≠ .l ∧
        s.bufOf false r.val inp = f :: rest ∧ f.outs = none ∧ table f.tok.kind ∧ only f inp .l ∧ s.paceOn r.val = false ∧
        8 ≤ (o.queue q).length) ∧
  (∃ (r : HearthId) (inp : FPort) (out : FPort) (s : State) (f : FTok) (rest : List FTok) (st : Nat),
    let entry (g : FTok) : Nat := s.routeEntry g.bank r.val g.tok.ctag
    let names (g : FTok) (i p : FPort) : Prop := entry g / 2 ^ portCode p % 2 = 1 ∧ allowedOut r.val i p = true
    let only (g : FTok) (i p : FPort) : Prop := ∀ x, names g i x ↔ x = p
    let table (k : TokKind) : Prop := k = .audio ∨ k = .event
    s.awake = true ∧ s.quiet = true ∧ inp ≠ .l ∧ (neighbour r.val inp).isSome = true ∧ out ≠ .l ∧
        s.bufOf false r.val inp = f :: rest ∧ f.outs = none ∧ table f.tok.kind ∧ only f inp out ∧
        neighbour r.val out = none ∧ stationAt false r.val out = some st ∧ s.outTurn false r.val inp out = true) ∧
  (∃ (r : HearthId) (inp : FPort) (out : FPort) (s : State) (f : FTok) (rest : List FTok),
    let entry (g : FTok) : Nat := s.routeEntry g.bank r.val g.tok.ctag
    let names (g : FTok) (i p : FPort) : Prop := entry g / 2 ^ portCode p % 2 = 1 ∧ allowedOut r.val i p = true
    let table (k : TokKind) : Prop := k = .audio ∨ k = .event
    s.awake = true ∧ s.quiet = true ∧ inp ≠ .l ∧ (neighbour r.val inp).isSome = true ∧ out ≠ .l ∧
        s.bufOf false r.val inp = f :: rest ∧ f.outs = none ∧ table f.tok.kind ∧ (∀ x, ¬names f inp x)) ∧
  (∃ (r : HearthId) (inp : FPort) (out : FPort) (s : State) (f : FTok) (rest : List FTok),
    s.awake = true ∧ s.quiet = true ∧ inp ≠ .l ∧ (neighbour r.val inp).isSome = true ∧ out ≠ .l ∧
        s.bufOf false r.val inp = f :: rest ∧ f.outs = none ∧ f.tok.kind = .param ∧ f.tok.ctag % 256 = r.val ∧
        f.tok.ctag / 256 < 4 ∧ s.outTurn false r.val inp .l = true) :=
  ⟨⟨1, .s, .e, hot (fun h => { h with out := [tok0] }) fun s => s.setRoute false 1 0 4, tok0, [], 2,
      by dsimp only; and_intros <;> first | decide | (intro x; cases x <;> decide)⟩,
   ⟨1, .w, .e, routed 1 .w tok0 4, ⟨tok0, false, none⟩, [], 2,
       by dsimp only; and_intros <;> first | decide | (intro x; cases x <;> decide)⟩,
   ⟨1, .w, .e, (routed 1 .w tok0 4).setBuf false 2 .w [⟨tok0, false, none⟩, ⟨tok0, false, none⟩], ⟨tok0, false, none⟩, [],
       2, by dsimp only; and_intros <;> first | decide | (intro x; cases x <;> decide)⟩,
   ⟨1, .w, .e, routed 1 .w tok0 97, ⟨tok0, false, none⟩, [],
       by dsimp only; and_intros <;> first | decide | (intro x; cases x <;> decide)⟩,
   ⟨1, .w, .e, (routed 1 .w tok0 97).modHearth 1 fun h => h.setQueue 3 (List.replicate 8 tok0), ⟨tok0, false, none⟩, [],
       by dsimp only; and_intros <;> first | decide | (intro x; cases x <;> decide)⟩,
   ⟨0, .e, .w, routed 0 .e tok0 16, ⟨tok0, false, none⟩, [], 0,
       by dsimp only; and_intros <;> first | decide | (intro x; cases x <;> decide)⟩,
   ⟨1, .w, .e, routed 1 .w tok0 0, ⟨tok0, false, none⟩, [],
       by dsimp only; and_intros <;> first | decide | (intro x; cases x <;> decide)⟩,
   ⟨1, .w, .e, routed 1 .w { tok0 with kind := .param, ctag := 769 } 0,
       ⟨{ tok0 with kind := .param, ctag := 769 }, false, none⟩, [], by decide⟩⟩

theorem met_RouteTablesSwapped :
  (∃ (m : Mid) (s : State),
    let armed := s.routeArmed
    let copying := s.routeCopying
    s.awake = true ∧ s.isSup m.val = true ∧ s.windowFree m.val = true ∧ armed = false ∧ copying = false) ∧
  (∃ (m : Mid) (s : State),
    let armed := s.routeArmed
    let copying := s.routeCopying
    s.awake = true ∧ s.isSup m.val = true ∧ s.windowFree m.val = true ∧ (armed = true ∨ copying = true)) ∧
  (∃ (m : Mid) (v : Word) (s : State) (l : Bool),
    let armed := s.routeArmed
    let copying := s.routeCopying
    let key := (s.reg FLUE_RT_KEY_LO).toNat + s.fld FLUE_RT_KEY_HI FLUE_RT_KEY_HI_key * 2 ^ 32
    let past := (key + 2 ^ 48 - s.rallyCount) % 2 ^ 48 = 0 ∨ 2 ^ 47 ≤ (key + 2 ^ 48 - s.rallyCount) % 2 ^ 48
    s.awake = true ∧ s.isSup m.val = true ∧ s.noneWaits m.val = true ∧ v.toNat % 4 = 1 ∧ copying = false ∧
        armed = false ∧ (l = true ↔ past)) ∧
  (∃ (m : Mid) (v : Word) (s : State),
    let copying := s.routeCopying
    s.awake = true ∧ s.isSup m.val = true ∧ s.noneWaits m.val = true ∧ (v.toNat % 4 = 3 ∨ (v.toNat % 4 = 1 ∧
        copying = true))) ∧
  (∃ (s : State) (late : Bool),
    s.awake = true ∧ s.pwr.xoLost = false ∧ s.pwr.hold = false ∧ s.flue.swapDue = some late) ∧
  (∃ (s : State),
    let bank := s.activeBank
    let copying := s.routeCopying
    s.awake = true ∧ copying = true ∧ (∀ e ∈ s.flue.routes, e.1 < 2 * 192 * 4096) ∧ (∀ e ∈ s.flue.bufs, ∀ x ∈ e.2,
        (x.tok.kind = .audio ∨ x.tok.kind = .event) → x.bank = bank)) ∧
  (∃ (r : HearthId) (s : State) (out : FPort) (inp : FPort) (tag : Fin 4096) (mv : Bool) (f : FTok) (rest : List FTok),
    let seen := tabGet noPorts s.flue.stallSeen (bufKey mv r.val inp)
    s.awake = true ∧ s.pwr.xoLost = false ∧ s.fld FLUE_STALL FLUE_STALL_limit ≠ 0 ∧ s.bufOf mv r.val inp = f :: rest ∧
        f.tok.ctag = tag.val ∧ out ∈ s.waitsFor r.val inp f ∧ out ∉ seen) :=
  ⟨⟨0x300, openRam State.reset, by dsimp only; decide⟩,
   ⟨0x300, flds [(FLUE_RT_STAT, FLUE_RT_STAT_copying, 1)] (openRam State.reset), by dsimp only; decide⟩,
   ⟨0x300, 1, State.reset, true, by dsimp only; decide⟩,
   ⟨0x300, 3, State.reset, by dsimp only; decide⟩,
   ⟨{ State.reset with flue := { State.reset.flue with swapDue := some true } }, true, by decide⟩,
   ⟨flds [(FLUE_RT_STAT, FLUE_RT_STAT_copying, 1)] { State.reset with flue := { State.reset.flue with routes := [(0, 1)], bufs := [(0, [⟨tok0, false, none⟩])] } }, by dsimp only; decide⟩,
   ⟨0, { flds [(FLUE_STALL, FLUE_STALL_limit, 1)] State.reset with flue := { State.reset.flue with bufs := [(0, [⟨tok0, false, some [.e]⟩])] } }, .e, .l, 0, false, ⟨tok0, false, some [.e]⟩, [], by dsimp only; decide⟩⟩

theorem met_ReferenceSelection :
  (∃ (s : State),
    s.awake = true ∧ s.pwr.xoLost = false ∧ s.inLight = false) :=
  ⟨State.reset, by decide⟩

theorem met_MediaClockSteering :
  (∃ (s : State) (us : Nat),
    s.awake = true ∧ s.pwr.xoLost = false ∧ s.inLight = false ∧ 0 < us ∧ (-130000000000 ≤ s.rsg.w ∧
        s.rsg.w ≤ 130000000000)) ∧
  (∃ (s : State),
    let st := s.fld RSG_STATE RSG_STATE_state
    let cand := s.fld RSG_STATE RSG_STATE_cand
    s.awake = true ∧ s.pwr.xoLost = false ∧ s.inLight = false ∧ st = 2 ∧ (¬(14 ≤ cand ∧ cand ≤ 17))) ∧
  (∃ (s : State),
    let used := (s.rsg.hist.drop (s.fld RSG_HOLD_CFG RSG_HOLD_CFG_guard)).take (s.fld RSG_HIST_COUNT RSG_HIST_COUNT_avg)
    let now := signed 16 s.tempNow.toNat
    let x : RsgSpan := match s.rsg.span with | none => ⟨s.rsg.w, s.rsg.w, now, now⟩ | some y => ⟨min y.wLo s.rsg.w,
        max y.wHi s.rsg.w, min y.tLo now, max y.tHi now⟩
    s.awake = true ∧ s.pwr.xoLost = false ∧ s.inLight = false ∧ used ≠ [] ∧ s.bit RSG_CTRL RSG_CTRL_policy = false ∧
        (∀ x ∈ used, -130000000000 ≤ x.w ∧ x.w ≤ 130000000000)) ∧
  (∃ (s : State),
    let st := s.fld RSG_STATE RSG_STATE_state
    s.awake = true ∧ s.pwr.xoLost = false ∧ s.inLight = false ∧ st = 3) ∧
  (∃ (s : State),
    s.awake = true ∧ s.pwr.xoLost = false ∧ s.bit RSG_CTRL RSG_CTRL_temp_src = true) ∧
  (∃ (s : State) (m : Mid) (v : Word),
    let en := s.bit RSG_CTRL RSG_CTRL_en
    let same : Prop := v.toNat / 2 % 8 = (s.reg RSG_CTRL).toNat / 2 % 8
    s.awake = true ∧ s.pwr.xoLost = false ∧ s.isSup m.val = true ∧ s.noneWaits m.val = true ∧
        (v.toNat / 4 % 4 = 3 ∨ (en = true ∧ ¬same))) ∧
  (∃ (s : State) (m : Mid) (v : Word),
    let same : Prop := v.toNat / 2 % 8 = (s.reg RSG_CTRL).toNat / 2 % 8
    s.awake = true ∧ s.pwr.xoLost = false ∧ s.isSup m.val = true ∧ s.noneWaits m.val = true ∧ v.toNat / 4 % 4 ≠ 3 ∧
        same ∧ (v.getLsbD 6 = false ∨ s.bit RSG_CTRL RSG_CTRL_tbl_freeze = true)) ∧
  (∃ (s : State) (m : Mid) (v : Word) (e : Fin 8),
    let bad : Prop := 18 < RSG_PRIO_cand.get v ∨ 3600 < RSG_PRIO_wtr.get v ∨ (RSG_PRIO_en.get v = 1 ∧ ∃ f, f < 8 ∧
        f ≠ e.val ∧ s.fld (RSG_PRIO f) RSG_PRIO_en = 1 ∧ s.fld (RSG_PRIO f) RSG_PRIO_cand = RSG_PRIO_cand.get v)
    s.awake = true ∧ s.pwr.xoLost = false ∧ s.isSup m.val = true ∧ s.noneWaits m.val = true ∧ bad) ∧
  (∃ (s : State) (m : Mid) (v : Word) (e : Fin 8),
    let bad : Prop := 18 < RSG_PRIO_cand.get v ∨ 3600 < RSG_PRIO_wtr.get v ∨ (RSG_PRIO_en.get v = 1 ∧ ∃ f, f < 8 ∧
        f ≠ e.val ∧ s.fld (RSG_PRIO f) RSG_PRIO_en = 1 ∧ s.fld (RSG_PRIO f) RSG_PRIO_cand = RSG_PRIO_cand.get v)
    s.awake = true ∧ s.pwr.xoLost = false ∧ s.isSup m.val = true ∧ s.noneWaits m.val = true ∧ (¬bad)) :=
  ⟨⟨{ State.reset with rsg := { State.reset.rsg with w := 130000000000 } }, 1, by decide⟩,
   ⟨wr [(RSG_STATE, RSG_STATE_state, 2), (RSG_STATE, RSG_STATE_cand, 18)], by dsimp only; decide⟩,
   ⟨{ wr [(RSG_HOLD_CFG, RSG_HOLD_CFG_guard, 0), (RSG_HIST_COUNT, RSG_HIST_COUNT_avg, 1)] with rsg := { State.reset.rsg with hist := [⟨-130000000000, 0, 0⟩] } }, by dsimp only; decide⟩,
   ⟨wr [(RSG_STATE, RSG_STATE_state, 3)], by dsimp only; decide⟩,
   ⟨wr [(RSG_CTRL, RSG_CTRL_temp_src, 1)], by decide⟩,
   ⟨State.reset, 0x300, 0xC, by dsimp only; decide⟩,
   ⟨State.reset, 0x300, State.reset.reg RSG_CTRL, by dsimp only; decide⟩,
   ⟨State.reset, 0x300, RSG_PRIO_wtr.set 0 3601, 7, by dsimp only; decide⟩,
   ⟨State.reset, 0x300, RSG_PRIO_wtr.set 18 3600, 7, by dsimp only; decide⟩⟩

theorem met_PtpServos :
  (∃ (s : State) (d : Fin 2) (seq : BitVec 16) (t2 : Int) (c : Int),
    let v := s.servo d.val
    let cfg := TSU_SRV_CFG d.val
    let on := s.bit cfg TSU_SRV_CFG_en
    s.awake = true ∧ s.pwr.xoLost = false ∧ s.bit TSU_DEUCE_CTRL TSU_DEUCE_CTRL_en = false ∧ s.inLight = false ∧
        on = true ∧ v.sync = some (seq.toNat, c, t2)) ∧
  (∃ (s : State) (d : Fin 2) (seq : BitVec 16) (t1 : Int) (t2 : Int) (q4 : Int),
    let v := s.servo d.val
    let cfg := TSU_SRV_CFG d.val
    let on := s.bit cfg TSU_SRV_CFG_en
    let p2p := s.bit cfg TSU_SRV_CFG_delay
    s.awake = true ∧ s.pwr.xoLost = false ∧ s.bit TSU_DEUCE_CTRL TSU_DEUCE_CTRL_en = false ∧ s.inLight = false ∧
        on = true ∧ p2p = false ∧ v.req = some (seq.toNat, q4) ∧ v.last = some (t1, t2)) ∧
  (∃ (s : State) (d : Fin 2) (seq : BitVec 16) (t1 : Int) (t2 : Int) (c : Int) (q4 : Int),
    let v := s.servo d.val
    let cfg := TSU_SRV_CFG d.val
    let on := s.bit cfg TSU_SRV_CFG_en
    let p2p := s.bit cfg TSU_SRV_CFG_delay
    s.awake = true ∧ s.pwr.xoLost = false ∧ s.bit TSU_DEUCE_CTRL TSU_DEUCE_CTRL_en = false ∧ s.inLight = false ∧
        on = true ∧ p2p = true ∧ v.req = some (seq.toNat, q4) ∧ v.resp = some (seq.toNat, t2, c, t1)) ∧
  (∃ (s : State) (d : Fin 2) (p : Fin 2) (dom : BitVec 7),
    let cfg := TSU_SRV_CFG d.val
    let port := s.fld cfg TSU_SRV_CFG_port
    let on := s.bit cfg TSU_SRV_CFG_en
    let p2p := s.bit cfg TSU_SRV_CFG_delay
    s.awake = true ∧ s.pwr.xoLost = false ∧ s.bit TSU_DEUCE_CTRL TSU_DEUCE_CTRL_en = false ∧ s.inLight = false ∧
        on = true ∧ p2p = true ∧ port = p.val ∧ s.fld cfg TSU_SRV_CFG_domain = dom.toNat) ∧
  (∃ (s : State) (d : Fin 2),
    let st := s.fld (TSU_SRV_STATE d.val) TSU_SRV_STATE_state
    s.awake = true ∧ s.pwr.xoLost = false ∧ s.bit TSU_DEUCE_CTRL TSU_DEUCE_CTRL_en = false ∧ st = 2) ∧
  (∃ (s : State) (d : Fin 2),
    let st := s.fld (TSU_SRV_STATE d.val) TSU_SRV_STATE_state
    s.awake = true ∧ s.pwr.xoLost = false ∧ s.bit TSU_DEUCE_CTRL TSU_DEUCE_CTRL_en = false ∧ st = 3) ∧
  (∃ (s : State) (m : Mid) (w : Word),
    let ls := w.toNat / 2 ^ 16 % 16
    let ld := w.toNat / 2 ^ 20 % 16
    s.awake = true ∧ s.pwr.xoLost = false ∧ s.bit TSU_DEUCE_CTRL TSU_DEUCE_CTRL_en = false ∧ s.isSup m.val = true ∧
        s.noneWaits m.val = true ∧ ((4 < ls ∧ ls < 9) ∨ (5 < ld ∧ ld < 9))) ∧
  (∃ (s : State) (d : Fin 2) (m : Mid) (w : Word),
    let cfg := TSU_SRV_CFG d.val
    let on := s.bit cfg TSU_SRV_CFG_en
    let ls := w.toNat / 2 ^ 16 % 16
    let ld := w.toNat / 2 ^ 20 % 16
    s.awake = true ∧ s.pwr.xoLost = false ∧ s.bit TSU_DEUCE_CTRL TSU_DEUCE_CTRL_en = false ∧ s.isSup m.val = true ∧
        s.noneWaits m.val = true ∧ (¬(4 < ls ∧ ls < 9)) ∧ (¬(5 < ld ∧ ld < 9)) ∧ on = false) :=
  ⟨⟨(wr [(TSU_SRV_CFG 1, TSU_SRV_CFG_en, 1)]).setServo 1 { srv0 with sync := some (65535, 0, 0) }, 1, 0xFFFF, 0, 0,
      by dsimp only; decide⟩,
   ⟨(wr [(TSU_SRV_CFG 0, TSU_SRV_CFG_en, 1)]).setServo 0 { srv0 with req := some (1, 0), last := some (0, 0) }, 0, 1, 0, 0,
       0, by dsimp only; decide⟩,
   ⟨(wr [(TSU_SRV_CFG 0, TSU_SRV_CFG_en, 1), (TSU_SRV_CFG 0, TSU_SRV_CFG_delay,
       1)]).setServo 0 { srv0 with req := some (1, 0), resp := some (1, 0, 0, 0) }, 0, 1, 0, 0, 0, 0,
       by dsimp only; decide⟩,
   ⟨wr [(TSU_SRV_CFG 1, TSU_SRV_CFG_en, 1), (TSU_SRV_CFG 1, TSU_SRV_CFG_delay, 1), (TSU_SRV_CFG 1, TSU_SRV_CFG_port, 1),
       (TSU_SRV_CFG 1, TSU_SRV_CFG_domain, 127)], 1, 1, 127, by dsimp only; decide⟩,
   ⟨wr [(TSU_SRV_STATE 1, TSU_SRV_STATE_state, 2)], 1, by dsimp only; decide⟩,
   ⟨wr [(TSU_SRV_STATE 1, TSU_SRV_STATE_state, 3)], 1, by dsimp only; decide⟩,
   ⟨State.reset, 0x300, 0x80000, by dsimp only; decide⟩,
   ⟨State.reset, 0, 0x300, 0x940000, by dsimp only; decide⟩⟩

theorem met_DeuceAndRallyCount :
  (∃ (s : State) (m : Mid) (v : Word),
    let a := s.fld TSU_DEUCE_STAT TSU_DEUCE_STAT_active
    let b := v.toNat / 2 % 2
    let sel := v.toNat / 4 % 4
    let st (d : Nat) : Nat := s.fld (TSU_SRV_STATE d) TSU_SRV_STATE_state
    let bad : Prop := sel = 3 ∨ 3600 < v.toNat / 2 ^ 16 % 2 ^ 12
    let off : Prop := sel = 0 ∧ b ≠ a
    s.awake = true ∧ s.pwr.xoLost = false ∧ s.isSup m.val = true ∧ s.noneWaits m.val = true ∧ (bad ∨ (off ∧ st b ≠ 3))) ∧
  (∃ (s : State) (m : Mid) (v : Word),
    let a := s.fld TSU_DEUCE_STAT TSU_DEUCE_STAT_active
    let b := v.toNat / 2 % 2
    let sel := v.toNat / 4 % 4
    let st (d : Nat) : Nat := s.fld (TSU_SRV_STATE d) TSU_SRV_STATE_state
    let bad : Prop := sel = 3 ∨ 3600 < v.toNat / 2 ^ 16 % 2 ^ 12
    let off : Prop := sel = 0 ∧ b ≠ a
    s.awake = true ∧ s.pwr.xoLost = false ∧ s.isSup m.val = true ∧ s.noneWaits m.val = true ∧ (¬bad) ∧ off ∧ st b = 3 ∧
        v.getLsbD 0 = true ∧ v.getLsbD 5 = true) ∧
  (∃ (s : State) (m : Mid) (v : Word),
    let a := s.fld TSU_DEUCE_STAT TSU_DEUCE_STAT_active
    let b := v.toNat / 2 % 2
    let sel := v.toNat / 4 % 4
    let new := s.servo b
    let st (d : Nat) : Nat := s.fld (TSU_SRV_STATE d) TSU_SRV_STATE_state
    let bad : Prop := sel = 3 ∨ 3600 < v.toNat / 2 ^ 16 % 2 ^ 12
    let off : Prop := sel = 0 ∧ b ≠ a
    s.awake = true ∧ s.pwr.xoLost = false ∧ s.isSup m.val = true ∧ s.noneWaits m.val = true ∧ (¬bad) ∧ off ∧ st b = 3 ∧
        v.getLsbD 0 = true ∧ v.getLsbD 5 = false ∧ new.offs ≠ 0 ∧ new.offs.natAbs ≤ 10000 * (v.toNat / 2 ^ 8 % 2 ^ 8)) ∧
  (∃ (s : State) (m : Mid) (v : Word),
    let a := s.fld TSU_DEUCE_STAT TSU_DEUCE_STAT_active
    let b := v.toNat / 2 % 2
    let sel := v.toNat / 4 % 4
    let st (d : Nat) : Nat := s.fld (TSU_SRV_STATE d) TSU_SRV_STATE_state
    let bad : Prop := sel = 3 ∨ 3600 < v.toNat / 2 ^ 16 % 2 ^ 12
    let off : Prop := sel = 0 ∧ b ≠ a
    s.awake = true ∧ s.pwr.xoLost = false ∧ s.isSup m.val = true ∧ s.noneWaits m.val = true ∧ (¬bad) ∧ off ∧ st b = 3 ∧
        v.getLsbD 0 = false) ∧
  (∃ (s : State) (m : Mid) (v : Word),
    let a := s.fld TSU_DEUCE_STAT TSU_DEUCE_STAT_active
    let b := v.toNat / 2 % 2
    let sel := v.toNat / 4 % 4
    let bad : Prop := sel = 3 ∨ 3600 < v.toNat / 2 ^ 16 % 2 ^ 12
    let off : Prop := sel = 0 ∧ b ≠ a
    s.awake = true ∧ s.pwr.xoLost = false ∧ s.isSup m.val = true ∧ s.noneWaits m.val = true ∧ (¬bad) ∧ (¬off) ∧ sel = 0 ∧
        s.tsu.rallyOffs ≠ 0) ∧
  (∃ (s : State),
    let a := s.fld TSU_DEUCE_STAT TSU_DEUCE_STAT_active
    let st (d : Nat) : Nat := s.fld (TSU_SRV_STATE d) TSU_SRV_STATE_state
    let prefer := s.fld TSU_DEUCE_CTRL TSU_DEUCE_CTRL_prefer
    s.awake = true ∧ s.pwr.xoLost = false ∧ s.fld TSU_DEUCE_CTRL TSU_DEUCE_CTRL_sel = 2 ∧ st prefer = 3 ∧ prefer ≠ a) ∧
  (∃ (s : State),
    let a := s.fld TSU_DEUCE_STAT TSU_DEUCE_STAT_active
    s.awake = true ∧ s.pwr.xoLost = false ∧ s.bit TSU_DEUCE_STAT TSU_DEUCE_STAT_slewing = true ∧ (s.servo a).offs = 0) ∧
  (∃ (s : State),
    let a := s.fld TSU_DEUCE_STAT TSU_DEUCE_STAT_active
    s.awake = true ∧ s.pwr.xoLost = false ∧ s.bit TSU_DEUCE_STAT TSU_DEUCE_STAT_slewing = true ∧ (s.servo a).offs ≠ 0) ∧
  (∃ (s : State),
    s.awake = true ∧ s.pwr.xoLost = false ∧ s.bit TSU_DEUCE_STAT TSU_DEUCE_STAT_rebasing = true ∧ s.tsu.rallyOffs = 0) ∧
  (∃ (s : State),
    s.awake = true ∧ s.pwr.xoLost = false ∧ s.bit TSU_DEUCE_STAT TSU_DEUCE_STAT_rebasing = true ∧ s.tsu.rallyOffs ≠ 0) ∧
  (∃ (s : State),
    s.awake = true ∧ s.pwr.xoLost = false ∧ (s.wideOf 1).load = none ∧ s.bit EMB_STAT EMB_STAT_xp_running = false ∧
        s.tsu.realign = false ∧ s.chm.realign = none) :=
  ⟨⟨State.reset, 0x300, 0xC, by dsimp only; decide⟩,
   ⟨wr [(TSU_SRV_STATE 1, TSU_SRV_STATE_state, 3)], 0x300, 0x23, by dsimp only; decide⟩,
   ⟨(wr [(TSU_SRV_STATE 1, TSU_SRV_STATE_state, 3)]).setServo 1 { srv0 with offs := -10000 }, 0x300, 0x103,
       by dsimp only; decide⟩,
   ⟨wr [(TSU_SRV_STATE 1, TSU_SRV_STATE_state, 3)], 0x300, 2, by dsimp only; decide⟩,
   ⟨{ State.reset with tsu := { State.reset.tsu with rallyOffs := -1 } }, 0x300, 0, by dsimp only; decide⟩,
   ⟨wr [(TSU_DEUCE_CTRL, TSU_DEUCE_CTRL_sel, 2), (TSU_DEUCE_CTRL, TSU_DEUCE_CTRL_prefer, 1),
       (TSU_SRV_STATE 1, TSU_SRV_STATE_state, 3)], by dsimp only; decide⟩,
   ⟨wr [(TSU_DEUCE_STAT, TSU_DEUCE_STAT_slewing, 1)], by dsimp only; decide⟩,
   ⟨(wr [(TSU_DEUCE_STAT, TSU_DEUCE_STAT_slewing, 1)]).setServo 0 { srv0 with offs := 1 }, by dsimp only; decide⟩,
   ⟨wr [(TSU_DEUCE_STAT, TSU_DEUCE_STAT_rebasing, 1)], by decide⟩,
   ⟨(wr [(TSU_DEUCE_STAT, TSU_DEUCE_STAT_rebasing, 1)]).modTsu fun t => { t with rallyOffs := -1 }, by decide⟩,
   ⟨{ State.reset with rallyCount := 2 ^ 48 - 1 }, by decide⟩⟩

theorem met_TriggersPulsesAndCaptures :
  (∃ (s : State) (m : Mid) (n : Fin 16) (v : Word),
    let c := TSU_TTRIG_CTRL n.val
    let word (w : Word) : Nat := w.toNat
    let period := word (s.reg (TSU_TTRIG_PERIOD n.val))
    let armed := s.bit c TSU_TTRIG_CTRL_arm
    let short : Prop := v.getLsbD 3 = true ∧ period < if v.getLsbD 2 then 5000 else 1
    s.awake = true ∧ s.pwr.xoLost = false ∧ s.isSup m.val = true ∧ s.noneWaits m.val = true ∧ armed = false ∧
        v.getLsbD 1 = false ∧ v.toNat / 2 ^ 4 % 8 ≤ 4 ∧ (¬short) ∧ v.getLsbD 2 = false) ∧
  (∃ (s : State) (m : Mid) (n : Fin 16) (v : Word),
    let c := TSU_TTRIG_CTRL n.val
    let word (w : Word) : Nat := w.toNat
    let period := word (s.reg (TSU_TTRIG_PERIOD n.val))
    let armed := s.bit c TSU_TTRIG_CTRL_arm
    let short : Prop := v.getLsbD 3 = true ∧ period < if v.getLsbD 2 then 5000 else 1
    s.awake = true ∧ s.pwr.xoLost = false ∧ s.isSup m.val = true ∧ s.noneWaits m.val = true ∧ armed = false ∧
        v.getLsbD 1 = false ∧ v.toNat / 2 ^ 4 % 8 ≤ 4 ∧ (¬short) ∧ v.getLsbD 2 = true) ∧
  (∃ (s : State) (m : Mid) (n : Fin 16) (v : Word),
    let c := TSU_TTRIG_CTRL n.val
    let armed := s.bit c TSU_TTRIG_CTRL_arm
    let same : Prop := s.reg c &&& 0x1F7C = v &&& 0x1F7C
    s.awake = true ∧ s.pwr.xoLost = false ∧ s.isSup m.val = true ∧ s.noneWaits m.val = true ∧ armed = true ∧ same ∧
        v.getLsbD 1 = false ∧ v.toNat / 2 ^ 4 % 8 ≤ 4) ∧
  (∃ (s : State) (m : Mid) (n : Fin 16) (v : Word),
    let c := TSU_TTRIG_CTRL n.val
    let word (w : Word) : Nat := w.toNat
    let period := word (s.reg (TSU_TTRIG_PERIOD n.val))
    let armed := s.bit c TSU_TTRIG_CTRL_arm
    let same : Prop := s.reg c &&& 0x1F7C = v &&& 0x1F7C
    let short : Prop := v.getLsbD 3 = true ∧ period < if v.getLsbD 2 then 5000 else 1
    s.awake = true ∧ s.pwr.xoLost = false ∧ s.isSup m.val = true ∧ s.noneWaits m.val = true ∧
        (v.getLsbD 1 = true ∨ 4 < v.toNat / 2 ^ 4 % 8 ∨ (armed = false ∧ short) ∨ (armed = true ∧ ¬same))) ∧
  (∃ (s : State) (m : Mid) (n : Fin 16) (v : Word),
    let c := TSU_TTRIG_CTRL n.val
    let armed := s.bit c TSU_TTRIG_CTRL_arm
    let same : Prop := s.reg c &&& 0x1F7C = v &&& 0x1F7C
    s.awake = true ∧ s.pwr.xoLost = false ∧ s.isSup m.val = true ∧ s.noneWaits m.val = true ∧ (armed = true → same) ∧
        v.getLsbD 0 = false ∧ v.toNat / 2 ^ 4 % 8 ≤ 4) ∧
  (∃ (s : State) (m : Mid) (n : Fin 16) (v : Word),
    let c := TSU_TTRIG_CTRL n.val
    let armed := s.bit c TSU_TTRIG_CTRL_arm
    let same : Prop := s.reg c &&& 0x1F7C = v &&& 0x1F7C
    s.awake = true ∧ s.pwr.xoLost = false ∧ s.isSup m.val = true ∧ s.noneWaits m.val = true ∧
        (v.getLsbD 0 = true ∨ 4 < v.toNat / 2 ^ 4 % 8 ∨ (armed = true ∧ ¬same))) ∧
  (∃ (s : State) (m : Mid) (k : Fin 8) (e : CapEnt) (rest : List CapEnt),
    s.awake = true ∧ s.pwr.xoLost = false ∧ s.isSup m.val = true ∧ s.noneWaits m.val = true ∧
        (s.cap k.val).fifo = e :: rest) ∧
  (∃ (s : State) (m : Mid) (k : Fin 8),
    s.awake = true ∧ s.pwr.xoLost = false ∧ s.isSup m.val = true ∧ s.noneWaits m.val = true ∧ (s.cap k.val).fifo = []) ∧
  (∃ (s : State) (n : Fin 16),
    let c := TSU_TTRIG_CTRL n.val
    let armed := s.bit c TSU_TTRIG_CTRL_arm
    let ptp := s.bit c TSU_TTRIG_CTRL_key_type
    let now := s.trig n.val
    let due : Option Bool := if armed = false then none else if ptp then (if now.key ≤ s.tsu.ns then some now.late else none) else now.due
    s.awake = true ∧ s.pwr.xoLost = false ∧ s.pwr.hold = false ∧ due = none) ∧
  (∃ (s : State) (n : Fin 16) (late : Bool),
    let c := TSU_TTRIG_CTRL n.val
    let armed := s.bit c TSU_TTRIG_CTRL_arm
    let ptp := s.bit c TSU_TTRIG_CTRL_key_type
    let now := s.trig n.val
    let due : Option Bool := if armed = false then none else if ptp then (if now.key ≤ s.tsu.ns then some now.late else none) else now.due
    let act := s.fld c TSU_TTRIG_CTRL_action
    s.awake = true ∧ s.pwr.xoLost = false ∧ s.pwr.hold = false ∧ due = some late ∧
        s.bit c TSU_TTRIG_CTRL_periodic = false ∧ act = 0) ∧
  (∃ (s : State) (n : Fin 16) (late : Bool),
    let c := TSU_TTRIG_CTRL n.val
    let armed := s.bit c TSU_TTRIG_CTRL_arm
    let ptp := s.bit c TSU_TTRIG_CTRL_key_type
    let now := s.trig n.val
    let due : Option Bool := if armed = false then none else if ptp then (if now.key ≤ s.tsu.ns then some now.late else none) else now.due
    let act := s.fld c TSU_TTRIG_CTRL_action
    s.awake = true ∧ s.pwr.xoLost = false ∧ s.pwr.hold = false ∧ due = some late ∧
        s.bit c TSU_TTRIG_CTRL_periodic = false ∧ act = 4) ∧
  (∃ (s : State) (n : Fin 16) (late : Bool),
    let c := TSU_TTRIG_CTRL n.val
    let word (w : Word) : Nat := w.toNat
    let period := word (s.reg (TSU_TTRIG_PERIOD n.val))
    let armed := s.bit c TSU_TTRIG_CTRL_arm
    let past (x : Nat) : Bool := let d := (x + 2 ^ 48 - s.rallyCount) % 2 ^ 48; decide (d = 0 ∨ 2 ^ 47 ≤ d)
    let ptp := s.bit c TSU_TTRIG_CTRL_key_type
    let now := s.trig n.val
    let due : Option Bool := if armed = false then none else if ptp then (if now.key ≤ s.tsu.ns then some now.late else none) else now.due
    let step (j : Nat) : Nat := if ptp then now.key + (j + 1) * period else (now.key + (j + 1) * period) % 2 ^ 48
    let gone (x : Nat) : Prop := if ptp then x < s.tsu.ns else past x = true
    let act := s.fld c TSU_TTRIG_CTRL_action
    s.awake = true ∧ s.pwr.xoLost = false ∧ s.pwr.hold = false ∧ due = some late ∧
        s.bit c TSU_TTRIG_CTRL_periodic = true ∧ act = 0 ∧ 1 ≤ period ∧ (ptp = true ∨ ¬gone (step 0))) ∧
  (∃ (s : State) (k : Fin 8) (rising : Bool),
    let tc := TSU_TCAP_CTRL k.val
    let takes : Prop := s.bit tc TSU_TCAP_CTRL_en = true ∧ s.gpioFn (16 + k.val) = 2 ∧
        s.fld tc TSU_TCAP_CTRL_edge / (if rising then 1 else 2) % 2 = 1
    s.awake = true ∧ s.pwr.xoLost = false ∧ (¬takes)) ∧
  (∃ (s : State) (k : Fin 8) (rising : Bool),
    let tc := TSU_TCAP_CTRL k.val
    let takes : Prop := s.bit tc TSU_TCAP_CTRL_en = true ∧ s.gpioFn (16 + k.val) = 2 ∧
        s.fld tc TSU_TCAP_CTRL_edge / (if rising then 1 else 2) % 2 = 1
    s.awake = true ∧ s.pwr.xoLost = false ∧ takes ∧ (s.cap k.val).fifo.length < 4) ∧
  (∃ (s : State) (k : Fin 8) (rising : Bool),
    let tc := TSU_TCAP_CTRL k.val
    let takes : Prop := s.bit tc TSU_TCAP_CTRL_en = true ∧ s.gpioFn (16 + k.val) = 2 ∧
        s.fld tc TSU_TCAP_CTRL_edge / (if rising then 1 else 2) % 2 = 1
    s.awake = true ∧ s.pwr.xoLost = false ∧ takes ∧ 4 ≤ (s.cap k.val).fifo.length) :=
  ⟨⟨State.reset, 0x300, 15, 0x41, by dsimp only; decide⟩,
   ⟨State.reset.setReg (TSU_TTRIG_PERIOD 15) 5000, 0x300, 15, 0x4D, by dsimp only; decide⟩,
   ⟨State.reset.setReg (TSU_TTRIG_CTRL 15) 0x41, 0x300, 15, 0x41, by dsimp only; decide⟩,
   ⟨State.reset.setReg (TSU_TTRIG_PERIOD 15) 4999, 0x300, 15, 0x4D, by dsimp only; decide⟩,
   ⟨State.reset, 0x300, 0, 0x40, by dsimp only; decide⟩,
   ⟨State.reset.setReg (TSU_TTRIG_PERIOD 15) 4999, 0x300, 15, 0x4D, by dsimp only; decide⟩,
   ⟨State.reset.setCap 7 ⟨[⟨0, 0, 0, true⟩], ⟨0, 0, 0, false⟩⟩, 0x300, 7, ⟨0, 0, 0, true⟩, [], by decide⟩,
   ⟨State.reset, 0x300, 0, by decide⟩,
   ⟨State.reset, 0, by dsimp only; decide⟩,
   ⟨(wr [(TSU_TTRIG_CTRL 15, TSU_TTRIG_CTRL_arm, 1)]).setTrig 15 ⟨0, true, some true⟩, 15, true, by dsimp only; decide⟩,
   ⟨(wr [(TSU_TTRIG_CTRL 15, TSU_TTRIG_CTRL_arm, 1), (TSU_TTRIG_CTRL 15, TSU_TTRIG_CTRL_action, 4)]).setTrig 15 ⟨0, false,
       some false⟩, 15, false, by dsimp only; decide⟩,
   ⟨((wr [(TSU_TTRIG_CTRL 0, TSU_TTRIG_CTRL_arm, 1),
       (TSU_TTRIG_CTRL 0, TSU_TTRIG_CTRL_periodic, 1)]).setReg (TSU_TTRIG_PERIOD 0) 1).setTrig 0 ⟨0, false, some false⟩, 0,
       false, by dsimp only; decide⟩,
   ⟨State.reset, 0, false, by dsimp only; decide⟩,
   ⟨(wr [(TSU_TCAP_CTRL 7, TSU_TCAP_CTRL_en, 1), (TSU_TCAP_CTRL 7, TSU_TCAP_CTRL_edge,
       1)]).setReg (HIF_GPIO_FN 2) 0x20000000, 7, true, by dsimp only; decide⟩,
   ⟨((wr [(TSU_TCAP_CTRL 7, TSU_TCAP_CTRL_en, 1), (TSU_TCAP_CTRL 7, TSU_TCAP_CTRL_edge,
       2)]).setReg (HIF_GPIO_FN 2) 0x20000000).setCap 7 ⟨List.replicate 4 ⟨0, 0, 0, true⟩, ⟨0, 0, 0, false⟩⟩, 7, false,
       by dsimp only; decide⟩⟩

theorem met_PortsStartedAndMapped :
  (∃ (s : State) (m : Mid) (p : Fin 16) (v : Word),
    let ctrl := SAP_CTRL p.val
    let fmt := SAP_FMT p.val
    let n (w : Word) (lo len : Nat) : Nat := w.toNat / 2 ^ lo % 2 ^ len
    let on (a : Nat) : Bool := s.bit a pEn
    let master := n v 1 1
    let inRange (mask : Nat) : Prop := (n v 2 2 = 0 ∨ (n v 2 2 = 2 ∧ mask = 0)) ∧ n v 8 3 ≤ 5
    let bits := 2 ^ s.fld fmt SAP_FMT_frame_bits
    let slot := 16 + 8 * s.fld fmt SAP_FMT_slot_bits
    let slots := if s.fld fmt SAP_FMT_fmt = 2 then s.fld fmt SAP_FMT_slots + 1 else 2
    let wide := s.fld fmt SAP_FMT_word_bits
    let clk := bits * ((if s.bit RSG_CTRL RSG_CTRL_family then 44100 else 48000) * 2 ^ s.fld RSG_CTRL RSG_CTRL_mult)
    let skew := s.fld (SAP_TURN p.val) SAP_TURN_skew
    let ok : Prop := bitOf s.pins.bankOff (p.val / 4) = false ∧ inRange master ∧ 2 ≤ n v 16 6 ∧ clk ≤ 49152000 ∧
        slots * slot ≤ bits ∧ (if wide = 3 then 32 else 16 + 4 * wide) ≤ slot ∧
        (n v 5 1 = 1 → (clk + 999999) / 1000000 ≤ skew ∧ slot + skew < bits)
    s.awake = true ∧ s.isSup m.val = true ∧ s.noneWaits m.val = true ∧ on ctrl = false ∧ n v 2 2 ≠ 1 ∧ ok) ∧
  (∃ (s : State) (m : Mid) (p : Fin 16) (v : Word),
    let ctrl := SAP_CTRL p.val
    let fmt := SAP_FMT p.val
    let n (w : Word) (lo len : Nat) : Nat := w.toNat / 2 ^ lo % 2 ^ len
    let on (a : Nat) : Bool := s.bit a pEn
    let master := n v 1 1
    let inRange (mask : Nat) : Prop := (n v 2 2 = 0 ∨ (n v 2 2 = 2 ∧ mask = 0)) ∧ n v 8 3 ≤ 5
    let bits := 2 ^ s.fld fmt SAP_FMT_frame_bits
    let slot := 16 + 8 * s.fld fmt SAP_FMT_slot_bits
    let slots := if s.fld fmt SAP_FMT_fmt = 2 then s.fld fmt SAP_FMT_slots + 1 else 2
    let wide := s.fld fmt SAP_FMT_word_bits
    let clk := bits * ((if s.bit RSG_CTRL RSG_CTRL_family then 44100 else 48000) * 2 ^ s.fld RSG_CTRL RSG_CTRL_mult)
    let skew := s.fld (SAP_TURN p.val) SAP_TURN_skew
    let ok : Prop := bitOf s.pins.bankOff (p.val / 4) = false ∧ inRange master ∧ 2 ≤ n v 16 6 ∧ clk ≤ 49152000 ∧
        slots * slot ≤ bits ∧ (if wide = 3 then 32 else 16 + 4 * wide) ≤ slot ∧
        (n v 5 1 = 1 → (clk + 999999) / 1000000 ≤ skew ∧ slot + skew < bits)
    s.awake = true ∧ s.isSup m.val = true ∧ s.noneWaits m.val = true ∧ on ctrl = false ∧ n v 2 2 ≠ 1 ∧ (¬ok)) ∧
  (∃ (s : State) (m : Mid) (p : Fin 16) (v : Word),
    let ctrl := SAP_CTRL p.val
    let n (w : Word) (lo len : Nat) : Nat := w.toNat / 2 ^ lo % 2 ^ len
    let on (a : Nat) : Bool := s.bit a pEn
    let master := n v 1 1
    let inRange (mask : Nat) : Prop := (n v 2 2 = 0 ∨ (n v 2 2 = 2 ∧ mask = 0)) ∧ n v 8 3 ≤ 5
    let same (a : Nat) (mask : Word) : Prop := (s.reg a ^^^ v) &&& mask = 0
    s.awake = true ∧ s.isSup m.val = true ∧ s.noneWaits m.val = true ∧ (on ctrl = true → same ctrl 0x003F073E) ∧
        inRange master ∧ 2 ≤ n v 16 6) ∧
  (∃ (s : State) (m : Mid) (p : Fin 16),
    let ctrl := SAP_CTRL p.val
    let on (a : Nat) : Bool := s.bit a pEn
    s.awake = true ∧ s.isSup m.val = true ∧ s.noneWaits m.val = true ∧ on ctrl = false ∧
        s.bit (SAP_STAT p.val) stRunning = true) ∧
  (∃ (s : State) (m : Mid) (v : Word),
    let n (w : Word) (lo len : Nat) : Nat := w.toNat / 2 ^ lo % 2 ^ len
    let inRange (mask : Nat) : Prop := (n v 2 2 = 0 ∨ (n v 2 2 = 2 ∧ mask = 0)) ∧ n v 8 3 ≤ 5
    s.awake = true ∧ s.isSup m.val = true ∧ s.noneWaits m.val = true ∧ inRange 1 ∧ v.getLsbD 5 = false) ∧
  (∃ (s : State) (m : Mid) (i : Fin 8) (v : Word),
    let n (w : Word) (lo len : Nat) : Nat := w.toNat / 2 ^ lo % 2 ^ len
    let on (a : Nat) : Bool := s.bit a pEn
    let inRange (mask : Nat) : Prop := (n v 2 2 = 0 ∨ (n v 2 2 = 2 ∧ mask = 0)) ∧ n v 8 3 ≤ 5
    let same (a : Nat) (mask : Word) : Prop := (s.reg a ^^^ v) &&& mask = 0
    let txc := AES_TX_CTRL i.val
    s.awake = true ∧ s.isSup m.val = true ∧ s.noneWaits m.val = true ∧ on txc = v.getLsbD 0 ∧
        (v.getLsbD 0 = true → same txc 0x00FF071E) ∧ inRange 1) ∧
  (∃ (s : State) (m : Mid) (d : Fin 2) (v : Word),
    let n (w : Word) (lo len : Nat) : Nat := w.toNat / 2 ^ lo % 2 ^ len
    let on (a : Nat) : Bool := s.bit a pEn
    let inRange (mask : Nat) : Prop := (n v 2 2 = 0 ∨ (n v 2 2 = 2 ∧ mask = 0)) ∧ n v 8 3 ≤ 5
    let mc := MADI_CTRL d.val
    s.awake = true ∧ s.isSup m.val = true ∧ s.noneWaits m.val = true ∧ inRange 0 ∧ 2 ≤ n v 16 6 ∧ v.getLsbD 1 = false ∧
        n v 12 2 < 2 ∧ on mc = false ∧ v.getLsbD 0 = true ∧ v.getLsbD 7 = false) ∧
  (∃ (s : State) (m : Mid) (d : Fin 2) (v : Word),
    let n (w : Word) (lo len : Nat) : Nat := w.toNat / 2 ^ lo % 2 ^ len
    let on (a : Nat) : Bool := s.bit a pEn
    let inRange (mask : Nat) : Prop := (n v 2 2 = 0 ∨ (n v 2 2 = 2 ∧ mask = 0)) ∧ n v 8 3 ≤ 5
    let same (a : Nat) (mask : Word) : Prop := (s.reg a ^^^ v) &&& mask = 0
    let mc := MADI_CTRL d.val
    s.awake = true ∧ s.isSup m.val = true ∧ s.noneWaits m.val = true ∧ inRange 0 ∧ 2 ≤ n v 16 6 ∧ v.getLsbD 1 = false ∧
        n v 12 2 < 2 ∧ on mc = v.getLsbD 0 ∧ (v.getLsbD 0 = true → same mc 0x003F373E)) ∧
  (∃ (s : State) (m : Mid) (out : Bool) (v : Word),
    let n (w : Word) (lo len : Nat) : Nat := w.toNat / 2 ^ lo % 2 ^ len
    s.awake = true ∧ s.isSup m.val = true ∧ s.noneWaits m.val = true ∧ (out = true ∧ n v 0 2 = 3)) ∧
  (∃ (s : State) (m : Mid) (out : Bool) (v : Word),
    let n (w : Word) (lo len : Nat) : Nat := w.toNat / 2 ^ lo % 2 ^ len
    s.awake = true ∧ s.isSup m.val = true ∧ s.noneWaits m.val = true ∧ (¬(out = true ∧ n v 0 2 = 3))) ∧
  (∃ (s : State) (m : Mid) (q : PortId) (out : Bool) (v : Word),
    let n (w : Word) (lo len : Nat) : Nat := w.toNat / 2 ^ lo % 2 ^ len
    let on (a : Nat) : Bool := s.bit a pEn
    let k := portKey q
    let o := portOut q out
    let cfg := portDma k o + 4
    let f := n v 1 4
    let chans := n v 5 7
    let frees : Prop := on (portCtrl k) = true → (s.reg cfg ^^^ v) &&& 0xFFFFE = 0
    let fits : Prop := frees ∧ (o = true → n v 12 4 ≠ 0) ∧ 0 < f ∧ f ≤ 12 ∧ 0 < chans ∧ chans ≤ 64 ∧
        (s.reg (portDma k o)).toNat + 2 ^ f * ((4 * chans + 7) / 8 * 8) ≤ 0x800000
    s.awake = true ∧ s.isSup m.val = true ∧ s.noneWaits m.val = true ∧ fits ∧ v.getLsbD 0 = true) ∧
  (∃ (s : State) (m : Mid) (q : PortId) (out : Bool) (v : Word),
    let n (w : Word) (lo len : Nat) : Nat := w.toNat / 2 ^ lo % 2 ^ len
    let on (a : Nat) : Bool := s.bit a pEn
    let k := portKey q
    let o := portOut q out
    let cfg := portDma k o + 4
    let f := n v 1 4
    let chans := n v 5 7
    let frees : Prop := on (portCtrl k) = true → (s.reg cfg ^^^ v) &&& 0xFFFFE = 0
    let fits : Prop := frees ∧ (o = true → n v 12 4 ≠ 0) ∧ 0 < f ∧ f ≤ 12 ∧ 0 < chans ∧ chans ≤ 64 ∧
        (s.reg (portDma k o)).toNat + 2 ^ f * ((4 * chans + 7) / 8 * 8) ≤ 0x800000
    s.awake = true ∧ s.isSup m.val = true ∧ s.noneWaits m.val = true ∧ (¬fits) ∧ v.getLsbD 0 = true) :=
  ⟨⟨wr [(SAP_FMT 15, SAP_FMT_frame_bits, 6), (SAP_FMT 15, SAP_FMT_slot_bits, 2), (SAP_FMT 15, SAP_FMT_word_bits, 3)],
      0x300, 15, 0x20001, by dsimp only; decide⟩,
   ⟨State.reset, 0x300, 0, 0x10001, by dsimp only; decide⟩,
   ⟨State.reset, 0x300, 15, 0x20000, by dsimp only; decide⟩,
   ⟨wr [(SAP_STAT 15, stRunning, 1)], 0x300, 15, by dsimp only; decide⟩,
   ⟨State.reset, 0x300, 0x501, by dsimp only; decide⟩,
   ⟨State.reset, 0x300, 0, 0x500, by dsimp only; decide⟩,
   ⟨State.reset, 0x300, 1, 0x20001, by dsimp only; decide⟩,
   ⟨State.reset, 0x300, 1, 0x20000, by dsimp only; decide⟩,
   ⟨State.reset, 0x300, true, 3, by dsimp only; decide⟩,
   ⟨State.reset, 0x300, false, 3, by dsimp only; decide⟩,
   ⟨State.reset.setReg (SAP_DOUT_BASE 15) 0x700000, 0x300, .sap 15, true, 0x1819, by dsimp only; decide⟩,
   ⟨State.reset.setReg (SAP_DOUT_BASE 15) 0x700008, 0x300, .sap 15, true, 0x1819, by dsimp only; decide⟩⟩

theorem met_PortFramesSlotsAndDma :
  (∃ (s : State) (p : Fin 16) (frac : BitVec 16),
    let k := p.val
    let c := SAP_CTRL k
    let st := SAP_STAT k
    let pt := s.port k
    let e : Nat := (pt.cur + 1) % 2 ^ 48
    let d : Nat := (s.rallyCount + 2 ^ 48 - e) % 2 ^ 48
    let ph : Int := 65536 * (if d < 2 ^ 47 then (d : Int) else (d : Int) - 2 ^ 48) + frac.toNat
    s.awake = true ∧ s.pwr.xoLost = false ∧ s.inLight = false ∧ s.bit c pEn = true ∧ s.bit st stWaiting = false ∧
        s.fld c pMode = 0 ∧ s.bit c SAP_CTRL_master = false ∧ pt.named = true ∧
        s.bit (SAP_DIN_BASE k + 4) dmaEn = false ∧ -49152 < ph ∧ ph < 49152) ∧
  (∃ (s : State) (p : Fin 16) (frac : BitVec 16),
    let k := p.val
    let c := SAP_CTRL k
    let st := SAP_STAT k
    let pt := s.port k
    let e : Nat := (pt.cur + 1) % 2 ^ 48
    let d : Nat := (s.rallyCount + 2 ^ 48 - e) % 2 ^ 48
    let ph : Int := 65536 * (if d < 2 ^ 47 then (d : Int) else (d : Int) - 2 ^ 48) + frac.toNat
    s.awake = true ∧ s.pwr.xoLost = false ∧ s.inLight = false ∧ s.bit c pEn = true ∧ s.bit st stWaiting = false ∧
        s.fld c pMode = 0 ∧ s.bit c SAP_CTRL_master = false ∧ pt.named = true ∧
        s.bit (SAP_DIN_BASE k + 4) dmaEn = false ∧ ph < -49152) ∧
  (∃ (s : State) (p : Fin 16) (frac : BitVec 16),
    let k := p.val
    let c := SAP_CTRL k
    let st := SAP_STAT k
    let pt := s.port k
    let e : Nat := (pt.cur + 1) % 2 ^ 48
    let d : Nat := (s.rallyCount + 2 ^ 48 - e) % 2 ^ 48
    let ph : Int := 65536 * (if d < 2 ^ 47 then (d : Int) else (d : Int) - 2 ^ 48) + frac.toNat
    s.awake = true ∧ s.pwr.xoLost = false ∧ s.inLight = false ∧ s.bit c pEn = true ∧ s.bit st stWaiting = false ∧
        s.fld c pMode = 0 ∧ s.bit c SAP_CTRL_master = false ∧ pt.named = true ∧
        s.bit (SAP_DIN_BASE k + 4) dmaEn = false ∧ 49152 < ph) ∧
  (∃ (s : State) (p : Fin 16) (j : Fin 32),
    let k := p.val
    let c := SAP_CTRL k
    let st := SAP_STAT k
    let pt := s.port k
    let slots := if s.fld (SAP_FMT k) SAP_FMT_fmt = 2 then s.fld (SAP_FMT k) SAP_FMT_slots + 1 else 2
    let runs : Prop := s.bit st stRunning = true ∧ j.val < slots
    let ie := tabGet zeroWord pt.imap j.val
    let audio := ((s.outboxOf k).filter fun t => t.kind = .audio).length
    s.awake = true ∧ s.pwr.xoLost = false ∧ s.inLight = false ∧ runs ∧ s.fld c pMode = 0 ∧ pt.dropped = false ∧
        pt.repeated = false ∧ j.val + 1 ≠ slots ∧ ie.toNat % 2 = 1 ∧ audio < 4) ∧
  (∃ (s : State) (p : Fin 16) (j : Fin 32) (tok : Token) (left : List Token),
    let k := p.val
    let pt := s.port k
    let slots := if s.fld (SAP_FMT k) SAP_FMT_fmt = 2 then s.fld (SAP_FMT k) SAP_FMT_slots + 1 else 2
    let takes (i : Nat) : Prop := s.outputLive k i = true ∧ (tabGet zeroWord pt.omap i).toNat % 4 = 1 ∧
        (tabGet zeroWord pt.omap i).toNat / 2 ^ 4 % 2 ^ 12 = tok.ctag
    s.awake = true ∧ s.pwr.xoLost = false ∧ s.inLight = false ∧ s.inboxOf k = tok :: left ∧ tok.kind = .audio ∧ (∀ i,
        i < slots → (takes i ↔ i = j.val)) ∧ j.val < slots ∧ tok.stag = s.expectTag k j.val ∧
        tabGet noWord pt.hold j.val = none) ∧
  (∃ (s : State) (p : Fin 16) (j : Fin 32) (x : Word),
    let k := p.val
    let c := SAP_CTRL k
    let st := SAP_STAT k
    let pt := s.port k
    let slots := if s.fld (SAP_FMT k) SAP_FMT_fmt = 2 then s.fld (SAP_FMT k) SAP_FMT_slots + 1 else 2
    let runs : Prop := s.bit st stRunning = true ∧ j.val < slots
    let oe := tabGet zeroWord pt.omap j.val
    let turn := s.bit c SAP_CTRL_turn_en
    s.awake = true ∧ s.pwr.xoLost = false ∧ s.inLight = false ∧ runs ∧ pt.omapNext = none ∧ s.fld c pMode = 0 ∧
        turn = false ∧ oe.toNat % 4 = 1 ∧ tabGet noWord pt.hold j.val = some x) ∧
  (∃ (s : State) (p : Fin 16) (j : Fin 32),
    let k := p.val
    let c := SAP_CTRL k
    let st := SAP_STAT k
    let pt := s.port k
    let slots := if s.fld (SAP_FMT k) SAP_FMT_fmt = 2 then s.fld (SAP_FMT k) SAP_FMT_slots + 1 else 2
    let runs : Prop := s.bit st stRunning = true ∧ j.val < slots
    let oe := tabGet zeroWord pt.omap j.val
    let turn := s.bit c SAP_CTRL_turn_en
    s.awake = true ∧ s.pwr.xoLost = false ∧ s.inLight = false ∧ runs ∧ pt.omapNext = none ∧ s.fld c pMode = 0 ∧
        turn = false ∧ oe.toNat % 4 = 1 ∧ tabGet noWord pt.hold j.val = none ∧ s.bit (FLUE_ST_STAT k) ⟨0, 0⟩ = true) ∧
  (∃ (s : State) (q : PortId) (name : Nat) (f : List Word) (more : List (Nat × List Word)),
    let kq := portKey q
    let din := portDma kq false
    let frames (b : Nat) : Nat := 2 ^ s.fld (b + 4) dmaFrames
    let stride (b : Nat) : Nat := (4 * s.fld (b + 4) dmaChans + 7) / 8 * 8
    let at' (b x : Nat) : Nat := (s.reg b).toNat + x % frames b * stride b
    s.awake = true ∧ s.pwr.xoLost = false ∧ s.inLight = false ∧ s.ramOpen = true ∧ kq < 32 ∧
        s.bit (portStat kq) stRunning = true ∧ (16 ≤ kq → s.bit (portStat kq) stLock = true) ∧
        s.bit (din + 4) dmaEn = true ∧ (s.port kq).dmaIn = (name, f) :: more ∧ (s.reg din).toNat % 8 = 0 ∧
        at' din name + (f.length + 1) / 2 * 8 ≤ 0x800000 ∧ s.bit MEMC_INJ_CTRL MEMC_INJ_CTRL_arm = false) ∧
  (∃ (s : State) (q : PortId),
    let kq := portKey q
    let dout := portDma kq true
    let frames (b : Nat) : Nat := 2 ^ s.fld (b + 4) dmaFrames
    let stride (b : Nat) : Nat := (4 * s.fld (b + 4) dmaChans + 7) / 8 * 8
    let at' (b x : Nat) : Nat := (s.reg b).toNat + x % frames b * stride b
    let ahead := (s.rallyCount + s.fld (dout + 4) dmaLead) % 2 ^ 48
    s.awake = true ∧ s.pwr.xoLost = false ∧ s.inLight = false ∧ s.ramOpen = true ∧ s.portEn kq = true ∧
        s.bit (dout + 4) dmaEn = true ∧ (kq < 16 ∨ 32 ≤ kq) ∧ (s.reg dout).toNat % 8 = 0 ∧
        at' dout ahead + stride dout ≤ 0x800000 ∧ (∀ i, i < stride dout / 8 → s.flipsOf (at' dout ahead / 8 + i) = 0)) :=
  ⟨⟨{ (wr [(SAP_CTRL 15, pEn, 1)]).modPort 15 fun t => { t with named := true } with rallyCount := 1 }, 15, 0xBFFF,
      by dsimp only; decide⟩,
   ⟨(wr [(SAP_CTRL 15, pEn, 1)]).modPort 15 fun t => { t with named := true }, 15, 0x3FFF, by dsimp only; decide⟩,
   ⟨{ (wr [(SAP_CTRL 15, pEn, 1)]).modPort 15 fun t => { t with named := true } with rallyCount := 1 }, 15, 0xC001,
       by dsimp only; decide⟩,
   ⟨(wr [(SAP_STAT 15, stRunning, 1), (SAP_FMT 15, SAP_FMT_fmt, 2),
       (SAP_FMT 15, SAP_FMT_slots, 31)]).modPort 15 fun t => { t with imap := [(30, 1)] }, 15, 30, by dsimp only; decide⟩,
   ⟨((wr [(SAP_STAT 15, stRunning, 1), (SAP_FMT 15, SAP_FMT_fmt, 2),
       (SAP_FMT 15, SAP_FMT_slots, 31)]).modPort 15 fun t => { t with omap := [(31, 0xFFF1)] }).setInbox 15 [{ tok0 with ctag := 4095, stag := 1 }], 15, 31, { tok0 with ctag := 4095, stag := 1 }, [], by dsimp only; decide⟩,
   ⟨(wr [(SAP_STAT 15, stRunning, 1), (SAP_FMT 15, SAP_FMT_fmt, 2),
       (SAP_FMT 15, SAP_FMT_slots, 31)]).modPort 15 fun t => { t with omap := [(31, 1)], hold := [(31, some 5)] }, 15, 31,
       5, by dsimp only; decide⟩,
   ⟨(wr [(SAP_STAT 15, stRunning, 1), (SAP_FMT 15, SAP_FMT_fmt, 2), (SAP_FMT 15, SAP_FMT_slots, 31),
       (FLUE_ST_STAT 15, ⟨0, 0⟩, 1)]).modPort 15 fun t => { t with omap := [(31, 1)] }, 15, 31, by dsimp only; decide⟩,
   ⟨(openRam (wr [(SAP_DIN_BASE 0 + 4, dmaEn, 1), (SAP_STAT 0, stRunning,
       1)])).modPort 0 fun t => { t with dmaIn := [(0, [1])] }, .sap 0, 0, [1], [], by dsimp only; decide⟩,
   ⟨openRam (wr [(SAP_CTRL 0, pEn, 1), (SAP_DOUT_BASE 0 + 4, dmaEn, 1), (SAP_DOUT_BASE 0 + 4, dmaChans, 64)]), .sap 0,
       by dsimp only; decide⟩⟩

theorem met_ReceiversLockAndReceive :
  (∃ (s : State) (i : Fin 8),
    let st := AES_RX_STAT i.val
    s.awake = true ∧ s.pwr.xoLost = false ∧ s.inLight = false ∧ s.bit (AES_RX_CTRL i.val) pEn = true ∧
        s.bit st stLock = false) ∧
  (∃ (s : State) (d : Fin 2) (lock : Bool),
    let ms := MADI_STAT d.val
    s.awake = true ∧ s.pwr.xoLost = false ∧ s.inLight = false ∧ (lock = true → s.bit (MADI_CTRL d.val) pEn = true ∧
        s.bit ms stLock = false)) ∧
  (∃ (s : State) (i : Fin 8) (preOk : Bool) (viol : Nat),
    let k := 16 + i.val
    let pt := s.port k
    let st := AES_RX_STAT i.val
    s.awake = true ∧ s.pwr.xoLost = false ∧ s.inLight = false ∧ s.bit st stRunning = true ∧ s.bit st stLock = true ∧
        ((preOk = false ∧ 1 ≤ pt.badPre) ∨ 8 ≤ pt.viol + viol)) ∧
  (∃ (s : State) (i : Fin 8) (preOk : Bool) (viol : Nat) (b : Nat),
    let k := 16 + i.val
    let pt := s.port k
    let st := AES_RX_STAT i.val
    let live (a k : Nat) : Prop := s.bit a stRunning = true ∧ s.bit a stLock = true ∧ s.portMode k = 0 ∧
        (s.port k).dropped = false ∧ (s.port k).repeated = false ∧
        ((s.outboxOf k).filter fun t => t.kind = .audio).length < 4
    s.awake = true ∧ s.pwr.xoLost = false ∧ s.inLight = false ∧ live st k ∧ (preOk = false → pt.badPre = 0) ∧
        pt.viol + viol < 8 ∧ s.fld (AES_RX_TAGS i.val) AES_RX_TAGS_dest = 1 ∧ pt.block = some b ∧ b < 192) ∧
  (∃ (s : State) (i : Fin 8),
    let k := 16 + i.val
    let pt := s.port k
    let st := AES_RX_STAT i.val
    let live (a k : Nat) : Prop := s.bit a stRunning = true ∧ s.bit a stLock = true ∧ s.portMode k = 0 ∧
        (s.port k).dropped = false ∧ (s.port k).repeated = false ∧
        ((s.outboxOf k).filter fun t => t.kind = .audio).length < 4
    s.awake = true ∧ s.pwr.xoLost = false ∧ s.inLight = false ∧ live st k ∧ pt.block = some 192 ∧
        s.fld (AES_RX_TAGS i.val) AES_RX_TAGS_dest = 0) ∧
  (∃ (s : State) (i : Fin 8) (d : Fin 2) (ch : Fin 64),
    let k := 16 + i.val
    let mk := 24 + d.val
    let ms := MADI_STAT d.val
    let live (a k : Nat) : Prop := s.bit a stRunning = true ∧ s.bit a stLock = true ∧ s.portMode k = 0 ∧
        (s.port k).dropped = false ∧ (s.port k).repeated = false ∧
        ((s.outboxOf k).filter fun t => t.kind = .audio).length < 4
    let chans := (if s.bit (MADI_CTRL d.val) MADI_CTRL_ch56 then 56 else 64) / (if s.bit (MADI_CTRL d.val) MADI_CTRL_f96 then 2 else 1)
    s.awake = true ∧ s.pwr.xoLost = false ∧ s.inLight = false ∧ live ms mk ∧ ch.val + 1 < chans ∧
        ch.val ≠ s.fld (MADI_OWN d.val) MADI_OWN_cs_sel ∧ s.fld (MADI_TAGS d.val) MADI_TAGS_rx_dest = 1) ∧
  (∃ (s : State) (d : Fin 2),
    s.awake = true ∧ s.pwr.xoLost = false ∧ s.inLight = false ∧ s.bit (MADI_CTRL d.val) pEn = true ∧
        s.bit (MADI_CTRL d.val) MADI_CTRL_tx_en = true ∧ s.fld (MADI_CTRL d.val) MADI_CTRL_tx_rate_mode = 0) :=
  ⟨⟨wr [(AES_RX_CTRL 7, pEn, 1)], 7, by dsimp only; decide⟩,
   ⟨wr [(MADI_CTRL 1, pEn, 1)], 1, true, by dsimp only; decide⟩,
   ⟨wr [(AES_RX_STAT 7, stRunning, 1), (AES_RX_STAT 7, stLock, 1)], 7, true, 8, by dsimp only; decide⟩,
   ⟨(wr [(AES_RX_STAT 7, stRunning, 1), (AES_RX_STAT 7, stLock, 1),
       (AES_RX_TAGS 7, AES_RX_TAGS_dest, 1)]).modPort 23 fun t => { t with block := some 191 }, 7, false, 7, 191,
       by dsimp only; decide⟩,
   ⟨(wr [(AES_RX_STAT 7, stRunning, 1), (AES_RX_STAT 7, stLock, 1)]).modPort 23 fun t => { t with block := some 192 }, 7,
       by dsimp only; decide⟩,
   ⟨wr [(MADI_STAT 1, stRunning, 1), (MADI_STAT 1, stLock, 1), (MADI_TAGS 1, MADI_TAGS_rx_dest, 1)], 0, 1, 62,
       by dsimp only; decide⟩,
   ⟨wr [(MADI_CTRL 1, pEn, 1), (MADI_CTRL 1, MADI_CTRL_tx_en, 1)], 1, by decide⟩⟩

theorem met_RateConversion :
  (∃ (s : State) (m : Mid) (n : Fin 128) (v : Word),
    let a := ASRC_ALLOC n.val
    let old := s.reg a
    let dup : Prop := v.getLsbD 0 = true ∧ ∃ i, i < 128 ∧ i ≠ n.val ∧ s.bit (ASRC_ALLOC i) ASRC_ALLOC_en = true ∧
        s.reg (ASRC_ALLOC i) &&& 0x3FFE = v &&& 0x3FFE
    let runs (w : Word) : Prop := w.getLsbD 0 = true ∧ ∃ k o, allocPort w = some (k, o) ∧
        (s.portEn k = true ∨ s.bit (portCtrl k) pEn = true ∨ s.portRuns k = true)
    let busy : Prop := runs old ∨ runs v
    s.awake = true ∧ s.pwr.xoLost = false ∧ s.inLight = false ∧ s.isSup m.val = true ∧ s.noneWaits m.val = true ∧
        (dup ∨ busy ∨ v.toNat / 4 % 4 = 3)) ∧
  (∃ (s : State) (m : Mid) (n : Fin 128) (v : Word),
    let a := ASRC_ALLOC n.val
    let old := s.reg a
    let dup : Prop := v.getLsbD 0 = true ∧ ∃ i, i < 128 ∧ i ≠ n.val ∧ s.bit (ASRC_ALLOC i) ASRC_ALLOC_en = true ∧
        s.reg (ASRC_ALLOC i) &&& 0x3FFE = v &&& 0x3FFE
    let runs (w : Word) : Prop := w.getLsbD 0 = true ∧ ∃ k o, allocPort w = some (k, o) ∧
        (s.portEn k = true ∨ s.bit (portCtrl k) pEn = true ∨ s.portRuns k = true)
    let busy : Prop := runs old ∨ runs v
    s.awake = true ∧ s.pwr.xoLost = false ∧ s.inLight = false ∧ s.isSup m.val = true ∧ s.noneWaits m.val = true ∧
        (¬(dup ∨ busy ∨ v.toNat / 4 % 4 = 3))) ∧
  (∃ (s : State) (ratio : Word) (q : PortId),
    let k := portKey q
    let st := portStat k
    let live : Prop := 16 ≤ k → s.bit st stLock = true
    s.awake = true ∧ s.pwr.xoLost = false ∧ s.inLight = false ∧ 2 ^ 28 ≤ 5 * ratio.toNat ∧ ratio.toNat ≤ 5 * 2 ^ 28 ∧
        s.portRuns k = true ∧ (k < 32 → live)) ∧
  (∃ (s : State) (q : PortId) (out : Bool),
    let k := portKey q
    let o := portOut q out
    let tied (i : Nat) : Bool := tiedTo s k o i
    s.awake = true ∧ s.pwr.xoLost = false ∧ s.inLight = false ∧ (∃ i, i < 128 ∧ tied i = true ∧ lockBit s i = true)) ∧
  (∃ (s : State) (q : PortId) (j : Nat),
    let k := portKey q
    let st := portStat k
    let ready : Prop := k < 32 ∧ s.bit st stRunning = true ∧ s.bit (portDma k false + 4) dmaEn = false ∧
        ((s.outboxOf k).filter fun t => t.kind = .audio).length < 4
    s.awake = true ∧ s.pwr.xoLost = false ∧ s.inLight = false ∧ ready ∧ s.portMode k = 1 ∧ j < s.portSlots k ∧ (∀ i,
        i < s.portSlots k → (s.inEnt k i).dest = if i = j then 1 else 0)) ∧
  (∃ (s : State) (q : PortId) (j : Nat) (f : BufFrame) (rest : List BufFrame),
    let k := portKey q
    let st := portStat k
    let pt := s.port k
    let flueOnly (i : Nat) : Prop := (s.inEntBy f.imap k i).dest % 2 = 1 ↔ i = j
    let live : Prop := 16 ≤ k → s.bit st stLock = true
    let ready : Prop := k < 32 ∧ s.bit st stRunning = true ∧ s.bit (portDma k false + 4) dmaEn = false ∧
        ((s.outboxOf k).filter fun t => t.kind = .audio).length < 4
    s.awake = true ∧ s.pwr.xoLost = false ∧ s.inLight = false ∧ ready ∧ live ∧ s.portMode k = 2 ∧ pt.fifo = f :: rest ∧
        j < f.words.length ∧ (∀ i, i < f.words.length → flueOnly i)) ∧
  (∃ (s : State) (q : PortId) (j : Nat) (f : BufFrame),
    let k := portKey q
    let st := portStat k
    let pt := s.port k
    let flueOnly (i : Nat) : Prop := (s.inEntBy f.imap k i).dest % 2 = 1 ↔ i = j
    let live : Prop := 16 ≤ k → s.bit st stLock = true
    let ready : Prop := k < 32 ∧ s.bit st stRunning = true ∧ s.bit (portDma k false + 4) dmaEn = false ∧
        ((s.outboxOf k).filter fun t => t.kind = .audio).length < 4
    s.awake = true ∧ s.pwr.xoLost = false ∧ s.inLight = false ∧ ready ∧ live ∧ s.portMode k = 2 ∧ pt.fifo = [] ∧
        pt.steerLast = f ∧ j < f.words.length ∧ (∀ i, i < f.words.length → flueOnly i)) :=
  ⟨⟨State.reset, 0x300, 127, 0xC, ⟨by decide, by decide, by decide, by decide, by decide, .inr (.inr (by decide))⟩⟩,
   ⟨State.reset, 0x300, 127, 0x3F09, ⟨by decide, by decide, by decide, by decide, by decide,
       by rintro (⟨-, h⟩ | (⟨h, -⟩ | ⟨-, k, o, h, e⟩) | h); (· revert h; decide +kernel); (· exact absurd h (by decide)); (· cases h; revert e; decide); exact absurd h (by decide)⟩⟩,
   ⟨wr [(SAP_STAT 15, stRunning, 1)], 0x50000000, .sap 15, by dsimp only; decide⟩,
   ⟨(wr [(ASRC_ALLOC 127, ASRC_ALLOC_en, 1), (ASRC_ALLOC 127, ASRC_ALLOC_dir, 1),
       (ASRC_ALLOC 127, ASRC_ALLOC_port, 15)]).setReg (ASRC_LOCK 3) 0x80000000, .sap 15, true,
       ⟨by decide, by decide, by decide, 127, by decide⟩⟩,
   ⟨(wr [(SAP_STAT 15, stRunning, 1), (SAP_CTRL 15, pMode, 1)]).modPort 15 fun t => { t with imap := [(1, 1)] }, .sap 15,
       1, by dsimp only; decide⟩,
   ⟨(wr [(SAP_STAT 15, stRunning, 1), (SAP_CTRL 15, pMode,
       2)]).modPort 15 fun t => { t with fifo := [⟨[(1, 1)], [7, 8]⟩] }, .sap 15, 1, ⟨[(1, 1)], [7, 8]⟩, [],
       by dsimp only; decide⟩,
   ⟨(wr [(SAP_STAT 15, stRunning, 1), (SAP_CTRL 15, pMode,
       2)]).modPort 15 fun t => { t with steerLast := ⟨[(1, 1)], [7, 8]⟩ }, .sap 15, 1, ⟨[(1, 1)], [7, 8]⟩,
       by dsimp only; decide⟩⟩

theorem met_NetworkStreamsAndFrames :
  (∃ (s : State) (m : Mid) (i : Fin 64) (v : Word),
    let n (lo len : Nat) : Nat := v.toNat / 2 ^ lo % 2 ^ len
    let mult := 2 ^ s.fld RSG_CTRL RSG_CTRL_mult
    let rc := NET_RXS_CTRL i.val
    let buf (b : Nat) : Prop := 1 ≤ s.fld (b + 4) NET_RXS_BUF_CFG_frames_log2 ∧
        s.fld (b + 4) NET_RXS_BUF_CFG_frames_log2 ≤ 12 ∧
        (s.reg b).toNat + 2 ^ s.fld (b + 4) NET_RXS_BUF_CFG_frames_log2 * ((4 * (n 8 4 + 1) + 7) / 8 * 8) ≤ 0x800000
    let d := s.fld (NET_RXS_TIMING i.val) NET_RXS_TIMING_d
    let rxOk : Prop := n 2 1 = 0 ∧ (s.chansOn false i.val + n 8 4 + 1) * mult ≤ 512 ∧ d ≠ 0 ∧
        d < 2 ^ s.fld (NET_RXS_BUF_CFG i.val) NET_RXS_BUF_CFG_frames_log2 ∧ buf (NET_RXS_BUF_BASE i.val)
    s.awake = true ∧ s.pwr.xoLost = false ∧ s.inLight = false ∧ s.ramOpen = true ∧
        s.bit MEMC_INJ_CTRL MEMC_INJ_CTRL_arm = false ∧ s.isSup m.val = true ∧ s.noneWaits m.val = true ∧
        s.bit rc NET_RXS_CTRL_en = false ∧ rxOk) ∧
  (∃ (s : State) (m : Mid) (i : Fin 64) (v : Word),
    let n (lo len : Nat) : Nat := v.toNat / 2 ^ lo % 2 ^ len
    let mult := 2 ^ s.fld RSG_CTRL RSG_CTRL_mult
    let rc := NET_RXS_CTRL i.val
    let buf (b : Nat) : Prop := 1 ≤ s.fld (b + 4) NET_RXS_BUF_CFG_frames_log2 ∧
        s.fld (b + 4) NET_RXS_BUF_CFG_frames_log2 ≤ 12 ∧
        (s.reg b).toNat + 2 ^ s.fld (b + 4) NET_RXS_BUF_CFG_frames_log2 * ((4 * (n 8 4 + 1) + 7) / 8 * 8) ≤ 0x800000
    let d := s.fld (NET_RXS_TIMING i.val) NET_RXS_TIMING_d
    let rxOk : Prop := n 2 1 = 0 ∧ (s.chansOn false i.val + n 8 4 + 1) * mult ≤ 512 ∧ d ≠ 0 ∧
        d < 2 ^ s.fld (NET_RXS_BUF_CFG i.val) NET_RXS_BUF_CFG_frames_log2 ∧ buf (NET_RXS_BUF_BASE i.val)
    s.awake = true ∧ s.pwr.xoLost = false ∧ s.inLight = false ∧ s.ramOpen = true ∧
        s.bit MEMC_INJ_CTRL MEMC_INJ_CTRL_arm = false ∧ s.isSup m.val = true ∧ s.noneWaits m.val = true ∧
        s.bit rc NET_RXS_CTRL_en = false ∧ (¬rxOk)) ∧
  (∃ (s : State) (m : Mid) (i : Fin 64) (v : Word),
    let n (lo len : Nat) : Nat := v.toNat / 2 ^ lo % 2 ^ len
    let mult := 2 ^ s.fld RSG_CTRL RSG_CTRL_mult
    let tc := NET_TXS_CTRL i.val
    let buf (b : Nat) : Prop := 1 ≤ s.fld (b + 4) NET_RXS_BUF_CFG_frames_log2 ∧
        s.fld (b + 4) NET_RXS_BUF_CFG_frames_log2 ≤ 12 ∧
        (s.reg b).toNat + 2 ^ s.fld (b + 4) NET_RXS_BUF_CFG_frames_log2 * ((4 * (n 8 4 + 1) + 7) / 8 * 8) ≤ 0x800000
    let txOk : Prop := (s.chansOn true i.val + n 8 4 + 1) * mult ≤ 512 ∧
        (n 8 4 + 1) * sppOf (n 6 2) mult * (2 + n 4 1) ≤ 1440 ∧ (n 2 1 = 1 → buf (NET_TXS_BUF_BASE i.val))
    s.awake = true ∧ s.pwr.xoLost = false ∧ s.inLight = false ∧ s.ramOpen = true ∧
        s.bit MEMC_INJ_CTRL MEMC_INJ_CTRL_arm = false ∧ s.isSup m.val = true ∧ s.noneWaits m.val = true ∧
        s.bit tc NET_TXS_CTRL_en = false ∧ txOk) ∧
  (∃ (s : State) (m : Mid) (i : Fin 64) (v : Word),
    let n (lo len : Nat) : Nat := v.toNat / 2 ^ lo % 2 ^ len
    let mult := 2 ^ s.fld RSG_CTRL RSG_CTRL_mult
    let tc := NET_TXS_CTRL i.val
    let buf (b : Nat) : Prop := 1 ≤ s.fld (b + 4) NET_RXS_BUF_CFG_frames_log2 ∧
        s.fld (b + 4) NET_RXS_BUF_CFG_frames_log2 ≤ 12 ∧
        (s.reg b).toNat + 2 ^ s.fld (b + 4) NET_RXS_BUF_CFG_frames_log2 * ((4 * (n 8 4 + 1) + 7) / 8 * 8) ≤ 0x800000
    let txOk : Prop := (s.chansOn true i.val + n 8 4 + 1) * mult ≤ 512 ∧
        (n 8 4 + 1) * sppOf (n 6 2) mult * (2 + n 4 1) ≤ 1440 ∧ (n 2 1 = 1 → buf (NET_TXS_BUF_BASE i.val))
    s.awake = true ∧ s.pwr.xoLost = false ∧ s.inLight = false ∧ s.ramOpen = true ∧
        s.bit MEMC_INJ_CTRL MEMC_INJ_CTRL_arm = false ∧ s.isSup m.val = true ∧ s.noneWaits m.val = true ∧
        s.bit tc NET_TXS_CTRL_en = false ∧ (¬txOk)) ∧
  (∃ (s : State) (i : Fin 64),
    let rc := NET_RXS_CTRL i.val
    let rx := s.rxs i.val
    let now := s.rallyCount
    let chans := s.fld rc NET_RXS_CTRL_chans + 1
    let stride := (4 * chans + 7) / 8 * 8
    let frame (x : Nat) : Nat := (s.reg (NET_RXS_BUF_BASE i.val)).toNat + x % 2 ^ s.fld (NET_RXS_BUF_CFG i.val) NET_RXS_BUF_CFG_frames_log2 * stride
    let sound (a len : Nat) : Prop := a % 8 = 0 ∧ a + len ≤ 0x800000 ∧ ∀ j, j < len / 8 → s.flipsOf (a / 8 + j) = 0
    let before := frame ((now + 2 ^ 48 - 1) % 2 ^ 48)
    s.awake = true ∧ s.pwr.xoLost = false ∧ s.inLight = false ∧ s.ramOpen = true ∧
        s.bit MEMC_INJ_CTRL MEMC_INJ_CTRL_arm = false ∧ s.bit rc NET_RXS_CTRL_en = true ∧
        s.fld rc NET_RXS_CTRL_rate_mode ≠ 2 ∧ s.bit rc ⟨6, 6⟩ = true ∧ sound (frame now) stride ∧ sound before stride ∧
        now ∈ rx.marks) ∧
  (∃ (s : State) (i : Fin 64),
    let rc := NET_RXS_CTRL i.val
    let rx := s.rxs i.val
    let now := s.rallyCount
    let chans := s.fld rc NET_RXS_CTRL_chans + 1
    let stride := (4 * chans + 7) / 8 * 8
    let frame (x : Nat) : Nat := (s.reg (NET_RXS_BUF_BASE i.val)).toNat + x % 2 ^ s.fld (NET_RXS_BUF_CFG i.val) NET_RXS_BUF_CFG_frames_log2 * stride
    let sound (a len : Nat) : Prop := a % 8 = 0 ∧ a + len ≤ 0x800000 ∧ ∀ j, j < len / 8 → s.flipsOf (a / 8 + j) = 0
    let before := frame ((now + 2 ^ 48 - 1) % 2 ^ 48)
    s.awake = true ∧ s.pwr.xoLost = false ∧ s.inLight = false ∧ s.ramOpen = true ∧
        s.bit MEMC_INJ_CTRL MEMC_INJ_CTRL_arm = false ∧ s.bit rc NET_RXS_CTRL_en = true ∧
        s.fld rc NET_RXS_CTRL_rate_mode ≠ 2 ∧ s.bit rc ⟨6, 6⟩ = true ∧ sound (frame now) stride ∧ sound before stride ∧
        now ∉ rx.marks) ∧
  (∃ (s : State) (i : Fin 64) (w : Word),
    let tc := NET_TXS_CTRL i.val
    let tx := s.txs i.val
    let now := s.rallyCount
    s.awake = true ∧ s.pwr.xoLost = false ∧ s.inLight = false ∧ s.ramOpen = true ∧
        s.bit MEMC_INJ_CTRL MEMC_INJ_CTRL_arm = false ∧ s.bit tc NET_TXS_CTRL_en = true ∧
        s.bit tc NET_TXS_CTRL_src = false ∧ tx.loaded ≠ some now ∧ s.fld tc NET_TXS_CTRL_chans = 0 ∧
        tabGet noWord tx.hold 0 = some w) ∧
  (∃ (s : State) (i : Fin 64) (k : Nat) (l : List (List Word)),
    let mult := 2 ^ s.fld RSG_CTRL RSG_CTRL_mult
    let tc := NET_TXS_CTRL i.val
    let tx := s.txs i.val
    let now := s.rallyCount
    let spp := sppOf (s.fld tc NET_TXS_CTRL_spp) mult
    let q := s.fld (NET_TXS_LEG0_CFG i.val) NET_TXS_LEG0_CFG_mac
    let room : Prop := s.bit (NET_MAC_STAT q) NET_MAC_STAT_link = true ∧ (s.mediaOf q).length < 128
    s.awake = true ∧ s.pwr.xoLost = false ∧ s.inLight = false ∧ s.ramOpen = true ∧
        s.bit MEMC_INJ_CTRL MEMC_INJ_CTRL_arm = false ∧ s.bit tc NET_TXS_CTRL_en = true ∧
        s.bit tc NET_TXS_CTRL_src = false ∧ now % spp = 0 ∧ tx.pkt = some (k, l) ∧ s.bit tc NET_TXS_CTRL_dual = false ∧
        room) ∧
  (∃ (s : State) (i : Fin 64) (k : Nat) (l : List (List Word)),
    let mult := 2 ^ s.fld RSG_CTRL RSG_CTRL_mult
    let tc := NET_TXS_CTRL i.val
    let tx := s.txs i.val
    let now := s.rallyCount
    let spp := sppOf (s.fld tc NET_TXS_CTRL_spp) mult
    let q := s.fld (NET_TXS_LEG0_CFG i.val) NET_TXS_LEG0_CFG_mac
    let room : Prop := s.bit (NET_MAC_STAT q) NET_MAC_STAT_link = true ∧ (s.mediaOf q).length < 128
    s.awake = true ∧ s.pwr.xoLost = false ∧ s.inLight = false ∧ s.ramOpen = true ∧
        s.bit MEMC_INJ_CTRL MEMC_INJ_CTRL_arm = false ∧ s.bit tc NET_TXS_CTRL_en = true ∧
        s.bit tc NET_TXS_CTRL_src = false ∧ now % spp = 0 ∧ tx.pkt = some (k, l) ∧ s.bit tc NET_TXS_CTRL_dual = false ∧
        (¬room)) ∧
  (∃ (s : State) (p : Fin 2) (bytes : List Byte) (more : List (List Byte)),
    let macUp (b : Nat) : Prop := s.bit (NET_MAC_CTRL b) NET_MAC_CTRL_en = true ∧
        s.bit (NET_MAC_STAT b) NET_MAC_STAT_link = true
    s.awake = true ∧ s.pwr.xoLost = false ∧ s.inLight = false ∧ s.ramOpen = true ∧
        s.bit MEMC_INJ_CTRL MEMC_INJ_CTRL_arm = false ∧ macUp p.val ∧ tabGet noPtp s.tsu.ptpTx p.val = [] ∧
        s.mediaOf p.val = bytes :: more) ∧
  (∃ (s : State) (p : Fin 2) (lane : LaneStatus),
    let up : Bool := lane.link && (s.bit (NET_MAC_CTRL p.val) NET_MAC_CTRL_mode || (lane.gigabit && lane.fullDuplex))
    s.awake = true ∧ s.pwr.xoLost = false ∧ s.inLight = false ∧ s.ramOpen = true ∧
        s.bit MEMC_INJ_CTRL MEMC_INJ_CTRL_arm = false ∧ s.bit (NET_MAC_STAT p.val) NET_MAC_STAT_link = !up) ∧
  (∃ (s : State),
    let sound (a len : Nat) : Prop := a % 8 = 0 ∧ a + len ≤ 0x800000 ∧ ∀ j, j < len / 8 → s.flipsOf (a / 8 + j) = 0
    let tail := s.fld NET_HTX_TAIL NET_HTX_TAIL_index % 2 ^ s.fld NET_HTX_CFG NET_HTX_CFG_slots_log2
    let slot := (s.reg NET_HTX_BASE).toNat + tail * 2048
    let head := (mantelWord32 s slot).toNat
    let len := head % 65536
    s.awake = true ∧ s.pwr.xoLost = false ∧ s.inLight = false ∧ s.ramOpen = true ∧
        s.bit MEMC_INJ_CTRL MEMC_INJ_CTRL_arm = false ∧
        tail ≠ s.fld NET_HTX_HEAD NET_HTX_HEAD_index % 2 ^ s.fld NET_HTX_CFG NET_HTX_CFG_slots_log2 ∧ sound slot 2048 ∧
        (len < 60 ∨ 1518 < len)) ∧
  (∃ (s : State),
    let sound (a len : Nat) : Prop := a % 8 = 0 ∧ a + len ≤ 0x800000 ∧ ∀ j, j < len / 8 → s.flipsOf (a / 8 + j) = 0
    let macUp (b : Nat) : Prop := s.bit (NET_MAC_CTRL b) NET_MAC_CTRL_en = true ∧
        s.bit (NET_MAC_STAT b) NET_MAC_STAT_link = true
    let tail := s.fld NET_HTX_TAIL NET_HTX_TAIL_index % 2 ^ s.fld NET_HTX_CFG NET_HTX_CFG_slots_log2
    let slot := (s.reg NET_HTX_BASE).toNat + tail * 2048
    let head := (mantelWord32 s slot).toNat
    let len := head % 65536
    let b := head / 2 ^ 16 % 2
    s.awake = true ∧ s.pwr.xoLost = false ∧ s.inLight = false ∧ s.ramOpen = true ∧
        s.bit MEMC_INJ_CTRL MEMC_INJ_CTRL_arm = false ∧
        tail ≠ s.fld NET_HTX_HEAD NET_HTX_HEAD_index % 2 ^ s.fld NET_HTX_CFG NET_HTX_CFG_slots_log2 ∧ sound slot 2048 ∧
        60 ≤ len ∧ len ≤ 1518 ∧ head / 2 ^ 17 % 2 = 0 ∧ macUp b ∧ tabGet noPtp s.tsu.ptpTx b = [] ∧ s.mediaOf b = []) ∧
  (∃ (s : State) (p : Fin 2) (ok : Bool) (bytes : List Byte),
    let size : Prop := 60 ≤ bytes.length ∧ bytes.length ≤ 1518
    s.awake = true ∧ s.pwr.xoLost = false ∧ s.inLight = false ∧ s.ramOpen = true ∧
        s.bit MEMC_INJ_CTRL MEMC_INJ_CTRL_arm = false ∧ s.bit (NET_MAC_CTRL p.val) NET_MAC_CTRL_en = true ∧
        (ok = false ∨ ¬size)) ∧
  (∃ (s : State) (p : Fin 2) (ok : Bool) (bytes : List Byte),
    let size : Prop := 60 ≤ bytes.length ∧ bytes.length ≤ 1518
    s.awake = true ∧ s.pwr.xoLost = false ∧ s.inLight = false ∧ s.ramOpen = true ∧
        s.bit MEMC_INJ_CTRL MEMC_INJ_CTRL_arm = false ∧ s.bit (NET_MAC_CTRL p.val) NET_MAC_CTRL_en = true ∧ ok = true ∧
        size ∧ beAt bytes 12 2 = 0x8808 ∧ beAt bytes 14 2 = 1) ∧
  (∃ (s : State) (p : Fin 2) (ok : Bool) (bytes : List Byte),
    let plainFrame : Prop := beAt bytes 12 2 ∉ [0x0800, 0x8100, 0x88A8, 0x88F7, 0x8808]
    let size : Prop := 60 ≤ bytes.length ∧ bytes.length ≤ 1518
    s.awake = true ∧ s.pwr.xoLost = false ∧ s.inLight = false ∧ s.ramOpen = true ∧
        s.bit MEMC_INJ_CTRL MEMC_INJ_CTRL_arm = false ∧ s.bit (NET_MAC_CTRL p.val) NET_MAC_CTRL_en = true ∧ ok = true ∧
        size ∧ plainFrame ∧ s.hostTakes p.val bytes = false) ∧
  (∃ (s : State) (p : Fin 2) (ok : Bool) (bytes : List Byte),
    let ring := 2 ^ s.fld NET_HRX_CFG NET_HRX_CFG_slots_log2
    let hr := s.fld NET_HRX_HEAD NET_HRX_HEAD_index % ring
    let full : Prop := (hr + 1) % ring = s.fld NET_HRX_TAIL NET_HRX_TAIL_index % ring
    let plainFrame : Prop := beAt bytes 12 2 ∉ [0x0800, 0x8100, 0x88A8, 0x88F7, 0x8808]
    let size : Prop := 60 ≤ bytes.length ∧ bytes.length ≤ 1518
    s.awake = true ∧ s.pwr.xoLost = false ∧ s.inLight = false ∧ s.ramOpen = true ∧
        s.bit MEMC_INJ_CTRL MEMC_INJ_CTRL_arm = false ∧ s.bit (NET_MAC_CTRL p.val) NET_MAC_CTRL_en = true ∧ ok = true ∧
        size ∧ plainFrame ∧ s.hostTakes p.val bytes = true ∧ full) ∧
  (∃ (s : State) (p : Fin 2) (ok : Bool) (bytes : List Byte),
    let ring := 2 ^ s.fld NET_HRX_CFG NET_HRX_CFG_slots_log2
    let hr := s.fld NET_HRX_HEAD NET_HRX_HEAD_index % ring
    let full : Prop := (hr + 1) % ring = s.fld NET_HRX_TAIL NET_HRX_TAIL_index % ring
    let place := (s.reg NET_HRX_BASE).toNat + hr * 2048
    let plainFrame : Prop := beAt bytes 12 2 ∉ [0x0800, 0x8100, 0x88A8, 0x88F7, 0x8808]
    let size : Prop := 60 ≤ bytes.length ∧ bytes.length ≤ 1518
    s.awake = true ∧ s.pwr.xoLost = false ∧ s.inLight = false ∧ s.ramOpen = true ∧
        s.bit MEMC_INJ_CTRL MEMC_INJ_CTRL_arm = false ∧ s.bit (NET_MAC_CTRL p.val) NET_MAC_CTRL_en = true ∧ ok = true ∧
        size ∧ plainFrame ∧ s.hostTakes p.val bytes = true ∧ (¬full) ∧ place % 8 = 0 ∧
        place + 16 + (bytes.length + 7) / 8 * 8 ≤ 0x800000) :=
  ⟨⟨openRam ((wr [(NET_RXS_BUF_BASE 63 + 4, NET_RXS_BUF_CFG_frames_log2, 12),
      (NET_RXS_TIMING 63, NET_RXS_TIMING_d, 4095)]).setReg (NET_RXS_BUF_BASE 63) 0x7C0000), 0x300, 63, 0xF01,
      by dsimp only; decide⟩,
   ⟨openRam ((wr [(NET_RXS_BUF_BASE 63 + 4, NET_RXS_BUF_CFG_frames_log2, 12),
       (NET_RXS_TIMING 63, NET_RXS_TIMING_d, 4095)]).setReg (NET_RXS_BUF_BASE 63) 0x7C0008), 0x300, 63, 0xF01,
       by dsimp only; decide⟩,
   ⟨openRam State.reset, 0x300, 63, 0x081, by dsimp only; decide⟩,
   ⟨openRam State.reset, 0x300, 63, 0xFD1, by dsimp only; decide⟩,
   ⟨(openRam (wr [(NET_RXS_CTRL 63, NET_RXS_CTRL_en, 1), (NET_RXS_CTRL 63, NET_RXS_CTRL_dest, 1),
       (NET_RXS_CTRL 63, NET_RXS_CTRL_chans, 15)])).modRxs 63 fun r => { r with marks := [0] }, 63, by dsimp only; decide⟩,
   ⟨openRam (wr [(NET_RXS_CTRL 63, NET_RXS_CTRL_en, 1), (NET_RXS_CTRL 63, NET_RXS_CTRL_dest, 1),
       (NET_RXS_CTRL 63, NET_RXS_CTRL_chans, 15)]), 63, by dsimp only; decide⟩,
   ⟨(openRam (wr [(NET_TXS_CTRL 63, NET_TXS_CTRL_en, 1)])).modTxs 63 fun t => { t with hold := [(0, some 9)] }, 63, 9,
       by dsimp only; decide⟩,
   ⟨{ ((openRam (wr [(NET_TXS_CTRL 63, NET_TXS_CTRL_en, 1), (NET_MAC_STAT 0, NET_MAC_STAT_link, 1)])).modTxs 63 fun t => { t with pkt := some (42, [[1]]) }).setMedia 0 (List.replicate 127 []) with rallyCount := 48 }, 63, 42, [[1]], by dsimp only; decide +kernel⟩,
   ⟨(openRam (wr [(NET_TXS_CTRL 63, NET_TXS_CTRL_en, 1)])).modTxs 63 fun t => { t with pkt := some (42, [[1]]) }, 63, 42,
       [[1]], by dsimp only; decide⟩,
   ⟨(openRam (wr [(NET_MAC_CTRL 1, NET_MAC_CTRL_en, 1), (NET_MAC_STAT 1, NET_MAC_STAT_link, 1)])).setMedia 1 [[1]], 1, [1],
       [], by dsimp only; decide⟩,
   ⟨openRam State.reset, 1, ⟨true, true, true⟩, by dsimp only; decide⟩,
   ⟨{ openRam (wr [(NET_HTX_HEAD, NET_HTX_HEAD_index, 1), (NET_HTX_CFG, NET_HTX_CFG_slots_log2, 8)]) with mantel := [(0, 0xEF), (1, 5)] }, by dsimp only; decide +kernel⟩,
   ⟨{ openRam (wr [(NET_HTX_HEAD, NET_HTX_HEAD_index, 1), (NET_HTX_CFG, NET_HTX_CFG_slots_log2, 8), (NET_MAC_CTRL 0, NET_MAC_CTRL_en, 1), (NET_MAC_STAT 0, NET_MAC_STAT_link, 1)]) with mantel := [(0, 0xEE), (1, 5)] }, by dsimp only; decide +kernel⟩,
   ⟨openRam (wr [(NET_MAC_CTRL 1, NET_MAC_CTRL_en, 1)]), 1, true, List.replicate 59 0, by dsimp only; decide⟩,
   ⟨openRam (wr [(NET_MAC_CTRL 1, NET_MAC_CTRL_en, 1)]), 1, true,
       List.replicate 12 0 ++ [0x88, 0x08, 0, 1] ++ List.replicate 44 0, by dsimp only; decide⟩,
   ⟨openRam (wr [(NET_MAC_CTRL 1, NET_MAC_CTRL_en, 1)]), 1, true, List.replicate 60 0, by dsimp only; decide⟩,
   ⟨openRam (wr [(NET_MAC_CTRL 1, NET_MAC_CTRL_en, 1), (NET_MAC_CTRL 1, NET_MAC_CTRL_host_rx, 1),
       (NET_HRX_CFG, NET_HRX_CFG_slots_log2, 1), (NET_HRX_TAIL, NET_HRX_TAIL_index, 1)]), 1, true, List.replicate 60 0,
       by dsimp only; decide⟩,
   ⟨openRam (wr [(NET_MAC_CTRL 1, NET_MAC_CTRL_en, 1), (NET_MAC_CTRL 1, NET_MAC_CTRL_host_rx, 1),
       (NET_HRX_CFG, NET_HRX_CFG_slots_log2, 8)]), 1, true, List.replicate 1518 0, by dsimp only; decide +kernel⟩⟩

theorem met_ScrubbingInjectionAndClear :
  (∃ (s : State) (m : Mid) (v : Word),
    let inj := MEMC_INJ_CTRL
    let armed := s.bit inj MEMC_INJ_CTRL_arm
    s.awake = true ∧ s.isSup m.val = true ∧ s.noneWaits m.val = true ∧ armed = true ∧
        v.toNat / 2 ^ 8 % 2 ^ 8 ≠ s.fld inj MEMC_INJ_CTRL_flip) ∧
  (∃ (s : State) (m : Mid) (v : Word),
    let inj := MEMC_INJ_CTRL
    let armed := s.bit inj MEMC_INJ_CTRL_arm
    s.awake = true ∧ s.isSup m.val = true ∧ s.noneWaits m.val = true ∧
        (armed = true → v.toNat / 2 ^ 8 % 2 ^ 8 = s.fld inj MEMC_INJ_CTRL_flip)) ∧
  (∃ (s : State) (m : Mid) (v : Word),
    let c := MEMC_SCRUB_CTRL
    let on := s.bit c MEMC_SCRUB_CTRL_en
    let a := s.fld MEMC_SCRUB_START MEMC_SCRUB_START_addr
    let b := s.fld MEMC_SCRUB_END MEMC_SCRUB_END_addr
    let tiles := v.getLsbD 2
    let inRange : Prop := if tiles then a ≤ b ∧ b ≤ 191 else a % 8 = 0 ∧ b % 8 = 0 ∧ a < b ∧ b ≤ 0x800000
    s.awake = true ∧ s.isSup m.val = true ∧ s.noneWaits m.val = true ∧ on = false ∧ inRange) ∧
  (∃ (s : State) (m : Mid) (v : Word),
    let c := MEMC_SCRUB_CTRL
    let on := s.bit c MEMC_SCRUB_CTRL_en
    let a := s.fld MEMC_SCRUB_START MEMC_SCRUB_START_addr
    let b := s.fld MEMC_SCRUB_END MEMC_SCRUB_END_addr
    let tiles := v.getLsbD 2
    let inRange : Prop := if tiles then a ≤ b ∧ b ≤ 191 else a % 8 = 0 ∧ b % 8 = 0 ∧ a < b ∧ b ≤ 0x800000
    s.awake = true ∧ s.isSup m.val = true ∧ s.noneWaits m.val = true ∧ on = false ∧ (¬inRange)) ∧
  (∃ (s : State) (m : Mid) (v : Word),
    let c := MEMC_SCRUB_CTRL
    let on := s.bit c MEMC_SCRUB_CTRL_en
    let same : Prop := s.reg c &&& 6 = v &&& 6
    s.awake = true ∧ s.isSup m.val = true ∧ s.noneWaits m.val = true ∧ on = true ∧ (¬same)) ∧
  (∃ (s : State) (m : Mid) (v : Word),
    let c := MEMC_SCRUB_CTRL
    let on := s.bit c MEMC_SCRUB_CTRL_en
    let same : Prop := s.reg c &&& 6 = v &&& 6
    s.awake = true ∧ s.isSup m.val = true ∧ s.noneWaits m.val = true ∧ on = true ∧ same) ∧
  (∃ (s : State),
    let c := MEMC_SCRUB_CTRL
    let on := s.bit c MEMC_SCRUB_CTRL_en
    let b := s.fld MEMC_SCRUB_END MEMC_SCRUB_END_addr
    let target := s.bit c MEMC_SCRUB_CTRL_target
    let pos := (s.reg MEMC_SCRUB_POS).toNat
    let runs : Prop := on = true ∧ target = false ∧ s.inRun = true ∧ s.ramOpen = true ∧ s.pwr.xoLost = false
    s.awake = true ∧ runs ∧ s.flipsOf (pos / 8) = 0 ∧ pos + 8 < b) ∧
  (∃ (s : State),
    let c := MEMC_SCRUB_CTRL
    let on := s.bit c MEMC_SCRUB_CTRL_en
    let b := s.fld MEMC_SCRUB_END MEMC_SCRUB_END_addr
    let target := s.bit c MEMC_SCRUB_CTRL_target
    let pos := (s.reg MEMC_SCRUB_POS).toNat
    let runs : Prop := on = true ∧ target = false ∧ s.inRun = true ∧ s.ramOpen = true ∧ s.pwr.xoLost = false
    s.awake = true ∧ runs ∧ s.flipsOf (pos / 8) = 0 ∧ b ≤ pos + 8) ∧
  (∃ (s : State) (k : Nat),
    let c := MEMC_SCRUB_CTRL
    let on := s.bit c MEMC_SCRUB_CTRL_en
    let b := s.fld MEMC_SCRUB_END MEMC_SCRUB_END_addr
    let target := s.bit c MEMC_SCRUB_CTRL_target
    let pos := (s.reg MEMC_SCRUB_POS).toNat
    let runs : Prop := on = true ∧ target = false ∧ s.inRun = true ∧ s.ramOpen = true ∧ s.pwr.xoLost = false
    s.awake = true ∧ k < 72 ∧ runs ∧ s.flipsOf (pos / 8) = 2 ^ k ∧ pos + 8 < b) ∧
  (∃ (s : State),
    s.awake = true ∧ s.ramOpen = false ∧ s.pwr.xoLost = false ∧ s.bit MEMC_STATUS MEMC_STATUS_clearing = true ∧
        s.quiet = true) :=
  ⟨⟨wr [(MEMC_INJ_CTRL, MEMC_INJ_CTRL_arm, 1)], 0x300, 0x100, by dsimp only; decide⟩,
   ⟨State.reset, 0x300, 0, by dsimp only; decide⟩,
   ⟨wr [(MEMC_SCRUB_START, MEMC_SCRUB_START_addr, 0x7FFFF8), (MEMC_SCRUB_END, MEMC_SCRUB_END_addr, 0x800000)], 0x300, 1,
       by dsimp only; decide⟩,
   ⟨wr [(MEMC_SCRUB_END, MEMC_SCRUB_END_addr, 192)], 0x300, 5, by dsimp only; decide⟩,
   ⟨wr [(MEMC_SCRUB_CTRL, MEMC_SCRUB_CTRL_en, 1)], 0x300, 6, by dsimp only; decide⟩,
   ⟨wr [(MEMC_SCRUB_CTRL, MEMC_SCRUB_CTRL_en, 1)], 0x300, 0, by dsimp only; decide⟩,
   ⟨openRam (wr [(MEMC_SCRUB_CTRL, MEMC_SCRUB_CTRL_en, 1), (MEMC_SCRUB_END, MEMC_SCRUB_END_addr, 16)]),
       by dsimp only; decide⟩,
   ⟨openRam (wr [(MEMC_SCRUB_CTRL, MEMC_SCRUB_CTRL_en, 1), (MEMC_SCRUB_END, MEMC_SCRUB_END_addr, 8)]),
       by dsimp only; decide⟩,
   ⟨{ openRam (wr [(MEMC_SCRUB_CTRL, MEMC_SCRUB_CTRL_en, 1), (MEMC_SCRUB_END, MEMC_SCRUB_END_addr, 16)]) with flips := [(0, 128)] }, 7, by dsimp only; decide⟩,
   ⟨wr [(MEMC_STATUS, MEMC_STATUS_clearing, 1)], by decide⟩⟩

theorem met_StagingWritesAndKickoffs :
  (∃ (s : State) (m : Mid) (i : Fin 16),
    let pc := DMP_SET_COUNT i.val
    let pending := s.bit pc DMP_SET_COUNT_pending
    s.awake = true ∧ s.isSup m.val = true ∧ s.jobs = [] ∧ pending = true) ∧
  (∃ (s : State) (m : Mid) (v : Word),
    s.awake = true ∧ s.isSup m.val = true ∧ s.jobs = [] ∧ 8192 < v.toNat % 2 ^ 14) ∧
  (∃ (s : State) (m : Mid) (i : Fin 16),
    let pc := DMP_SET_COUNT i.val
    let count := s.fld pc DMP_SET_COUNT_count
    s.awake = true ∧ s.isSup m.val = true ∧ s.jobs = [] ∧ 8192 ≤ count) ∧
  (∃ (s : State) (m : Mid) (i : Fin 16) (v : Word),
    let pc := DMP_SET_COUNT i.val
    let pending := s.bit pc DMP_SET_COUNT_pending
    s.awake = true ∧ s.isSup m.val = true ∧ s.jobs = [] ∧ pending = false ∧ v.toNat % 2 ^ 14 ≤ 8192) ∧
  (∃ (s : State) (m : Mid) (i : Fin 16),
    let pc := DMP_SET_COUNT i.val
    let pending := s.bit pc DMP_SET_COUNT_pending
    let count := s.fld pc DMP_SET_COUNT_count
    let place (k : Nat) : Nat := (s.reg DMP_STG_BASE).toNat + 0x10000 * i.val + 8 * k
    s.awake = true ∧ s.isSup m.val = true ∧ s.jobs = [] ∧ pending = false ∧ count < 8192 ∧
        (s.reg DMP_STG_BASE).toNat % 8 = 0 ∧ place count + 8 ≤ 0x800000 ∧ s.bit MEMC_INJ_CTRL MEMC_INJ_CTRL_arm = false) ∧
  (∃ (s : State) (m : Mid) (v : Word),
    let lead := v.toNat / 2 ^ 8 % 2 ^ 7
    let ctrlOk : Prop := 8 ≤ lead ∧ lead ≤ 120 ∧ v.toNat / 2 % 2 ^ 7 ≤ 64
    s.awake = true ∧ s.isSup m.val = true ∧ s.jobs = [] ∧ ctrlOk) ∧
  (∃ (s : State) (m : Mid) (v : Word),
    let lead := v.toNat / 2 ^ 8 % 2 ^ 7
    let ctrlOk : Prop := 8 ≤ lead ∧ lead ≤ 120 ∧ v.toNat / 2 % 2 ^ 7 ≤ 64
    s.awake = true ∧ s.isSup m.val = true ∧ s.jobs = [] ∧ (¬ctrlOk)) ∧
  (∃ (s : State) (m : Mid),
    let en := s.bit DMP_CTRL DMP_CTRL_en
    s.awake = true ∧ s.isSup m.val = true ∧ s.jobs = [] ∧ en = false) ∧
  (∃ (s : State) (m : Mid) (v : Word),
    let en := s.bit DMP_CTRL DMP_CTRL_en
    let set := v.toNat / 2 ^ 16 % 2 ^ 4
    let sc := DMP_SET_COUNT set
    s.awake = true ∧ s.isSup m.val = true ∧ s.jobs = [] ∧ (en = false ∨ s.bit sc DMP_SET_COUNT_pending = true)) ∧
  (∃ (s : State) (m : Mid) (n : Nat) (d : Nat),
    let en := s.bit DMP_CTRL DMP_CTRL_en
    let d0 := s.dmp
    let w := tabGet zeroWord d0.wrParam m.val
    let free : Prop := s.inLight = false ∧ en = true ∧ d0.fill < 1024 ∧ d0.begun = none ∧ d0.closed = []
    s.awake = true ∧ s.isSup m.val = true ∧ s.jobs = [] ∧ free ∧ DMP_WR_PARAM_at_en.get w = 1 ∧ ahead s n d ∧
        s.dmpLead < d ∧ d < 2 ^ 31 ∧ tabGet zeroWord d0.wrAt m.val = BitVec.ofNat 32 n) ∧
  (∃ (s : State) (m : Mid),
    let en := s.bit DMP_CTRL DMP_CTRL_en
    let d0 := s.dmp
    let w := tabGet zeroWord d0.wrParam m.val
    let free : Prop := s.inLight = false ∧ en = true ∧ d0.fill < 1024 ∧ d0.begun = none ∧ d0.closed = []
    s.awake = true ∧ s.isSup m.val = true ∧ s.jobs = [] ∧ free ∧ DMP_WR_PARAM_at_en.get w = 0 ∧ d0.items = []) ∧
  (∃ (s : State) (m : Mid) (v : Word) (d : Nat),
    let en := s.bit DMP_CTRL DMP_CTRL_en
    let d0 := s.dmp
    let free : Prop := s.inLight = false ∧ en = true ∧ d0.fill < 1024 ∧ d0.begun = none ∧ d0.closed = []
    let set := v.toNat / 2 ^ 16 % 2 ^ 4
    let sc := DMP_SET_COUNT set
    let sa (k : Nat) : Nat := (s.reg DMP_STG_BASE).toNat + 0x10000 * set + 8 * k
    let kick := (tabGet zeroWord d0.kickLo m.val).toNat + v.toNat % 2 ^ 16 * 2 ^ 32
    s.awake = true ∧ s.isSup m.val = true ∧ s.jobs = [] ∧ free ∧ s.bit sc DMP_SET_COUNT_pending = false ∧
        v.getLsbD 20 = false ∧ v.getLsbD 21 = false ∧ ahead s kick d ∧ s.dmpLead < d ∧ d < 2 ^ 47 ∧
        (s.reg DMP_STG_BASE).toNat % 8 = 0 ∧ (∀ k, k < s.fld sc DMP_SET_COUNT_count → sa k + 8 ≤ 0x800000 ∧
        s.flipsOf (sa k / 8) = 0)) :=
  ⟨⟨wr [(DMP_SET_COUNT 15, DMP_SET_COUNT_pending, 1)], 0x300, 15, by dsimp only; decide⟩,
   ⟨State.reset, 0x300, 8193, by decide⟩,
   ⟨wr [(DMP_SET_COUNT 15, DMP_SET_COUNT_count, 8192)], 0x300, 15, by dsimp only; decide⟩,
   ⟨State.reset, 0x300, 15, 8192, by dsimp only; decide⟩,
   ⟨wr [(DMP_SET_COUNT 15, DMP_SET_COUNT_count, 8191)], 0x300, 15, by dsimp only; decide⟩,
   ⟨State.reset, 0x300, 0x7881, by dsimp only; decide⟩,
   ⟨State.reset, 0x300, 0x7901, by dsimp only; decide⟩,
   ⟨State.reset, 0x300, by dsimp only; decide⟩,
   ⟨State.reset, 0x300, 0, by dsimp only; decide⟩,
   ⟨{ wr [(DMP_CTRL, DMP_CTRL_en, 1)] with dmp := { State.reset.dmp with wrParam := [(0x300, DMP_WR_PARAM_at_en.set 0 1)], wrAt := [(0x300, 0x7FFFFFFF)] } }, 0x300, 2 ^ 31 - 1, 2 ^ 31 - 1, by unfold ahead; dsimp only; decide +kernel⟩,
   ⟨wr [(DMP_CTRL, DMP_CTRL_en, 1)], 0x300, by dsimp only; decide +kernel⟩,
   ⟨{ wr [(DMP_CTRL, DMP_CTRL_en, 1)] with dmp := { State.reset.dmp with kickLo := [(0x300, 0xFFFFFFFF)] } }, 0x300,
       0x7FFF, 2 ^ 47 - 1, by unfold ahead; dsimp only; decide +kernel⟩⟩

theorem met_GroupsResolvedAndDelivered :
  (∃ (s : State) (a : DmpVal) (n : Nat),
    let d0 := s.dmp
    let item (vals : List DmpVal) : DmpItem := ⟨n, n, none, none, vals, false, .nobody⟩
    let due : Prop := countDiff n s.rallyCount ≤ s.dmpLead
    s.awake = true ∧ s.jobs = [] ∧ s.pwr.xoLost = false ∧ due ∧ d0.closed = [] ∧ d0.items = [item [a]]) ∧
  (∃ (s : State) (a : DmpVal) (b : DmpVal) (n : Nat),
    let d0 := s.dmp
    let item (vals : List DmpVal) : DmpItem := ⟨n, n, none, none, vals, false, .nobody⟩
    let due : Prop := countDiff n s.rallyCount ≤ s.dmpLead
    s.awake = true ∧ s.jobs = [] ∧ s.pwr.xoLost = false ∧ due ∧ d0.closed = [] ∧ d0.items = [item [a], item [b]] ∧
        a.param = b.param ∧ a.mid ≠ b.mid ∧ (b.rank < a.rank ∨ (a.rank = b.rank ∧ a.mid < b.mid))) ∧
  (∃ (s : State) (a : DmpVal) (n : Nat) (set : Nat),
    let d0 := s.dmp
    let kicked : DmpItem := ⟨n, n, some set, none, [a], false, .nobody⟩
    let entry := (s.reg DMP_MAP_BASE).toNat + 8 * a.param
    let low := (mantelWord32 s entry).toNat
    let h := low % 2 ^ 8
    s.awake = true ∧ s.jobs = [] ∧ s.pwr.xoLost = false ∧ s.ramOpen = true ∧ d0.delivery = none ∧ d0.closed = [(n,
        [kicked])] ∧ n < 2 ^ 48 ∧ set < 16 ∧ h ≤ 191 ∧ low / 2 ^ 17 = 2 ^ 14 ∧ entry % 8 = 0 ∧ entry + 8 ≤ 0x800000 ∧
        s.flipsOf (entry / 8) = 0 ∧ s.bit MEMC_INJ_CTRL MEMC_INJ_CTRL_arm = false ∧ s.lastArmOf h = none ∧
        0 < countDiff ((n + 2 ^ 48 - 1) % 2 ^ 48) s.rallyCount) ∧
  (∃ (s : State) (port : Nat) (k : ChmPacket) (rest : List (Nat × ChmPacket)),
    let sum := s.reg DMP_KREP_SUM
    let status := k.word / 2 ^ 16 % 4
    s.awake = true ∧ s.jobs = [] ∧ s.pwr.xoLost = false ∧ s.chm.ctrlIn = (port, k) :: rest ∧ k.kind = 3 ∧ k.src < 64 ∧
        k.word % 2 ^ 8 = DMP_KREP_SUM_seq.get sum ∧ status = 1) :=
  ⟨⟨{ State.reset with dmp := { State.reset.dmp with items := [⟨0, 0, none, none, [⟨1, 2, 3, 4⟩], false, .nobody⟩] } },
      ⟨1, 2, 3, 4⟩, 0, by dsimp only; decide⟩,
   ⟨{ State.reset with dmp := { State.reset.dmp with items := [⟨0, 0, none, none, [⟨1, 2, 3, 4⟩], false, .nobody⟩, ⟨0, 0, none, none, [⟨1, 9, 3, 5⟩], false, .nobody⟩] } }, ⟨1, 2, 3, 4⟩, ⟨1, 9, 3, 5⟩, 0, by dsimp only; decide⟩,
   ⟨{ openRam State.reset with mantel := [(0, 191), (3, 0x80)], dmp := { State.reset.dmp with closed := [(2, [⟨2, 2, some 15, none, [⟨0, 2, 3, 4⟩], false, .nobody⟩])] } }, ⟨0, 2, 3, 4⟩, 2, 15, by dsimp only; decide +kernel⟩,
   ⟨{ State.reset with chm := { State.reset.chm with ctrlIn := [(0, pk typCtrl (3 * 2 ^ 12 + 63 * 2 ^ 22) [0x10000])] } },
       0, pk typCtrl (3 * 2 ^ 12 + 63 * 2 ^ 22) [0x10000], [], by dsimp only; decide +kernel⟩⟩

theorem met_TransportsCountAndGates :
  (∃ (s : State) (i : Fin 4) (a : Bool) (b : Bool),
    let n := i.val
    let x := s.trans n
    let cfg := MIF_CFG n
    let f (d : Fld) : Nat := s.fld cfg d
    s.awake = true ∧ s.pwr.xoLost = false ∧ (s.wideOf (wideKey (.mifPos i))).load = none ∧ x.filtA.pin = a ∧ a ≠ x.a ∧
        b = x.b ∧ x.filtA.slots < f MIF_CFG_filt) ∧
  (∃ (s : State) (i : Fin 4),
    let n := i.val
    let cfg := MIF_CFG n
    let on := s.bit cfg MIF_CFG_en
    let f (d : Fld) : Nat := s.fld cfg d
    let direct : Prop := f MIF_CFG_filt = 0
    s.awake = true ∧ s.pwr.xoLost = false ∧ (s.wideOf (wideKey (.mifPos i))).load = none ∧ on = false ∧ direct) ∧
  (∃ (s : State) (i : Fin 4),
    let n := i.val
    let cfg := MIF_CFG n
    let st := MIF_STAT n
    let f (d : Fld) : Nat := s.fld cfg d
    let direct : Prop := f MIF_CFG_filt = 0
    let settled : Prop := ∀ back, s.fixedDir n = some back → s.bit st MIF_STAT_dir = back
    let src := f MIF_CFG_dir_src
    s.awake = true ∧ s.pwr.xoLost = false ∧ (s.wideOf (wideKey (.mifPos i))).load = none ∧ src ≠ 1 ∧ settled ∧ direct) ∧
  (∃ (s : State) (i : Fin 4) (a : Bool) (b : Bool),
    let n := i.val
    let x := s.trans n
    let cfg := MIF_CFG n
    let on := s.bit cfg MIF_CFG_en
    let f (d : Fld) : Nat := s.fld cfg d
    let direct : Prop := f MIF_CFG_filt = 0
    s.awake = true ∧ s.pwr.xoLost = false ∧ (s.wideOf (wideKey (.mifPos i))).load = none ∧ on = true ∧ direct ∧
        f MIF_CFG_decode ≠ 3 ∧ x.a ≠ a ∧ x.b ≠ b) ∧
  (∃ (s : State) (i : Fin 4) (a : Bool) (b : Bool),
    let n := i.val
    let x := s.trans n
    let cfg := MIF_CFG n
    let st := MIF_STAT n
    let on := s.bit cfg MIF_CFG_en
    let f (d : Fld) : Nat := s.fld cfg d
    let direct : Prop := f MIF_CFG_filt = 0
    let src := f MIF_CFG_dir_src
    let inv (d : Int) : Int := if s.bit cfg MIF_CFG_invert then -d else d
    let ea := x.a != a
    let lead : Int := if ea then (if a != b then 1 else -1) else if a = b then 1 else -1
    let inPos (p : Int) : Prop := -2 ^ 47 ≤ p ∧ p < 2 ^ 47
    s.awake = true ∧ s.pwr.xoLost = false ∧ (s.wideOf (wideKey (.mifPos i))).load = none ∧ on = true ∧ direct ∧
        f MIF_CFG_decode = 2 ∧ (x.a = a ↔ x.b ≠ b) ∧ inPos (x.pos + inv lead) ∧
        (src ≠ 0 ∨ x.extreme - f MIF_CFG_rev_hyst < x.pos + inv lead) ∧ s.bit st MIF_STAT_dir = false) ∧
  (∃ (s : State) (i : Fin 4) (a : Bool) (b : Bool),
    let n := i.val
    let x := s.trans n
    let cfg := MIF_CFG n
    let st := MIF_STAT n
    let on := s.bit cfg MIF_CFG_en
    let f (d : Fld) : Nat := s.fld cfg d
    let direct : Prop := f MIF_CFG_filt = 0
    let src := f MIF_CFG_dir_src
    let inv (d : Int) : Int := if s.bit cfg MIF_CFG_invert then -d else d
    let ea := x.a != a
    let lead : Int := if ea then (if a != b then 1 else -1) else if a = b then 1 else -1
    let inPos (p : Int) : Prop := -2 ^ 47 ≤ p ∧ p < 2 ^ 47
    s.awake = true ∧ s.pwr.xoLost = false ∧ (s.wideOf (wideKey (.mifPos i))).load = none ∧ on = true ∧ direct ∧
        f MIF_CFG_decode = 2 ∧ (x.a = a ↔ x.b ≠ b) ∧ inPos (x.pos + inv lead) ∧ src = 0 ∧ s.bit st MIF_STAT_dir = false ∧
        x.pos + inv lead ≤ x.extreme - f MIF_CFG_rev_hyst) ∧
  (∃ (s : State) (i : Fin 4) (a : Bool),
    let n := i.val
    let x := s.trans n
    let cfg := MIF_CFG n
    let st := MIF_STAT n
    let on := s.bit cfg MIF_CFG_en
    let f (d : Fld) : Nat := s.fld cfg d
    let direct : Prop := f MIF_CFG_filt = 0
    let src := f MIF_CFG_dir_src
    let inv (d : Int) : Int := if s.bit cfg MIF_CFG_invert then -d else d
    let inPos (p : Int) : Prop := -2 ^ 47 ≤ p ∧ p < 2 ^ 47
    s.awake = true ∧ s.pwr.xoLost = false ∧ (s.wideOf (wideKey (.mifPos i))).load = none ∧ on = true ∧ direct ∧
        f MIF_CFG_decode = 3 ∧ src = 2 ∧ s.bit st MIF_STAT_dir = false ∧ x.a = false ∧ a = true ∧ inPos (x.pos + inv 1)) ∧
  (∃ (s : State) (i : Fin 4),
    let n := i.val
    let cfg := MIF_CFG n
    let f (d : Fld) : Nat := s.fld cfg d
    let direct : Prop := f MIF_CFG_filt = 0
    let src := f MIF_CFG_dir_src
    s.awake = true ∧ s.pwr.xoLost = false ∧ (s.wideOf (wideKey (.mifPos i))).load = none ∧ direct ∧ src = 1) ∧
  (∃ (s : State) (i : Fin 4) (rising : Bool),
    let n := i.val
    let cfg := MIF_CFG n
    let f (d : Fld) : Nat := s.fld cfg d
    let direct : Prop := f MIF_CFG_filt = 0
    s.awake = true ∧ s.pwr.xoLost = false ∧ (s.wideOf (wideKey (.mifPos i))).load = none ∧ direct ∧
        s.bit cfg MIF_CFG_idx_pol = !rising ∧ f MIF_CFG_idx_mode = 1) ∧
  (∃ (s : State) (i : Fin 4) (r : GateReq) (rest : List GateReq),
    let runsAt (j : Nat) : Prop := s.gateOn j = true ∧ s.mifState (s.gateTrans j) = 1
    s.awake = true ∧ s.pwr.xoLost = false ∧ (s.wideOf (wideKey (.mifPos i))).load = none ∧ s.mif.gateReqs = r :: rest ∧
        r.gate < 16 ∧ r.openIt = true ∧ runsAt r.gate ∧ r.transport = s.gateTrans r.gate) ∧
  (∃ (s : State) (i : Fin 4) (r : GateReq) (rest : List GateReq),
    s.awake = true ∧ s.pwr.xoLost = false ∧ (s.wideOf (wideKey (.mifPos i))).load = none ∧ s.mif.gateReqs = r :: rest ∧
        r.gate < 16 ∧ s.gateOn r.gate = false) ∧
  (∃ (s : State) (m : Mid) (i : Fin 4) (v : Word),
    let runsAt (j : Nat) : Prop := s.gateOn j = true ∧ s.mifState (s.gateTrans j) = 1
    s.awake = true ∧ s.pwr.xoLost = false ∧ (s.wideOf (wideKey (.mifPos i))).load = none ∧ s.isSup m.val = true ∧
        s.noneWaits m.val = true ∧ (∀ j, j < 16 → v.getLsbD j = true → runsAt j)) ∧
  (∃ (s : State) (m : Mid) (i : Fin 4) (v : Word) (g : Nat),
    let runsAt (j : Nat) : Prop := s.gateOn j = true ∧ s.mifState (s.gateTrans j) = 1
    s.awake = true ∧ s.pwr.xoLost = false ∧ (s.wideOf (wideKey (.mifPos i))).load = none ∧ s.isSup m.val = true ∧
        s.noneWaits m.val = true ∧ g < 16 ∧ (¬runsAt g) ∧ s.gateOpen g = false ∧ v = BitVec.ofNat 32 (2 ^ g)) ∧
  (∃ (s : State) (m : Mid) (i : Fin 4) (v : Word),
    let n := i.val
    let cfg := MIF_CFG n
    let on := s.bit cfg MIF_CFG_en
    let ok : Prop := ¬(MIF_CFG_decode.get v = 3 ∧ MIF_CFG_dir_src.get v = 0) ∧ MIF_CFG_idx_mode.get v ≠ 3 ∧
        MIF_CFG_rev_hyst.get v ≠ 0
    let fixed : Prop := s.reg cfg &&& 0x3FFE = v &&& 0x3FFE
    s.awake = true ∧ s.pwr.xoLost = false ∧ (s.wideOf (wideKey (.mifPos i))).load = none ∧ s.isSup m.val = true ∧
        s.noneWaits m.val = true ∧ (¬ok ∨ (on = true ∧ ¬fixed))) ∧
  (∃ (s : State) (m : Mid) (i : Fin 4) (v : Word),
    let n := i.val
    let cfg := MIF_CFG n
    let on := s.bit cfg MIF_CFG_en
    let ok : Prop := ¬(MIF_CFG_decode.get v = 3 ∧ MIF_CFG_dir_src.get v = 0) ∧ MIF_CFG_idx_mode.get v ≠ 3 ∧
        MIF_CFG_rev_hyst.get v ≠ 0
    s.awake = true ∧ s.pwr.xoLost = false ∧ (s.wideOf (wideKey (.mifPos i))).load = none ∧ s.isSup m.val = true ∧
        s.noneWaits m.val = true ∧ on = false ∧ ok ∧ MIF_CFG_dir_src.get v = 0) ∧
  (∃ (s : State) (m : Mid) (i : Fin 4) (v : Word),
    let n := i.val
    let cfg := MIF_CFG n
    let st := MIF_STAT n
    let on := s.bit cfg MIF_CFG_en
    let settled : Prop := ∀ back, s.fixedDir n = some back → s.bit st MIF_STAT_dir = back
    let ok : Prop := ¬(MIF_CFG_decode.get v = 3 ∧ MIF_CFG_dir_src.get v = 0) ∧ MIF_CFG_idx_mode.get v ≠ 3 ∧
        MIF_CFG_rev_hyst.get v ≠ 0
    let fixed : Prop := s.reg cfg &&& 0x3FFE = v &&& 0x3FFE
    s.awake = true ∧ s.pwr.xoLost = false ∧ (s.wideOf (wideKey (.mifPos i))).load = none ∧ s.isSup m.val = true ∧
        s.noneWaits m.val = true ∧ on = true ∧ ok ∧ fixed ∧ settled) :=
  ⟨⟨(wr [(MIF_CFG 3, MIF_CFG_filt, 1)]).modTrans 3 fun x => { x with filtA := ⟨true, 0⟩ }, 3, true, false,
      by dsimp only; decide⟩,
   ⟨wr [(MIF_CFG 3, MIF_CFG_dir_src, 1)], 3, by dsimp only; decide⟩,
   ⟨wr [(MIF_CFG 3, MIF_CFG_en, 1), (MIF_CFG 3, MIF_CFG_dir_src, 2)], 3,
       ⟨by decide, by decide, by decide, by decide, by intro r; cases r <;> decide, by decide⟩⟩,
   ⟨wr [(MIF_CFG 3, MIF_CFG_en, 1)], 3, true, true, by dsimp only; decide⟩,
   ⟨wr [(MIF_CFG 3, MIF_CFG_en, 1), (MIF_CFG 3, MIF_CFG_decode, 2), (MIF_CFG 3, MIF_CFG_dir_src, 0)], 3, true, false,
       by dsimp only; decide⟩,
   ⟨(wr [(MIF_CFG 3, MIF_CFG_en, 1), (MIF_CFG 3, MIF_CFG_decode, 2),
       (MIF_CFG 3, MIF_CFG_dir_src, 0)]).modTrans 3 fun x => { x with extreme := 100 }, 3, true, false,
       by dsimp only; decide⟩,
   ⟨wr [(MIF_CFG 3, MIF_CFG_en, 1), (MIF_CFG 3, MIF_CFG_decode, 3), (MIF_CFG 3, MIF_CFG_dir_src, 2)], 3, true,
       by dsimp only; decide⟩,
   ⟨wr [(MIF_CFG 3, MIF_CFG_en, 1), (MIF_CFG 3, MIF_CFG_dir_src, 1)], 3, by dsimp only; decide⟩,
   ⟨wr [(MIF_CFG 3, MIF_CFG_idx_pol, 0), (MIF_CFG 3, MIF_CFG_idx_mode, 1)], 3, true, by dsimp only; decide⟩,
   ⟨{ wr [(MIF_GATE_CFG 15, MIF_GATE_CFG_en, 1), (MIF_STAT 0, MIF_STAT_state, 1)] with mif := { State.reset.mif with gateReqs := [⟨15, 0, true⟩] } }, 3, ⟨15, 0, true⟩, [], by dsimp only; decide⟩,
   ⟨{ State.reset with mif := { State.reset.mif with gateReqs := [⟨15, 0, true⟩] } }, 3, ⟨15, 0, true⟩, [], by decide⟩,
   ⟨wr [(MIF_GATE_CFG 15, MIF_GATE_CFG_en, 1), (MIF_STAT 0, MIF_STAT_state, 1)], 0x300, 0, 0x8000, by dsimp only; decide⟩,
   ⟨State.reset, 0x300, 0, 0x8000, 15, by dsimp only; decide⟩,
   ⟨State.reset, 0x300, 0, MIF_CFG_rev_hyst.set (MIF_CFG_decode.set 0 3) 1, by dsimp only; decide⟩,
   ⟨State.reset, 0x300, 0, MIF_CFG_rev_hyst.set 0 1, by dsimp only; decide⟩,
   ⟨flds [(MIF_CFG 3, MIF_CFG_en, 1)] (State.reset.setReg (MIF_CFG 3) (MIF_CFG_rev_hyst.set 0 1)), 0x300, 3,
       MIF_CFG_rev_hyst.set 0 1, ⟨by decide, by decide, by decide, by decide, by decide, by decide, by decide, by decide,
       by intro r; cases r <;> decide⟩⟩⟩

theorem met_TimecodeAndCues :
  (∃ (s : State) (speed : BitVec 16),
    let inSpeed : Prop := 4096 ≤ 10 * speed.toNat ∧ speed.toNat ≤ 10 * 4096
    s.awake = true ∧ s.pwr.xoLost = false ∧ (¬inSpeed)) ∧
  (∃ (s : State) (b : BitVec 80) (periods : Bool) (speed : BitVec 16),
    let bits (lo len : Nat) : Nat := b.toNat / 2 ^ lo % 2 ^ len
    let forward : Prop := bits 64 16 = 0xBFFC
    let backward : Prop := bits 64 16 ≠ 0xBFFC ∧ b.reverse.toNat / 2 ^ 64 = 0xBFFC
    let inSpeed : Prop := 4096 ≤ 10 * speed.toNat ∧ speed.toNat ≤ 10 * 4096
    s.awake = true ∧ s.pwr.xoLost = false ∧ inSpeed ∧ (periods = false ∨ ¬forward ∧ ¬backward)) ∧
  (∃ (s : State) (b : BitVec 80) (speed : BitVec 16),
    let bits (lo len : Nat) : Nat := b.toNat / 2 ^ lo % 2 ^ len
    let backward : Prop := bits 64 16 ≠ 0xBFFC ∧ b.reverse.toNat / 2 ^ 64 = 0xBFFC
    let inSpeed : Prop := 4096 ≤ 10 * speed.toNat ∧ speed.toNat ≤ 10 * 4096
    s.awake = true ∧ s.pwr.xoLost = false ∧ inSpeed ∧ backward) ∧
  (∃ (s : State) (b : BitVec 80) (speed : BitVec 16),
    let bits (lo len : Nat) : Nat := b.toNat / 2 ^ lo % 2 ^ len
    let forward : Prop := bits 64 16 = 0xBFFC
    let inSpeed : Prop := 4096 ≤ 10 * speed.toNat ∧ speed.toNat ≤ 10 * 4096
    s.awake = true ∧ s.pwr.xoLost = false ∧ inSpeed ∧ forward) ∧
  (∃ (s : State) (i : Fin 4) (late : Bool),
    let n := i.val
    let x := s.trans n
    let ctl := MIF_LTCO_CTRL n
    s.awake = true ∧ s.pwr.xoLost = false ∧ s.bit ctl MIF_LTCO_CTRL_en = true ∧ s.pwr.hold = false ∧ x.genDue = some late) ∧
  (∃ (s : State) (i : Fin 4),
    let n := i.val
    let x := s.trans n
    let ctl := MIF_LTCO_CTRL n
    s.awake = true ∧ s.pwr.xoLost = false ∧ s.bit ctl MIF_LTCO_CTRL_en = true ∧ s.pwr.hold = false ∧ x.genDue = none ∧
        x.genOn = true) ∧
  (∃ (s : State) (i : Fin 4),
    let n := i.val
    let ctl := MIF_LTCO_CTRL n
    s.awake = true ∧ s.pwr.xoLost = false ∧ s.bit ctl MIF_LTCO_CTRL_en = false) ∧
  (∃ (s : State) (m : Mid) (i : Fin 4) (v : Word),
    let n := i.val
    let x := s.trans n
    let ctl := MIF_LTCO_CTRL n
    let fps := s.fld ctl MIF_LTCO_CTRL_fps
    let sameRate : Prop := x.genOn = true → MIF_LTCO_CTRL_fps.get v = fps
    s.awake = true ∧ s.pwr.xoLost = false ∧ s.isSup m.val = true ∧ s.noneWaits m.val = true ∧ (¬sameRate)) ∧
  (∃ (s : State) (m : Mid) (i : Fin 4) (v : Word),
    let n := i.val
    let x := s.trans n
    let ctl := MIF_LTCO_CTRL n
    let fps := s.fld ctl MIF_LTCO_CTRL_fps
    let sameRate : Prop := x.genOn = true → MIF_LTCO_CTRL_fps.get v = fps
    s.awake = true ∧ s.pwr.xoLost = false ∧ s.isSup m.val = true ∧ s.noneWaits m.val = true ∧ sameRate ∧
        v.getLsbD 4 = false) ∧
  (∃ (s : State) (m : Mid) (v : Word),
    let hi (lo len : Nat) : Nat := v.toNat / 2 ^ lo % 2 ^ len
    let bad : Prop := hi 23 1 = 1 ∧ (hi 16 2 = 3 ∨ hi 20 2 = 3)
    s.awake = true ∧ s.pwr.xoLost = false ∧ s.isSup m.val = true ∧ s.noneWaits m.val = true ∧ bad) ∧
  (∃ (s : State) (m : Mid) (v : Word),
    let hi (lo len : Nat) : Nat := v.toNat / 2 ^ lo % 2 ^ len
    let bad : Prop := hi 23 1 = 1 ∧ (hi 16 2 = 3 ∨ hi 20 2 = 3)
    s.awake = true ∧ s.pwr.xoLost = false ∧ s.isSup m.val = true ∧ s.noneWaits m.val = true ∧ (¬bad) ∧ hi 16 2 = 2) ∧
  (∃ (s : State) (m : Mid) (v : Word) (c : Fin 4096),
    let hi (lo len : Nat) : Nat := v.toNat / 2 ^ lo % 2 ^ len
    let bad : Prop := hi 23 1 = 1 ∧ (hi 16 2 = 3 ∨ hi 20 2 = 3)
    s.awake = true ∧ s.pwr.xoLost = false ∧ s.isSup m.val = true ∧ s.noneWaits m.val = true ∧ (¬bad) ∧ hi 16 2 = 0 ∧
        s.actWord c.val % 8 ≠ 3) ∧
  (∃ (s : State) (m : Mid) (w : Word) (log : List Word),
    s.awake = true ∧ s.pwr.xoLost = false ∧ s.isSup m.val = true ∧ s.noneWaits m.val = true ∧ s.cue.log = w :: log) ∧
  (∃ (s : State) (m : Mid),
    s.awake = true ∧ s.pwr.xoLost = false ∧ s.isSup m.val = true ∧ s.noneWaits m.val = true ∧ s.cue.log = []) :=
  ⟨⟨State.reset, 0, by dsimp only; decide⟩,
   ⟨State.reset, 0, false, 4096, by dsimp only; decide⟩,
   ⟨State.reset, 0x3FFD, 40960, by dsimp only; decide +kernel⟩,
   ⟨State.reset, 0xBFFC0000000000000000, 410, by dsimp only; decide⟩,
   ⟨(wr [(MIF_LTCO_CTRL 3, MIF_LTCO_CTRL_en, 1)]).modTrans 3 fun x => { x with genDue := some true }, 3, true,
       by dsimp only; decide⟩,
   ⟨(wr [(MIF_LTCO_CTRL 3, MIF_LTCO_CTRL_en, 1)]).modTrans 3 fun x => { x with genOn := true }, 3, by dsimp only; decide⟩,
   ⟨State.reset, 0, by dsimp only; decide⟩,
   ⟨(wr [(MIF_LTCO_CTRL 3, MIF_LTCO_CTRL_fps, 0)]).modTrans 3 fun x => { x with genOn := true }, 0x300, 3,
       MIF_LTCO_CTRL_fps.set 0 1, by dsimp only; decide⟩,
   ⟨State.reset, 0x300, 0, 0, by dsimp only; decide⟩,
   ⟨State.reset, 0x300, 0x830000, by dsimp only; decide⟩,
   ⟨State.reset, 0x300, 0x820000, by dsimp only; decide⟩,
   ⟨State.reset, 0x300, 0x800000, 4095, by dsimp only; decide⟩,
   ⟨{ State.reset with cue := { State.reset.cue with log := [5] } }, 0x300, 5, [], by decide⟩,
   ⟨State.reset, 0x300, by decide⟩⟩

theorem met_LaneInstructions :
  (∃ (s : State) (l : LaneId) (y : Instr),
    laneReady s l.val false ∧ y.wellFormed = false) ∧
  (∃ (s : State) (l : LaneId) (w : Word),
    laneReady s l.val false ∧ decodeBel w = none) ∧
  (∃ (s : State) (l : LaneId) (r : BelSel) (i : Bool) (k : Fin 1024),
    let o := s.lane l.val
    let addr := (k.val + if i then (o.getX 7).toNat else 0) % (if r.val < 8 then 1024 else 128)
    let ld := Instr.belLd l r i k
    let ok (y : Instr) : Prop := y.wellFormed = true
    laneReady s l.val false ∧ ok ld ∧ r.val < 8 ∧ tabGet falseAt o.dataBad addr = false) ∧
  (∃ (s : State) (l : LaneId) (r : BelSel) (i : Bool) (k : Fin 1024),
    let o := s.lane l.val
    let addr := (k.val + if i then (o.getX 7).toNat else 0) % (if r.val < 8 then 1024 else 128)
    let ld := Instr.belLd l r i k
    let ok (y : Instr) : Prop := y.wellFormed = true
    laneReady s l.val false ∧ ok ld ∧ 8 ≤ r.val ∧ tabGet falseAt o.keepBad addr = false) ∧
  (∃ (s : State) (l : LaneId) (r : BelSel) (i : Bool) (k : Fin 1024),
    let o := s.lane l.val
    let addr := (k.val + if i then (o.getX 7).toNat else 0) % (if r.val < 8 then 1024 else 128)
    let ld := Instr.belLd l r i k
    let ok (y : Instr) : Prop := y.wellFormed = true
    laneReady s l.val false ∧ ok ld ∧
        (if r.val < 8 then tabGet falseAt o.dataBad addr else tabGet falseAt o.keepBad addr) = true) ∧
  (∃ (s : State) (l : LaneId) (r : BelSel) (i : Bool) (k : Fin 1024),
    let st := Instr.belSt l r i k
    let ok (y : Instr) : Prop := y.wellFormed = true
    laneReady s l.val false ∧ ok st) ∧
  (∃ (s : State) (l : LaneId) (b : BelSel) (e : Int),
    let o := s.lane l.val
    let B := o.get b
    laneReady s l.val false ∧ -32 ≤ e ∧ e ≤ 31 ∧ (B - e) % 64 = 0) ∧
  (∃ (s : State) (l : LaneId) (a : BelSel) (e : Int),
    let o := s.lane l.val
    let A := o.get a
    laneReady s l.val false ∧ leastFit A e) ∧
  (∃ (s : State) (l : LaneId) (p : Fin 256),
    laneReady s l.val false ∧ p.val < 0x10) ∧
  (∃ (s : State) (l : LaneId) (p : Fin 256),
    laneReady s l.val false ∧ 0x10 ≤ p.val ∧ p.val < 0x20) ∧
  (∃ (s : State) (l : LaneId) (p : Fin 256),
    laneReady s l.val false ∧ 0x20 ≤ p.val ∧ p.val < 0x40) ∧
  (∃ (s : State) (l : LaneId) (p : Fin 256),
    laneReady s l.val false ∧ 0x83 ≤ p.val ∧ p.val < 0x88) ∧
  (∃ (s : State) (l : LaneId) (p : Fin 256),
    laneReady s l.val false ∧ p.val = 0x80) ∧
  (∃ (s : State) (l : LaneId) (m : Fin 32),
    laneReady s l.val false ∧ s.fld (BEL_PWM_CFG m.val) BEL_PWM_CFG_lane = l.val ∧ s.pwmLeader m.val = m.val ∧
        (m.val % 2 = 1 ∨ s.bit (BEL_PWM_CFG m.val) BEL_PWM_CFG_pair = false)) ∧
  (∃ (s : State) (l : LaneId) (x : Fin 8) (m : Fin 32),
    let o := s.lane l.val
    let out := o.getX x.val
    laneReady s l.val false ∧ s.fld (BEL_PWM_CFG m.val) BEL_PWM_CFG_lane = l.val ∧ s.pwmLeader m.val = m.val ∧
        m.val % 2 = 0 ∧ s.bit (BEL_PWM_CFG m.val) BEL_PWM_CFG_pair = true ∧ 0 ≤ out.toInt) ∧
  (∃ (s : State) (l : LaneId) (m : Fin 32),
    laneReady s l.val false ∧ s.fld (BEL_PWM_CFG m.val) BEL_PWM_CFG_lane ≠ l.val) ∧
  (∃ (s : State) (l : LaneId) (x : Fin 8) (q : Fin 4),
    let sel := BEL_SPI_SEL q.val x.val
    laneReady s l.val false ∧ s.fld sel BEL_SPI_SEL_lane = l.val ∧ s.spiHolds q.val x.val = false) ∧
  (∃ (s : State) (l : LaneId),
    laneReady s l.val false ∧ (s.outboxOf 29).length < 8) ∧
  (∃ (s : State) (l : LaneId),
    let o := s.lane l.val
    let win := (s.reg (BEL_LANE_MWIN l.val)).toNat + 2 * o.midx
    let sound : Prop := s.ramOpen = true ∧ win % 2 = 0 ∧ win + 2 ≤ 0x800000 ∧ s.flipsOf (win / 8) = 0
    laneReady s l.val false ∧ sound ∧ s.bit MEMC_INJ_CTRL MEMC_INJ_CTRL_arm = false) ∧
  (∃ (s : State) (l : LaneId),
    laneReady s l.val false ∧ s.noneWaits 0x316 = true) ∧
  (∃ (s : State) (l : LaneId) (r : BelSel),
    laneReady s l.val false ∧ laneReady s l.val true ∧ r.val < 12) ∧
  (∃ (s : State) (l : LaneId) (r : BelSel) (k : Fin 1024) (cnt : BelCount),
    let o := s.lane l.val
    let ok (y : Instr) : Prop := y.wellFormed = true
    let count := match cnt with | .reg r => (o.getX r.val).toNat | .imm c => c.toNat
    laneReady s l.val false ∧ laneReady s l.val true ∧ ok (.belLoop l cnt k) ∧ o.pc < k.val ∧ count = 0) ∧
  (∃ (s : State) (l : LaneId) (r : BelSel) (k : Fin 1024) (cnt : BelCount),
    let o := s.lane l.val
    let ok (y : Instr) : Prop := y.wellFormed = true
    let count := match cnt with | .reg r => (o.getX r.val).toNat | .imm c => c.toNat
    laneReady s l.val false ∧ laneReady s l.val true ∧ ok (.belLoop l cnt k) ∧ o.pc < k.val ∧ count ≠ 0 ∧
        o.loops.length < 2) ∧
  (∃ (s : State) (l : LaneId) (r : BelSel) (k : Fin 1024) (cnt : BelCount),
    let o := s.lane l.val
    let ok (y : Instr) : Prop := y.wellFormed = true
    let count := match cnt with | .reg r => (o.getX r.val).toNat | .imm c => c.toNat
    laneReady s l.val false ∧ laneReady s l.val true ∧ ok (.belLoop l cnt k) ∧ o.pc < k.val ∧ count ≠ 0 ∧
        2 ≤ o.loops.length) ∧
  (∃ (s : State) (l : LaneId) (j : Nat),
    let o := s.lane l.val
    laneReady s l.val false ∧ laneReady s l.val true ∧ o.run = some j ∧ s.reg (BEL_LANE_PEND l.val) = 0) :=
  ⟨⟨lane7 id, 7, .belMac 7 8 0 8, by unfold laneReady; exact ⟨⟨by decide, by decide, by decide, by decide, by decide,
      by decide, 0, by decide⟩, by decide⟩⟩,
   ⟨lane7 id, 7, 0xFFFFFFFF, by unfold laneReady; exact ⟨⟨by decide, by decide, by decide, by decide, by decide, by decide,
       0, by decide⟩, by decide⟩⟩,
   ⟨lane7 fun o => o.setX 7 1023, 7, 7, true, 1023,
       by unfold laneReady; exact ⟨⟨by decide, by decide, by decide, by decide, by decide, by decide, 0, by decide⟩,
       by decide⟩⟩,
   ⟨lane7 id, 7, 11, false, 127, by unfold laneReady; exact ⟨⟨by decide, by decide, by decide, by decide, by decide,
       by decide, 0, by decide⟩, by decide⟩⟩,
   ⟨lane7 fun o => { o with keepBad := [(127, true)] }, 7, 11, false, 127,
       by unfold laneReady; exact ⟨⟨by decide, by decide, by decide, by decide, by decide, by decide, 0, by decide⟩,
       by decide⟩⟩,
   ⟨lane7 id, 7, 11, false, 127, by unfold laneReady; exact ⟨⟨by decide, by decide, by decide, by decide, by decide,
       by decide, 0, by decide⟩, by decide⟩⟩,
   ⟨lane7 fun o => o.setX 0 0xFFE0, 7, 0, -32, by unfold laneReady; exact ⟨⟨by decide, by decide, by decide, by decide,
       by decide, by decide, 0, by decide⟩, by decide⟩⟩,
   ⟨lane7 id, 7, 8, -32, ⟨by unfold laneReady; exact ⟨by decide, by decide, by decide, by decide, by decide, by decide, 0,
       by decide⟩, by unfold leastFit; exact ⟨by decide, by decide, by decide,
       fun x h1 h2 => absurd h1 (Int.not_le.mpr h2)⟩⟩⟩,
   ⟨lane7 id, 7, 15, by unfold laneReady; exact ⟨⟨by decide, by decide, by decide, by decide, by decide, by decide, 0,
       by decide⟩, by decide⟩⟩,
   ⟨lane7 id, 7, 31, by unfold laneReady; exact ⟨⟨by decide, by decide, by decide, by decide, by decide, by decide, 0,
       by decide⟩, by decide⟩⟩,
   ⟨lane7 id, 7, 63, by unfold laneReady; exact ⟨⟨by decide, by decide, by decide, by decide, by decide, by decide, 0,
       by decide⟩, by decide⟩⟩,
   ⟨lane7 id, 7, 0x87, by unfold laneReady; exact ⟨⟨by decide, by decide, by decide, by decide, by decide, by decide, 0,
       by decide⟩, by decide⟩⟩,
   ⟨lane7 id, 7, 0x80, by unfold laneReady; exact ⟨⟨by decide, by decide, by decide, by decide, by decide, by decide, 0,
       by decide⟩, by decide⟩⟩,
   ⟨lane7 id [(BEL_PWM_CFG 31, BEL_PWM_CFG_lane, 7)], 7, 31,
       by unfold laneReady; exact ⟨⟨by decide, by decide, by decide, by decide, by decide, by decide, 0, by decide⟩,
       by decide⟩⟩,
   ⟨lane7 id [(BEL_PWM_CFG 30, BEL_PWM_CFG_lane, 7), (BEL_PWM_CFG 30, BEL_PWM_CFG_pair, 1)], 7, 0, 30,
       by unfold laneReady; exact ⟨⟨by decide, by decide, by decide, by decide, by decide, by decide, 0, by decide⟩,
       by decide⟩⟩,
   ⟨lane7 id, 7, 31, by unfold laneReady; exact ⟨⟨by decide, by decide, by decide, by decide, by decide, by decide, 0,
       by decide⟩, by decide⟩⟩,
   ⟨lane7 id [(BEL_SPI_SEL 3 7, BEL_SPI_SEL_lane, 7)], 7, 7, 3,
       by unfold laneReady; exact ⟨⟨by decide, by decide, by decide, by decide, by decide, by decide, 0, by decide⟩,
       by decide⟩⟩,
   ⟨(lane7 id).setOutbox 29 (List.replicate 7 tok0), 7,
       by unfold laneReady; exact ⟨⟨by decide, by decide, by decide, by decide, by decide, by decide, 0, by decide⟩,
       by decide⟩⟩,
   ⟨openRam (lane7 id), 7, by unfold laneReady; exact ⟨⟨by decide, by decide, by decide, by decide, by decide, by decide,
       0, by decide⟩, by decide⟩⟩,
   ⟨lane7 id, 7, by unfold laneReady; exact ⟨⟨by decide, by decide, by decide, by decide, by decide, by decide, 0,
       by decide⟩, by decide⟩⟩,
   ⟨lane7 id, 7, 11, by unfold laneReady; exact ⟨⟨by decide, by decide, by decide, by decide, by decide, by decide, 0,
       by decide⟩, ⟨by decide, by decide, by decide, by decide, by decide, by decide, 0, by decide⟩, by decide⟩⟩,
   ⟨lane7 id, 7, 0, 1, .imm 0, by unfold laneReady; exact ⟨⟨by decide, by decide, by decide, by decide, by decide,
       by decide, 0, by decide⟩, ⟨by decide, by decide, by decide, by decide, by decide, by decide, 0, by decide⟩,
       by decide⟩⟩,
   ⟨lane7 fun o => { o with loops := [⟨0, 9, 1⟩] }, 7, 0, 1, .imm 1,
       by unfold laneReady; exact ⟨⟨by decide, by decide, by decide, by decide, by decide, by decide, 0, by decide⟩,
       ⟨by decide, by decide, by decide, by decide, by decide, by decide, 0, by decide⟩, by decide⟩⟩,
   ⟨lane7 fun o => { o with loops := [⟨0, 9, 1⟩, ⟨0, 9, 1⟩] }, 7, 0, 1, .imm 1,
       by unfold laneReady; exact ⟨⟨by decide, by decide, by decide, by decide, by decide, by decide, 0, by decide⟩,
       ⟨by decide, by decide, by decide, by decide, by decide, by decide, 0, by decide⟩, by decide⟩⟩,
   ⟨lane7 id, 7, 0, by unfold laneReady; exact ⟨⟨by decide, by decide, by decide, by decide, by decide, by decide, 0,
       by decide⟩, ⟨by decide, by decide, by decide, by decide, by decide, by decide, 0, by decide⟩, by decide⟩⟩⟩

theorem met_LanesHaltedEncodersSpiAndMailboxes :
  (∃ (s : State) (l : LaneId) (j : Nat),
    let o := s.lane l.val
    let pend := s.reg (BEL_LANE_PEND l.val)
    let on := s.laneRuns l.val
    let lowest : Prop := j < 32 ∧ pend.getLsbD j = true ∧ pend.toNat % 2 ^ j = 0
    s.awake = true ∧ on = true ∧ o.run = none ∧ lowest) ∧
  (∃ (s : State) (n : Fin 16) (a : Bool) (b : Bool) (z : Bool),
    let cfg := BEL_ENC_CFG n.val
    let levels := tabGet encDefault s.bel.enc n.val
    let filt := s.fld cfg BEL_ENC_CFG_filt
    s.awake = true ∧ s.pwr.xoLost = false ∧ levels.filtA.pin = a ∧ a ≠ levels.a ∧ b = levels.b ∧ z = levels.idx ∧
        levels.filtA.slots < filt) ∧
  (∃ (s : State) (n : Fin 16),
    let cfg := BEL_ENC_CFG n.val
    let filt := s.fld cfg BEL_ENC_CFG_filt
    s.awake = true ∧ s.pwr.xoLost = false ∧ s.bit cfg BEL_ENC_CFG_en = false ∧ filt = 0) ∧
  (∃ (s : State) (n : Fin 16) (a : Bool) (b : Bool),
    let cfg := BEL_ENC_CFG n.val
    let levels := tabGet encDefault s.bel.enc n.val
    let filt := s.fld cfg BEL_ENC_CFG_filt
    s.awake = true ∧ s.pwr.xoLost = false ∧ s.bit cfg BEL_ENC_CFG_en = true ∧ filt = 0 ∧ levels.a ≠ a ∧ levels.b ≠ b) ∧
  (∃ (s : State) (n : Fin 16) (a : Bool) (b : Bool),
    let cfg := BEL_ENC_CFG n.val
    let levels := tabGet encDefault s.bel.enc n.val
    let filt := s.fld cfg BEL_ENC_CFG_filt
    s.awake = true ∧ s.pwr.xoLost = false ∧ s.bit cfg BEL_ENC_CFG_en = true ∧ filt = 0 ∧
        s.fld cfg BEL_ENC_CFG_decode = 2 ∧ (levels.a = a ↔ levels.b ≠ b)) ∧
  (∃ (s : State) (c : Fin 4) (j : Nat) (w : Word) (rest : List (Nat × Word)),
    let q := s.spi c.val
    s.awake = true ∧ s.pwr.xoLost = false ∧ s.bit (BEL_SPI_CTRL c.val) BEL_SPI_CTRL_en = true ∧ q.busy = none ∧
        q.queue = (j, w) :: rest ∧ s.spiSelOn c.val j = true) ∧
  (∃ (s : State) (c : Fin 4) (j : Nat) (w : Word),
    let q := s.spi c.val
    s.awake = true ∧ s.pwr.xoLost = false ∧ q.busy = some (j, w)) ∧
  (∃ (s : State) (tok : Token) (left : List Token),
    let takes (x i : Nat) : Prop := s.bit (BEL_LANE_MBOX x i) BEL_LANE_MBOX_en = true ∧
        s.fld (BEL_LANE_MBOX x i) BEL_LANE_MBOX_tag = tok.ctag
    s.awake = true ∧ s.inboxOf 29 = tok :: left ∧ tok.kind = .event ∧ (∃ x i, x < 8 ∧ i < 4 ∧ takes x i)) ∧
  (∃ (s : State) (m : Mid) (n : Fin 16),
    let cfg := BEL_ENC_CFG n.val
    s.awake = true ∧ s.isSup m.val = true ∧ s.noneWaits m.val = true ∧ s.bit cfg BEL_ENC_CFG_en = true) ∧
  (∃ (s : State) (m : Mid) (n : Fin 16),
    let cfg := BEL_ENC_CFG n.val
    s.awake = true ∧ s.isSup m.val = true ∧ s.noneWaits m.val = true ∧ s.bit cfg BEL_ENC_CFG_en = false) ∧
  (∃ (s : State) (m : Mid) (l : LaneId),
    let dbg := BEL_LANE_DBG_CTRL l.val
    let on := s.laneRuns l.val
    s.awake = true ∧ s.isSup m.val = true ∧ s.noneWaits m.val = true ∧ on = true ∧
        s.bit dbg BEL_LANE_DBG_CTRL_safe = false) ∧
  (∃ (s : State) (m : Mid) (l : LaneId),
    let fault := BEL_LANE_FAULT l.val
    s.awake = true ∧ s.isSup m.val = true ∧ s.noneWaits m.val = true ∧ s.bit fault BEL_LANE_FAULT_valid = true) ∧
  (∃ (s : State) (m : Mid) (l : LaneId),
    let fault := BEL_LANE_FAULT l.val
    let on := s.laneRuns l.val
    s.awake = true ∧ s.isSup m.val = true ∧ s.noneWaits m.val = true ∧ on = false ∧
        s.bit fault BEL_LANE_FAULT_valid = false) ∧
  (∃ (s : State) (m : Mid) (l : LaneId) (j : Nat),
    let o := s.lane l.val
    let pend := s.reg (BEL_LANE_PEND l.val)
    let on := s.laneRuns l.val
    let lowest : Prop := j < 32 ∧ pend.getLsbD j = true ∧ pend.toNat % 2 ^ j = 0
    s.awake = true ∧ s.isSup m.val = true ∧ s.noneWaits m.val = true ∧ on = false ∧ o.run = none ∧ lowest) ∧
  (∃ (s : State) (m : Mid) (l : LaneId) (v : Word) (j : Nat) (k : Fin 1024),
    let o := s.lane l.val
    let on := s.laneRuns l.val
    s.awake = true ∧ s.isSup m.val = true ∧ s.noneWaits m.val = true ∧ on = false ∧ o.run = some j ∧
        decodeBel (tabGet zeroWord o.prog o.pc) = some (.jmp k) ∧ tabGet falseAt o.progBad o.pc = false ∧
        (∀ e ∈ o.loops.head?, e.stop ≠ o.pc) ∧ s.fld (BEL_LOOP_MAXST (32 * l.val + j)) BEL_LOOP_MAXST_max_steps = 0 ∧
        v.getLsbD 3 = false) ∧
  (∃ (s : State) (m : Mid) (l : LaneId),
    let on := s.laneRuns l.val
    let sel := s.fld (BEL_LANE_DBG_SEL l.val) BEL_LANE_DBG_SEL_code
    s.awake = true ∧ s.isSup m.val = true ∧ s.noneWaits m.val = true ∧ on = false ∧ sel < 8) ∧
  (∃ (s : State) (m : Mid) (l : LaneId),
    let on := s.laneRuns l.val
    let sel := s.fld (BEL_LANE_DBG_SEL l.val) BEL_LANE_DBG_SEL_code
    s.awake = true ∧ s.isSup m.val = true ∧ s.noneWaits m.val = true ∧ on = false ∧ 8 ≤ sel ∧ sel < 12) ∧
  (∃ (s : State) (m : Mid) (l : LaneId),
    let on := s.laneRuns l.val
    let sel := s.fld (BEL_LANE_DBG_SEL l.val) BEL_LANE_DBG_SEL_code
    s.awake = true ∧ s.isSup m.val = true ∧ s.noneWaits m.val = true ∧ on = false ∧ 12 ≤ sel) :=
  ⟨⟨(lane7 id).setReg (BEL_LANE_PEND 7) 0x80000000 |>.modLane 7 fun o => { o with run := none }, 7, 31,
      by dsimp only; decide⟩,
   ⟨{ wr [(BEL_ENC_CFG 15, BEL_ENC_CFG_en, 1), (BEL_ENC_CFG 15, BEL_ENC_CFG_filt, 1)] with bel := { State.reset.bel with enc := [(15, { encDefault 0 with filtA := ⟨true, 0⟩ })] } }, 15, true, false, false, by dsimp only; decide⟩,
   ⟨State.reset, 15, by dsimp only; decide⟩,
   ⟨wr [(BEL_ENC_CFG 15, BEL_ENC_CFG_en, 1)], 15, true, true, by dsimp only; decide⟩,
   ⟨wr [(BEL_ENC_CFG 15, BEL_ENC_CFG_en, 1), (BEL_ENC_CFG 15, BEL_ENC_CFG_decode, 2)], 15, true, false,
       by dsimp only; decide⟩,
   ⟨(wr [(BEL_SPI_CTRL 3, BEL_SPI_CTRL_en, 1), (BEL_SPI_SEL 3 7, BEL_SPI_SEL_en,
       1)]).modSpi 3 fun p => { p with queue := [(7, 5)] }, 3, 7, 5, [], by dsimp only; decide⟩,
   ⟨State.reset.modSpi 3 fun p => { p with busy := some (7, 5) }, 3, 7, 5, by dsimp only; decide⟩,
   ⟨(wr [(BEL_LANE_MBOX 7 3, BEL_LANE_MBOX_en, 1), (BEL_LANE_MBOX 7 3, BEL_LANE_MBOX_tag,
       4095)]).setInbox 29 [{ tok0 with kind := .event, ctag := 4095 }], { tok0 with kind := .event, ctag := 4095 }, [],
       ⟨by decide, by decide, by decide, 7, 3, by decide⟩⟩,
   ⟨wr [(BEL_ENC_CFG 15, BEL_ENC_CFG_en, 1)], 0x300, 15, by dsimp only; decide⟩,
   ⟨State.reset, 0x300, 15, by dsimp only; decide⟩,
   ⟨lane7 id, 0x300, 7, by dsimp only; decide⟩,
   ⟨wr [(BEL_LANE_FAULT 7, BEL_LANE_FAULT_valid, 1)], 0x300, 7, by dsimp only; decide⟩,
   ⟨State.reset, 0x300, 7, by dsimp only; decide⟩,
   ⟨State.reset.setReg (BEL_LANE_PEND 7) 0x80000000, 0x300, 7, 31, by dsimp only; decide⟩,
   ⟨State.reset.modLane 7 fun o => { o with run := some 0, prog := [(0, 0xA00003FF)] }, 0x300, 7, 0, 0, 1023,
       by dsimp only; decide⟩,
   ⟨wr [(BEL_LANE_DBG_SEL 7, BEL_LANE_DBG_SEL_code, 7)], 0x300, 7, by dsimp only; decide⟩,
   ⟨wr [(BEL_LANE_DBG_SEL 7, BEL_LANE_DBG_SEL_code, 11)], 0x300, 7, by dsimp only; decide⟩,
   ⟨wr [(BEL_LANE_DBG_SEL 7, BEL_LANE_DBG_SEL_code, 12)], 0x300, 7, by dsimp only; decide⟩⟩

theorem met_LinksTrainElectAndCount :
  (∃ (s : State) (q : Fin 4) (hs : List (BitVec 2)),
    let p := q.val
    let x := s.chmPort p
    let valid (y : BitVec 2) : Prop := y = 1 ∨ y = 2
    s.awake = true ∧ s.pwr.xoLost = false ∧ s.inLight = false ∧ x.lock = false ∧ hs ≠ [] ∧ (∀ y, y ∈ hs → valid y) ∧
        x.run + hs.length < 64) ∧
  (∃ (s : State) (q : Fin 4) (h : BitVec 2),
    let p := q.val
    let x := s.chmPort p
    let state := s.chmState p
    let valid (y : BitVec 2) : Prop := y = 1 ∨ y = 2
    s.awake = true ∧ s.pwr.xoLost = false ∧ s.inLight = false ∧ x.lock = false ∧ valid h ∧ x.run = 63 ∧ state = 0 ∧
        s.chmOn p = false) ∧
  (∃ (s : State) (q : Fin 4) (h : BitVec 2),
    let p := q.val
    let x := s.chmPort p
    let state := s.chmState p
    let valid (y : BitVec 2) : Prop := y = 1 ∨ y = 2
    s.awake = true ∧ s.pwr.xoLost = false ∧ s.inLight = false ∧ x.lock = false ∧ valid h ∧ x.run = 63 ∧ state = 0 ∧
        s.chmOn p = true) ∧
  (∃ (s : State) (q : Fin 4) (h : BitVec 2),
    let p := q.val
    let x := s.chmPort p
    let state := s.chmState p
    let valid (y : BitVec 2) : Prop := y = 1 ∨ y = 2
    s.awake = true ∧ s.pwr.xoLost = false ∧ s.inLight = false ∧ x.lock = true ∧ (¬valid h) ∧
        (x.hdrs.take 1023).count true = 15 ∧ state = 0) ∧
  (∃ (s : State) (q : Fin 4) (h : BitVec 2),
    let p := q.val
    let x := s.chmPort p
    let state := s.chmState p
    let valid (y : BitVec 2) : Prop := y = 1 ∨ y = 2
    s.awake = true ∧ s.pwr.xoLost = false ∧ s.inLight = false ∧ x.lock = true ∧ (¬valid h) ∧
        (x.hdrs.take 1023).count true = 15 ∧ state ≠ 0) ∧
  (∃ (s : State) (q : Fin 4) (l : ChmLine),
    let k := l.packet
    let p := q.val
    let x := s.chmPort p
    let state := s.chmState p
    s.awake = true ∧ s.pwr.xoLost = false ∧ s.inLight = false ∧ s.chmOn p = true ∧ x.lock = true ∧ state ≠ 0 ∧
        (k.crcOk = false ∨ k.typ ≠ 0x66)) ∧
  (∃ (s : State) (q : Fin 4) (l : ChmLine) (t1 : Nat),
    let k := l.packet
    let p := q.val
    let x := s.chmPort p
    let state := s.chmState p
    let sound : Prop := k.crcOk = true ∧ k.typ = 0x66 ∧ (k.field 28 28 = 1 → k.field 5 0 ≠ s.chmId ∧
        s.chm.dupWith ≠ some k.word)
    let good : Prop := sound ∧ k.field 27 27 = 1 ∧ x.answered k = some t1
    s.awake = true ∧ s.pwr.xoLost = false ∧ s.inLight = false ∧ s.chmOn p = true ∧ x.lock = true ∧ state ≠ 0 ∧ good ∧
        state = 1 ∧ x.meas.length < 3) ∧
  (∃ (s : State) (q : Fin 4) (l : ChmLine),
    let k := l.packet
    let p := q.val
    let x := s.chmPort p
    let state := s.chmState p
    let sound : Prop := k.crcOk = true ∧ k.typ = 0x66 ∧ (k.field 28 28 = 1 → k.field 5 0 ≠ s.chmId ∧
        s.chm.dupWith ≠ some k.word)
    s.awake = true ∧ s.pwr.xoLost = false ∧ s.inLight = false ∧ s.chmOn p = true ∧ x.lock = true ∧ state ≠ 0 ∧ sound ∧
        state = 1 ∧ k.field 27 27 = 0) ∧
  (∃ (s : State) (q : Fin 4) (l : ChmLine),
    let k := l.packet
    let p := q.val
    let x := s.chmPort p
    let state := s.chmState p
    let sound : Prop := k.crcOk = true ∧ k.typ = 0x66 ∧ (k.field 28 28 = 1 → k.field 5 0 ≠ s.chmId ∧
        s.chm.dupWith ≠ some k.word)
    s.awake = true ∧ s.pwr.xoLost = false ∧ s.inLight = false ∧ s.chmOn p = true ∧ x.lock = true ∧ state ≠ 0 ∧ sound ∧
        state = 2 ∧ k.field 27 27 = 0) ∧
  (∃ (s : State) (q : Fin 4) (l : ChmLine),
    let k := l.packet
    let p := q.val
    let x := s.chmPort p
    let state := s.chmState p
    let sound : Prop := k.crcOk = true ∧ k.typ = 0x66 ∧ (k.field 28 28 = 1 → k.field 5 0 ≠ s.chmId ∧
        s.chm.dupWith ≠ some k.word)
    s.awake = true ∧ s.pwr.xoLost = false ∧ s.inLight = false ∧ s.chmOn p = true ∧ x.lock = true ∧ state ≠ 0 ∧ sound ∧
        state = 2 ∧ k.field 27 27 = 1 ∧ k.ackField / 2 ^ 12 % 2 = 0) ∧
  (∃ (s : State) (q : Fin 4) (l : ChmLine) (t1 : Nat) (a : Int) (b : Int) (c : Int),
    let k := l.packet
    let p := q.val
    let x := s.chmPort p
    let state := s.chmState p
    let ts (i : Nat) : Nat := ((k.data.getD 1 0).toNat) / 2 ^ (32 * i) % 2 ^ 32
    let trip : Nat := s.now - t1
    let stay : Nat := (ts 1 + 2 ^ 32 - ts 0) % 2 ^ 32
    let d : Int := 5 * ((trip : Int) - (stay : Int))
    let close (y z : Int) : Prop := y - z ≤ 8 ∧ z - y ≤ 8
    let sound : Prop := k.crcOk = true ∧ k.typ = 0x66 ∧ (k.field 28 28 = 1 → k.field 5 0 ≠ s.chmId ∧
        s.chm.dupWith ≠ some k.word)
    let good : Prop := sound ∧ k.field 27 27 = 1 ∧ x.answered k = some t1
    let some4 : Prop := x.meas = [a, b, c] ∧ close d a ∧ close d b ∧ close d c ∧ close a b ∧ close a c ∧ close b c
    s.awake = true ∧ s.pwr.xoLost = false ∧ s.inLight = false ∧ s.chmOn p = true ∧ x.lock = true ∧ state ≠ 0 ∧ good ∧
        some4 ∧ state = 1 ∧ s.wiringBad p k = true) ∧
  (∃ (s : State) (q : Fin 4) (l : ChmLine) (t1 : Nat) (a : Int) (b : Int) (c : Int),
    let k := l.packet
    let p := q.val
    let x := s.chmPort p
    let state := s.chmState p
    let ts (i : Nat) : Nat := ((k.data.getD 1 0).toNat) / 2 ^ (32 * i) % 2 ^ 32
    let trip : Nat := s.now - t1
    let stay : Nat := (ts 1 + 2 ^ 32 - ts 0) % 2 ^ 32
    let d : Int := 5 * ((trip : Int) - (stay : Int))
    let close (y z : Int) : Prop := y - z ≤ 8 ∧ z - y ≤ 8
    let sound : Prop := k.crcOk = true ∧ k.typ = 0x66 ∧ (k.field 28 28 = 1 → k.field 5 0 ≠ s.chmId ∧
        s.chm.dupWith ≠ some k.word)
    let good : Prop := sound ∧ k.field 27 27 = 1 ∧ x.answered k = some t1
    let some4 : Prop := x.meas = [a, b, c] ∧ close d a ∧ close d b ∧ close d c ∧ close a b ∧ close a c ∧ close b c
    s.awake = true ∧ s.pwr.xoLost = false ∧ s.inLight = false ∧ s.chmOn p = true ∧ x.lock = true ∧ state ≠ 0 ∧ good ∧
        some4 ∧ state = 1 ∧ s.wiringBad p k = false) ∧
  (∃ (s : State) (q : Fin 4) (f : BitVec 16),
    let p := q.val
    let x := s.chmPort p
    let state := s.chmState p
    let fld (n : Nat) : Bool := f.toNat / 2 ^ n % 2 = 1
    s.awake = true ∧ s.pwr.xoLost = false ∧ s.inLight = false ∧ state = 2 ∧ x.wait = [] ∧ fld 12 = true ∧ fld 13 = false) ∧
  (∃ (s : State) (q : Fin 4) (f : BitVec 16),
    let p := q.val
    let x := s.chmPort p
    let state := s.chmState p
    let fld (n : Nat) : Bool := f.toNat / 2 ^ n % 2 = 1
    s.awake = true ∧ s.pwr.xoLost = false ∧ s.inLight = false ∧ state = 2 ∧ x.wait = [] ∧ fld 12 = true ∧ fld 13 = true) ∧
  (∃ (s : State),
    let en := s.bit CHM_CTRL CHM_CTRL_en
    s.awake = true ∧ s.pwr.xoLost = false ∧ s.inLight = false ∧ en = false) ∧
  (∃ (s : State) (own : Nat × Nat × Nat),
    let en := s.bit CHM_CTRL CHM_CTRL_en
    s.awake = true ∧ s.pwr.xoLost = false ∧ s.inLight = false ∧ en = true ∧ s.bestCand = some own ∧ own.1 < 256 ∧
        own.2.1 < 2 ^ 64 ∧ own.2.2 < 64 ∧ s.chm.stable < 4) ∧
  (∃ (s : State) (own : Nat × Nat × Nat),
    let en := s.bit CHM_CTRL CHM_CTRL_en
    s.awake = true ∧ s.pwr.xoLost = false ∧ s.inLight = false ∧ en = true ∧ s.bestCand = some own ∧ own.1 < 256 ∧
        own.2.1 < 2 ^ 64 ∧ own.2.2 < 64 ∧ 4 < s.chm.stable) ∧
  (∃ (s : State) (own : Nat × Nat × Nat),
    let en := s.bit CHM_CTRL CHM_CTRL_en
    s.awake = true ∧ s.pwr.xoLost = false ∧ s.inLight = false ∧ en = true ∧ s.bestCand = some own ∧ own.1 < 256 ∧
        own.2.1 < 2 ^ 64 ∧ own.2.2 < 64 ∧ s.chm.stable = 4) ∧
  (∃ (s : State) (e0 : ChmPacket) (r : Fin 4) (rest : List (Nat × ChmPacket)),
    s.awake = true ∧ s.pwr.xoLost = false ∧ s.inLight = false ∧ s.chm.ctrlIn = (r.val, e0) :: rest ∧ e0.kind = 5 ∧
        e0.field 36 36 = 0) ∧
  (∃ (s : State) (q : Fin 4) (l : ChmLine),
    let k := l.packet
    let p := q.val
    let state := s.chmState p
    s.awake = true ∧ s.pwr.xoLost = false ∧ s.inLight = false ∧ state = 2 ∧ (k.crcOk = false ∨ k.typ ≠ 0x2D)) ∧
  (∃ (s : State) (q : Fin 4) (l : ChmLine),
    let k := l.packet
    let p := q.val
    let state := s.chmState p
    let leader := s.fld CHM_ID CHM_ID_leader_id
    let fromLeader : Prop := state = 2 ∧ k.crcOk = true ∧ k.typ = 0x2D ∧ s.chmLeads = false ∧
        s.chm.leader.isSome = true ∧ k.field 53 48 = leader ∧ 0 < s.tsDen ∧ k.ackField / 2 ^ 12 % 2 = 0 ∧
        ¬(leader = s.chmId ∧ s.idSure = true)
    s.awake = true ∧ s.pwr.xoLost = false ∧ s.inLight = false ∧ fromLeader ∧ s.rallySrc = 1) ∧
  (∃ (s : State) (q : Fin 4) (l : ChmLine),
    let k := l.packet
    let p := q.val
    let state := s.chmState p
    let leader := s.fld CHM_ID CHM_ID_leader_id
    let fromLeader : Prop := state = 2 ∧ k.crcOk = true ∧ k.typ = 0x2D ∧ s.chmLeads = false ∧
        s.chm.leader.isSome = true ∧ k.field 53 48 = leader ∧ 0 < s.tsDen ∧ k.ackField / 2 ^ 12 % 2 = 0 ∧
        ¬(leader = s.chmId ∧ s.idSure = true)
    s.awake = true ∧ s.pwr.xoLost = false ∧ s.inLight = false ∧ fromLeader ∧ s.chmFollows = true ∧ s.rsgState = 2 ∧
        s.chm.realign = none) ∧
  (∃ (s : State),
    s.awake = true ∧ s.pwr.xoLost = false ∧ s.inLight = false ∧ s.chmAwaits = true ∧ s.chm.leader.isSome = true ∧
        s.fld CHM_RALLY_CFG CHM_RALLY_CFG_miss ≤ s.chm.missTs) ∧
  (∃ (s : State),
    s.awake = true ∧ s.pwr.xoLost = false ∧ s.inLight = false ∧ s.chm.realign = none ∧
        s.fld CHM_RALLY_CFG CHM_RALLY_CFG_unmute ≤ s.chm.lockTs) :=
  ⟨⟨State.reset, 3, List.replicate 63 1, by dsimp only; decide +kernel⟩,
   ⟨State.reset.modChmPort 3 fun c => { c with run := 63 }, 3, 1, by dsimp only; decide⟩,
   ⟨(wr [(CHM_CTRL, CHM_CTRL_en, 1), (CHM_P_CTRL 3, CHM_P_CTRL_en, 1)]).modChmPort 3 fun c => { c with run := 63 }, 3, 2,
       by dsimp only; decide⟩,
   ⟨State.reset.modChmPort 3 fun c => { c with lock := true, hdrs := List.replicate 15 true }, 3, 0, by dsimp only; decide⟩,
   ⟨(upPort 3 []).modChmPort 3 fun c => { c with lock := true, hdrs := List.replicate 15 true }, 3, 3,
       by dsimp only; decide⟩,
   ⟨training 3 2 [], 3, ln (pk typCtrl 0 []), by dsimp only; decide +kernel⟩,
   ⟨training 3 1 [], 3, ln (pk typTrain (2 ^ 27 + 1) [0, 0]), 0, by dsimp only; decide +kernel⟩,
   ⟨training 3 1 [], 3, ln (pk typTrain 1 [0, 0]), by dsimp only; decide +kernel⟩,
   ⟨training 3 2 [], 3, ln (pk typTrain 1 [0, 0]), by dsimp only; decide +kernel⟩,
   ⟨training 3 2 [], 3, ln (pk typTrain (2 ^ 27 + 1) [0, 0]), by dsimp only; decide +kernel⟩,
   ⟨training 3 1 [8, 0, 8], 3, ln (pk typTrain (2 ^ 27 + 1) [0, 0]), 0, 8, 0, 8, by dsimp only; decide +kernel⟩,
   ⟨training 1 1 [8, 0, 8], 1, ln (pk typTrain (2 ^ 27 + 2 ^ 18 + 1) [0, 0]), 0, 8, 0, 8, by dsimp only; decide +kernel⟩,
   ⟨upPort 3 [], 3, 0x1FFF, by dsimp only; decide⟩,
   ⟨upPort 3 [], 3, 0x3FFF, by dsimp only; decide⟩,
   ⟨State.reset, by dsimp only; decide⟩,
   ⟨wr [(CHM_CTRL, CHM_CTRL_en, 1), (CHM_CTRL, CHM_CTRL_lead_prio, 255)], (255, 1, 0),
       by dsimp only; and_intros <;> first | decide +kernel | exact (by decide +kernel)⟩,
   ⟨{ wr [(CHM_CTRL, CHM_CTRL_en, 1), (CHM_CTRL, CHM_CTRL_lead_prio, 255)] with chm := { State.reset.chm with stable := 5 } }, (255, 1, 0), by dsimp only; and_intros <;> first | decide +kernel | exact (by decide +kernel)⟩,
   ⟨{ wr [(CHM_CTRL, CHM_CTRL_en, 1), (CHM_CTRL, CHM_CTRL_lead_prio, 255)] with chm := { State.reset.chm with stable := 4 } }, (255, 1, 0), by dsimp only; and_intros <;> first | decide +kernel | exact (by decide +kernel)⟩,
   ⟨{ State.reset with chm := { State.reset.chm with ctrlIn := [(3, pk typCtrl (5 * 2 ^ 12) [0])] } },
       pk typCtrl (5 * 2 ^ 12) [0], 3, [], by decide +kernel⟩,
   ⟨upPort 3 [], 3, ln (pk typCtrl 0 []), by dsimp only; decide +kernel⟩,
   ⟨{ upPort 3 [(CHM_ID, CHM_ID_leader_id, 1), (RSG_STATE, RSG_STATE_cand, 1), (RSG_STATE, RSG_STATE_state, 2)] with chm := { State.reset.chm with leader := some (1, 9, 1) } }, 3, ln (pk typRally (2 ^ 48) [0]), by dsimp only; decide +kernel⟩,
   ⟨{ upPort 1 [(CHM_CTRL, CHM_CTRL_en, 1), (CHM_ID, CHM_ID_leader_id, 1), (RSG_STATE, RSG_STATE_state, 2)] with chm := { State.reset.chm with leader := some (1, 9, 1) } }, 1, ln (pk typRally (2 ^ 48) [0]), by dsimp only; decide +kernel⟩,
   ⟨{ upPort 1 [(CHM_CTRL, CHM_CTRL_en, 1), (CHM_ID, CHM_ID_leader_id, 1)] with chm := { State.reset.chm with leader := some (1, 9, 1), missTs := 4 } }, by decide +kernel⟩,
   ⟨{ State.reset with chm := { State.reset.chm with lockTs := 2 ^ 24 } }, by decide⟩⟩

theorem met_SlotsCarriedAndMapped :
  (∃ (s : State) (q : Fin 4) (gr : Fin 96),
    let p := q.val
    let g := gr.val
    let x := s.chmPort p
    let slot (j : Nat) : Nat := 64 * g + j
    let groups := s.fld (CHM_P_CTRL p) CHM_P_CTRL_groups
    let due : Prop := s.chmOn p = true ∧ g < groups
    let pending (j : Nat) : Prop := s.mapWord p true (slot j) % 4 = 2 ∧ ∃ y, tabGet noForward x.fwd (slot j) = some y ∧
        y.bad = none
    s.awake = true ∧ s.pwr.xoLost = false ∧ s.pwr.hold = false ∧ due ∧ linkFree s p 34 ∧ (∀ j, j < 64 → ¬pending j) ∧ (∀ j,
        j < 64 → slotReady s p (slot j))) ∧
  (∃ (s : State) (q : Fin 4) (gr : Fin 96),
    let p := q.val
    let g := gr.val
    let x := s.chmPort p
    let slot (j : Nat) : Nat := 64 * g + j
    let groups := s.fld (CHM_P_CTRL p) CHM_P_CTRL_groups
    let due : Prop := s.chmOn p = true ∧ g < groups
    let pending (j : Nat) : Prop := s.mapWord p true (slot j) % 4 = 2 ∧ ∃ y, tabGet noForward x.fwd (slot j) = some y ∧
        y.bad = none
    s.awake = true ∧ s.pwr.xoLost = false ∧ s.pwr.hold = false ∧ due ∧ linkFree s p 34 ∧ (∃ j, j < 64 ∧ pending j)) ∧
  (∃ (s : State) (q : Fin 4) (o : Fin 4) (l : ChmLine) (k1 : ChmPacket) (j : Nat),
    let k := l.packet
    let p := q.val
    let x := s.chmPort p
    let rg := k.field 18 12
    let rtag := k.field 26 19
    let entry (j : Nat) : Nat := s.mapWord p false (64 * rg + j)
    let onWay (j : Nat) : Prop := entry j / 2 % 2 = 1 ∧ entry j / 2 ^ 14 % 4 = o.val
    let to_ (j : Nat) : Nat := entry j / 2 ^ 16 % 2 ^ 13
    let fwdAt (t : State) (j : Nat) : Option ChmFwd := tabGet noForward (t.chmPort o.val).fwd (to_ j)
    let tagAt (t : State) (j : Nat) : Option (Nat × Bool) := tabGet noFwdTag (t.chmPort o.val).fwdTag (to_ j)
    let first (j : Nat) : Prop := j < 64 ∧ onWay j ∧ ∀ j', j' < j → onWay j' → to_ j' ≠ to_ j
    let early (j : Nat) : Prop := l.part = some k1 ∧ s.chmState p = 2 ∧ k1.typ = 0x33 ∧ k1.seq = x.rxSeq ∧
        k1.field 18 12 = rg ∧ k1.field 26 19 = rtag ∧ k1.field 27 27 = 0 ∧ j < 2 * k1.data.length ∧ k1.data.length ≤ 32
    s.awake = true ∧ s.pwr.xoLost = false ∧ s.pwr.hold = false ∧ first j ∧ early j ∧ fwdAt s j = none ∧ x.part = none ∧
        tagAt s j ≠ some (rtag, true)) ∧
  (∃ (s : State) (q : Fin 4) (o : Fin 4) (l : ChmLine) (k1 : ChmPacket) (j : Nat),
    let k := l.packet
    let p := q.val
    let x := s.chmPort p
    let rg := k.field 18 12
    let rtag := k.field 26 19
    let entry (j : Nat) : Nat := s.mapWord p false (64 * rg + j)
    let onWay (j : Nat) : Prop := entry j / 2 % 2 = 1 ∧ entry j / 2 ^ 14 % 4 = o.val
    let to_ (j : Nat) : Nat := entry j / 2 ^ 16 % 2 ^ 13
    let fwdAt (t : State) (j : Nat) : Option ChmFwd := tabGet noForward (t.chmPort o.val).fwd (to_ j)
    let tagAt (t : State) (j : Nat) : Option (Nat × Bool) := tabGet noFwdTag (t.chmPort o.val).fwdTag (to_ j)
    let first (j : Nat) : Prop := j < 64 ∧ onWay j ∧ ∀ j', j' < j → onWay j' → to_ j' ≠ to_ j
    let early (j : Nat) : Prop := l.part = some k1 ∧ s.chmState p = 2 ∧ k1.typ = 0x33 ∧ k1.seq = x.rxSeq ∧
        k1.field 18 12 = rg ∧ k1.field 26 19 = rtag ∧ k1.field 27 27 = 0 ∧ j < 2 * k1.data.length ∧ k1.data.length ≤ 32
    s.awake = true ∧ s.pwr.xoLost = false ∧ s.pwr.hold = false ∧ first j ∧ early j ∧ fwdAt s j = none ∧ x.part = none ∧
        tagAt s j = some (rtag, true) ∧ (∀ j', j' < 64 → onWay j' → to_ j' = to_ j → j' = j)) ∧
  (∃ (s : State) (q : Fin 4) (l : ChmLine),
    let k := l.packet
    let p := q.val
    let x := s.chmPort p
    let rg := k.field 18 12
    let rtag := k.field 26 19
    let entry (j : Nat) : Nat := s.mapWord p false (64 * rg + j)
    let local_ : Prop := ∀ j, j < 64 → entry j / 2 % 2 = 0
    let counts : Prop := k.field 27 27 = 0 ∧ tabGet noMiss x.missed rg ≠ some rtag
    let free : Prop := ∀ j, j < 4 → (s.chmPort j).wait = []
    s.awake = true ∧ s.pwr.xoLost = false ∧ s.pwr.hold = false ∧ inTurn s p l 0x33 ∧ k.poison = false ∧ counts ∧ local_ ∧
        free ∧ s.chmHeld p < 2) ∧
  (∃ (s : State) (q : Fin 4) (l : ChmLine),
    let k := l.packet
    let p := q.val
    let x := s.chmPort p
    let rg := k.field 18 12
    let rtag := k.field 26 19
    let entry (j : Nat) : Nat := s.mapWord p false (64 * rg + j)
    let local_ : Prop := ∀ j, j < 64 → entry j / 2 % 2 = 0
    let counts : Prop := k.field 27 27 = 0 ∧ tabGet noMiss x.missed rg ≠ some rtag
    let free : Prop := ∀ j, j < 4 → (s.chmPort j).wait = []
    s.awake = true ∧ s.pwr.xoLost = false ∧ s.pwr.hold = false ∧ inTurn s p l 0x33 ∧ k.poison = false ∧ counts ∧ local_ ∧
        free ∧ 2 ≤ s.chmHeld p) ∧
  (∃ (s : State) (q : Fin 4) (o : Fin 4) (l : ChmLine) (j : Nat),
    let k := l.packet
    let p := q.val
    let x := s.chmPort p
    let rg := k.field 18 12
    let rtag := k.field 26 19
    let entry (j : Nat) : Nat := s.mapWord p false (64 * rg + j)
    let onWay (j : Nat) : Prop := entry j / 2 % 2 = 1 ∧ entry j / 2 ^ 14 % 4 = o.val
    let to_ (j : Nat) : Nat := entry j / 2 ^ 16 % 2 ^ 13
    let counts : Prop := k.field 27 27 = 0 ∧ tabGet noMiss x.missed rg ≠ some rtag
    let fwdAt (t : State) (j : Nat) : Option ChmFwd := tabGet noForward (t.chmPort o.val).fwd (to_ j)
    let tagAt (t : State) (j : Nat) : Option (Nat × Bool) := tabGet noFwdTag (t.chmPort o.val).fwdTag (to_ j)
    let first (j : Nat) : Prop := j < 64 ∧ onWay j ∧ ∀ j', j' < j → onWay j' → to_ j' ≠ to_ j
    s.awake = true ∧ s.pwr.xoLost = false ∧ s.pwr.hold = false ∧ inTurn s p l 0x33 ∧ k.poison = false ∧ counts ∧
        first j ∧ fwdAt s j = none ∧ tagAt s j ≠ some (rtag, true) ∧ x.part = none) ∧
  (∃ (s : State) (q : Fin 4) (l : ChmLine),
    let k := l.packet
    let p := q.val
    let rg := k.field 18 12
    let entry (j : Nat) : Nat := s.mapWord p false (64 * rg + j)
    let local_ : Prop := ∀ j, j < 64 → entry j / 2 % 2 = 0
    let free : Prop := ∀ j, j < 4 → (s.chmPort j).wait = []
    s.awake = true ∧ s.pwr.xoLost = false ∧ s.pwr.hold = false ∧ inTurn s p l 0x33 ∧ k.poison = true ∧ local_ ∧ free) ∧
  (∃ (s : State) (q : Fin 4) (l : ChmLine),
    let k := l.packet
    let p := q.val
    let rg := k.field 18 12
    let entry (j : Nat) : Nat := s.mapWord p false (64 * rg + j)
    let local_ : Prop := ∀ j, j < 64 → entry j / 2 % 2 = 0
    let free : Prop := ∀ j, j < 4 → (s.chmPort j).wait = []
    s.awake = true ∧ s.pwr.xoLost = false ∧ s.pwr.hold = false ∧ s.chmState p = 2 ∧ l.part = none ∧ k.crcOk = false ∧
        k.typ = 0x33 ∧ local_ ∧ free) ∧
  (∃ (s : State) (q : Fin 4) (l : ChmLine),
    let k := l.packet
    let p := q.val
    s.awake = true ∧ s.pwr.xoLost = false ∧ s.pwr.hold = false ∧ s.chmState p = 2 ∧ l.part = none ∧ k.crcOk = false ∧
        k.typ ≠ 0x33) ∧
  (∃ (s : State) (q : Fin 4) (l : ChmLine),
    let k := l.packet
    let p := q.val
    s.awake = true ∧ s.pwr.xoLost = false ∧ s.pwr.hold = false ∧ s.chmState p = 2 ∧ l.part = none ∧ k.crcOk = true ∧
        k.typ ≠ 0x33 ∧ k.typ ≠ 0x4B) ∧
  (∃ (s : State) (q : Fin 4) (l : ChmLine),
    let k := l.packet
    let p := q.val
    let x := s.chmPort p
    s.awake = true ∧ s.pwr.xoLost = false ∧ s.pwr.hold = false ∧ s.chmState p = 2 ∧ l.part = none ∧ k.crcOk = true ∧
        (k.typ = 0x33 ∨ k.typ = 0x4B) ∧ k.ackField / 2 ^ 12 % 2 = 0 ∧ k.seq ≠ x.rxSeq) ∧
  (∃ (s : State) (q : Fin 4) (gr : Fin 96),
    let p := q.val
    let g := gr.val
    let x := s.chmPort p
    let groups := s.fld (CHM_P_CTRL p) CHM_P_CTRL_groups
    let due : Prop := s.chmOn p = true ∧ g < groups
    s.awake = true ∧ s.pwr.xoLost = false ∧ s.pwr.hold = false ∧ due ∧ tabGet falseAt x.got g = true) ∧
  (∃ (s : State) (q : Fin 4) (gr : Fin 96),
    let p := q.val
    let g := gr.val
    let x := s.chmPort p
    let groups := s.fld (CHM_P_CTRL p) CHM_P_CTRL_groups
    let due : Prop := s.chmOn p = true ∧ g < groups
    s.awake = true ∧ s.pwr.xoLost = false ∧ s.pwr.hold = false ∧ due ∧ tabGet falseAt x.got g = false) ∧
  (∃ (s : State) (q : Fin 4) (l : ChmLine),
    let k := l.packet
    let p := q.val
    s.awake = true ∧ s.pwr.xoLost = false ∧ s.pwr.hold = false ∧ inTurn s p l 0x4B ∧ 5 < k.kind) ∧
  (∃ (s : State) (q : Fin 4) (l : ChmLine),
    let k := l.packet
    let p := q.val
    let own : Prop := k.src = s.chmId ∧ s.idSure = true ∧ k.kind ≠ 5
    let here : Prop := k.kind = 2 ∨ k.kind = 5 ∨ k.dest = s.chmId
    s.awake = true ∧ s.pwr.xoLost = false ∧ s.pwr.hold = false ∧ inTurn s p l 0x4B ∧ k.kind ≤ 5 ∧ here ∧ k.kind ≠ 4 ∧
        (¬own)) ∧
  (∃ (s : State) (q : Fin 4) (l : ChmLine),
    let k := l.packet
    let p := q.val
    let own : Prop := k.src = s.chmId ∧ s.idSure = true ∧ k.kind ≠ 5
    let here : Prop := k.kind = 2 ∨ k.kind = 5 ∨ k.dest = s.chmId
    s.awake = true ∧ s.pwr.xoLost = false ∧ s.pwr.hold = false ∧ inTurn s p l 0x4B ∧ k.kind < 4 ∧ here ∧ own) ∧
  (∃ (s : State) (q : Fin 4) (l : ChmLine),
    let k := l.packet
    let p := q.val
    let own : Prop := k.src = s.chmId ∧ s.idSure = true ∧ k.kind ≠ 5
    s.awake = true ∧ s.pwr.xoLost = false ∧ s.pwr.hold = false ∧ inTurn s p l 0x4B ∧ k.kind = 4 ∧ k.dest = s.chmId ∧
        (¬own)) ∧
  (∃ (s : State) (q : Fin 4) (o : Fin 4) (l : ChmLine),
    let k := l.packet
    let p := q.val
    let own : Prop := k.src = s.chmId ∧ s.idSure = true ∧ k.kind ≠ 5
    let here : Prop := k.kind = 2 ∨ k.kind = 5 ∨ k.dest = s.chmId
    s.awake = true ∧ s.pwr.xoLost = false ∧ s.pwr.hold = false ∧ inTurn s p l 0x4B ∧ k.kind ≤ 5 ∧ (¬here) ∧ (¬own) ∧
        s.chmHop k.dest = some o.val ∧ o ≠ q ∧ linkFree s o.val (k.data.length + 2)) ∧
  (∃ (s : State) (late : Bool),
    s.awake = true ∧ s.pwr.xoLost = false ∧ s.pwr.hold = false ∧ s.chm.mapDue = some late) ∧
  (∃ (s : State),
    let mc := CHM_MAP_CTRL
    let base := (s.reg CHM_MAP_BASE).toNat
    s.awake = true ∧ s.pwr.xoLost = false ∧ s.pwr.hold = false ∧ s.bit mc CHM_MAP_CTRL_loading = true ∧
        s.ramOpen = true ∧ s.isSup s.chm.mapMid = true ∧ base % 8 = 0 ∧ base + 0x3E000 ≤ 0x800000 ∧ (∀ w,
        s.flipsOf w = 0)) ∧
  (∃ (s : State) (q : Fin 4) (o : Fin 4) (tk : Token) (more : List Token) (i : Fin 64),
    let p := q.val
    let station : Nat := [32, 33, 42, 43].getD p 0
    let ew := s.reg (CHM_EVT_MAP i.val)
    let takes (j : Nat) : Prop := (s.reg (CHM_EVT_MAP j)).toNat / 2 ^ 31 = 1 ∧
        (s.reg (CHM_EVT_MAP j)).toNat % 2 ^ 12 = tk.ctag
    let ed := ew.toNat / 2 ^ 12 % 2 ^ 6
    s.awake = true ∧ s.pwr.xoLost = false ∧ s.pwr.hold = false ∧ s.chmOn p = true ∧ s.inboxOf station = tk :: more ∧
        tk.kind = .event ∧ takes i.val ∧ (∀ j, j < i.val → ¬takes j) ∧ s.chmHop ed = some o.val ∧ linkFree s o.val 3) ∧
  (∃ (s : State) (m : Mid),
    let mc := CHM_MAP_CTRL
    let arm := s.bit mc CHM_MAP_CTRL_arm
    s.awake = true ∧ s.pwr.xoLost = false ∧ s.pwr.hold = false ∧ s.isSup m.val = true ∧ s.noneWaits m.val = true ∧
        arm = true) ∧
  (∃ (s : State) (m : Mid),
    let mc := CHM_MAP_CTRL
    let arm := s.bit mc CHM_MAP_CTRL_arm
    s.awake = true ∧ s.pwr.xoLost = false ∧ s.pwr.hold = false ∧ s.isSup m.val = true ∧ s.noneWaits m.val = true ∧
        arm = false) ∧
  (∃ (s : State) (m : Mid) (q : Fin 4) (v : Word),
    let p := q.val
    s.awake = true ∧ s.pwr.xoLost = false ∧ s.pwr.hold = false ∧ s.isSup m.val = true ∧ s.noneWaits m.val = true ∧
        v = BitVec.ofNat 32 (2 ^ p) ∧ s.chmState p ≠ 2) ∧
  (∃ (s : State) (m : Mid) (v : Word),
    let n (lo len : Nat) : Nat := v.toNat / 2 ^ lo % 2 ^ len
    let on := s.bit CHM_CTRL CHM_CTRL_en
    let chmBad : Prop := (on = true ∧ s.reg CHM_CTRL &&& 0x073F0034 ≠ v &&& 0x073F0034) ∨ n 4 2 = 3 ∨ (n 0 1 = 1 ∧
        n 4 2 = 2 ∧ 8 ≤ n 16 6)
    s.awake = true ∧ s.pwr.xoLost = false ∧ s.pwr.hold = false ∧ s.isSup m.val = true ∧ s.noneWaits m.val = true ∧ chmBad) ∧
  (∃ (s : State) (m : Mid) (v : Word),
    let n (lo len : Nat) : Nat := v.toNat / 2 ^ lo % 2 ^ len
    let on := s.bit CHM_CTRL CHM_CTRL_en
    let chmBad : Prop := (on = true ∧ s.reg CHM_CTRL &&& 0x073F0034 ≠ v &&& 0x073F0034) ∨ n 4 2 = 3 ∨ (n 0 1 = 1 ∧
        n 4 2 = 2 ∧ 8 ≤ n 16 6)
    s.awake = true ∧ s.pwr.xoLost = false ∧ s.pwr.hold = false ∧ s.isSup m.val = true ∧ s.noneWaits m.val = true ∧
        (¬chmBad) ∧ on = false ∧ n 0 1 = 1 ∧ (∀ j, j < 4 → s.bit (CHM_P_CTRL j) CHM_P_CTRL_en = false)) ∧
  (∃ (s : State) (m : Mid) (v : Word),
    let n (lo len : Nat) : Nat := v.toNat / 2 ^ lo % 2 ^ len
    let on := s.bit CHM_CTRL CHM_CTRL_en
    let chmBad : Prop := (on = true ∧ s.reg CHM_CTRL &&& 0x073F0034 ≠ v &&& 0x073F0034) ∨ n 4 2 = 3 ∨ (n 0 1 = 1 ∧
        n 4 2 = 2 ∧ 8 ≤ n 16 6)
    s.awake = true ∧ s.pwr.xoLost = false ∧ s.pwr.hold = false ∧ s.isSup m.val = true ∧ s.noneWaits m.val = true ∧
        (¬chmBad) ∧ on = true ∧ n 0 1 = 0 ∧ s.jobs = []) ∧
  (∃ (s : State) (m : Mid) (q : Fin 4) (v : Word),
    let p := q.val
    let n (lo len : Nat) : Nat := v.toNat / 2 ^ lo % 2 ^ len
    let pc := CHM_P_CTRL p
    let pon := s.bit pc CHM_P_CTRL_en
    let fits : Prop := (100 * s.fld (CHM_P_TIME p) CHM_P_TIME_tx_ofs + 19536 * n 16 7 + 1584) * s.internalRate ≤ 10 ^ 11
    let portBad : Prop := (pon = true ∧
        s.reg pc &&& 0x007F0FF0 ≠ v &&& 0x007F0FF0) ∨ 96 / 2 ^ s.fld RSG_CTRL RSG_CTRL_mult < n 16 7 ∨ (n 0 1 = 1 ∧ ¬fits)
    s.awake = true ∧ s.pwr.xoLost = false ∧ s.pwr.hold = false ∧ s.isSup m.val = true ∧ s.noneWaits m.val = true ∧
        portBad) ∧
  (∃ (s : State) (m : Mid) (q : Fin 4) (v : Word),
    let p := q.val
    let x := s.chmPort p
    let n (lo len : Nat) : Nat := v.toNat / 2 ^ lo % 2 ^ len
    let on := s.bit CHM_CTRL CHM_CTRL_en
    let pc := CHM_P_CTRL p
    let pon := s.bit pc CHM_P_CTRL_en
    let fits : Prop := (100 * s.fld (CHM_P_TIME p) CHM_P_TIME_tx_ofs + 19536 * n 16 7 + 1584) * s.internalRate ≤ 10 ^ 11
    let portBad : Prop := (pon = true ∧
        s.reg pc &&& 0x007F0FF0 ≠ v &&& 0x007F0FF0) ∨ 96 / 2 ^ s.fld RSG_CTRL RSG_CTRL_mult < n 16 7 ∨ (n 0 1 = 1 ∧ ¬fits)
    s.awake = true ∧ s.pwr.xoLost = false ∧ s.pwr.hold = false ∧ s.isSup m.val = true ∧ s.noneWaits m.val = true ∧
        (¬portBad) ∧ pon = false ∧ n 0 1 = 1 ∧ s.chmState p = 0 ∧ (on = false ∨ x.lock = false)) ∧
  (∃ (s : State) (m : Mid) (q : Fin 4) (v : Word),
    let p := q.val
    let x := s.chmPort p
    let n (lo len : Nat) : Nat := v.toNat / 2 ^ lo % 2 ^ len
    let on := s.bit CHM_CTRL CHM_CTRL_en
    let pc := CHM_P_CTRL p
    let pon := s.bit pc CHM_P_CTRL_en
    let fits : Prop := (100 * s.fld (CHM_P_TIME p) CHM_P_TIME_tx_ofs + 19536 * n 16 7 + 1584) * s.internalRate ≤ 10 ^ 11
    let portBad : Prop := (pon = true ∧
        s.reg pc &&& 0x007F0FF0 ≠ v &&& 0x007F0FF0) ∨ 96 / 2 ^ s.fld RSG_CTRL RSG_CTRL_mult < n 16 7 ∨ (n 0 1 = 1 ∧ ¬fits)
    s.awake = true ∧ s.pwr.xoLost = false ∧ s.pwr.hold = false ∧ s.isSup m.val = true ∧ s.noneWaits m.val = true ∧
        (¬portBad) ∧ pon = false ∧ n 0 1 = 1 ∧ s.chmState p = 0 ∧ on = true ∧ x.lock = true) ∧
  (∃ (s : State) (m : Mid) (q : Fin 4) (v : Word),
    let p := q.val
    let n (lo len : Nat) : Nat := v.toNat / 2 ^ lo % 2 ^ len
    let pc := CHM_P_CTRL p
    let pon := s.bit pc CHM_P_CTRL_en
    let fits : Prop := (100 * s.fld (CHM_P_TIME p) CHM_P_TIME_tx_ofs + 19536 * n 16 7 + 1584) * s.internalRate ≤ 10 ^ 11
    let portBad : Prop := (pon = true ∧
        s.reg pc &&& 0x007F0FF0 ≠ v &&& 0x007F0FF0) ∨ 96 / 2 ^ s.fld RSG_CTRL RSG_CTRL_mult < n 16 7 ∨ (n 0 1 = 1 ∧ ¬fits)
    s.awake = true ∧ s.pwr.xoLost = false ∧ s.pwr.hold = false ∧ s.isSup m.val = true ∧ s.noneWaits m.val = true ∧
        (¬portBad) ∧ pon = true ∧ n 0 1 = 0 ∧ s.jobs = []) :=
  ⟨⟨upPort 3 [(CHM_CTRL, CHM_CTRL_en, 1), (CHM_P_CTRL 3, CHM_P_CTRL_en, 1), (CHM_P_CTRL 3, CHM_P_CTRL_groups, 96)], 3, 95,
      by unfold slotReady linkFree; dsimp only; decide +kernel⟩,
   ⟨({ upPort 3 [(CHM_CTRL, CHM_CTRL_en, 1), (CHM_P_CTRL 3, CHM_P_CTRL_en, 1), (CHM_P_CTRL 3, CHM_P_CTRL_groups, 96)] with chm := { State.reset.chm with mapAct := [(mapKey 3 true 6080, 2)] } }).modChmPort 3 fun c => { c with fwd := [(6080, some ⟨1, 0, (1, 5), none⟩)] }, 3, 95, by unfold linkFree; exact ⟨by decide +kernel, by decide +kernel, by decide +kernel, by decide +kernel, by decide +kernel, ⟨0, by decide, by decide +kernel, ⟨1, 0, (1, 5), none⟩, by decide +kernel, rfl⟩⟩⟩,
   ⟨onward, 3, 1, partLn ⟨0x33, 95 * 2 ^ 12, [1], 0⟩, ⟨0x33, 95 * 2 ^ 12, [1], 0⟩, 0, by dsimp only; decide +kernel⟩,
   ⟨onward.modChmPort 1 fun c => { c with fwdTag := [(7, some (0, true))] }, 3, 1, partLn ⟨0x33, 95 * 2 ^ 12, [1], 0⟩,
       ⟨0x33, 95 * 2 ^ 12, [1], 0⟩, 0, by dsimp only; decide +kernel⟩,
   ⟨upPort 3 [], 3, ln (pk typAudio 0 []), by unfold inTurn; dsimp only; decide +kernel⟩,
   ⟨((upPort 3 []).modChmPort 3 fun c => { c with sizes := [1, 1] }).setOutbox 43 [tok0, tok0], 3, ln (pk typAudio 0 []),
       by unfold inTurn; dsimp only; decide +kernel⟩,
   ⟨onward, 3, 1, ln (pk typAudio (95 * 2 ^ 12) [1]), 0, by unfold inTurn; dsimp only; decide +kernel⟩,
   ⟨upPort 3 [], 3, ln ((chmPortDefault 0).finish (mkPacket typAudio 0 [] true)),
       by unfold inTurn; dsimp only; decide +kernel⟩,
   ⟨upPort 3 [], 3, ln ⟨typAudio, 0, [], 5⟩, by dsimp only; decide +kernel⟩,
   ⟨upPort 3 [], 3, ln ⟨typCtrl, 0, [0], 5⟩, by dsimp only; decide +kernel⟩,
   ⟨upPort 3 [], 3, ln (pk 0x55 0 [0]), by dsimp only; decide +kernel⟩,
   ⟨upPort 3 [], 3, ln (pk typAudio 1 []), by dsimp only; decide +kernel⟩,
   ⟨(wr [(CHM_CTRL, CHM_CTRL_en, 1), (CHM_P_CTRL 3, CHM_P_CTRL_en, 1),
       (CHM_P_CTRL 3, CHM_P_CTRL_groups, 96)]).modChmPort 3 fun c => { c with got := [(95, true)] }, 3, 95,
       by dsimp only; decide⟩,
   ⟨wr [(CHM_CTRL, CHM_CTRL_en, 1), (CHM_P_CTRL 3, CHM_P_CTRL_en, 1), (CHM_P_CTRL 3, CHM_P_CTRL_groups, 96)], 3, 95,
       by dsimp only; decide⟩,
   ⟨upPort 3 [], 3, ln (pk typCtrl (6 * 2 ^ 12) [0]), by unfold inTurn; dsimp only; decide +kernel⟩,
   ⟨upPort 3 [], 3, ln (pk typCtrl (3 * 2 ^ 12 + 2 ^ 22) [0]), by unfold inTurn; dsimp only; decide +kernel⟩,
   ⟨upPort 3 [], 3, ln (pk typCtrl (3 * 2 ^ 12) [0]), by unfold inTurn; dsimp only; decide +kernel⟩,
   ⟨upPort 3 [], 3, ln (pk typCtrl (4 * 2 ^ 12 + 2 ^ 22) [0]), by unfold inTurn; dsimp only; decide +kernel⟩,
   ⟨upPort 0 [(CHM_P_STAT 1, CHM_P_STAT_state, 2)], 0, 1, ln (pk typCtrl (2 ^ 16 + 2 ^ 22) [0]),
       by unfold linkFree inTurn; dsimp only; decide +kernel⟩,
   ⟨{ State.reset with chm := { State.reset.chm with mapDue := some true } }, true, by decide⟩,
   ⟨{ openRam (wr [(CHM_MAP_CTRL, CHM_MAP_CTRL_loading, 1)]) with chm := { State.reset.chm with mapMid := 0x300 } },
       ⟨by decide, by decide, by decide, by decide, by decide, by decide, by decide, by decide, fun _ => rfl⟩⟩,
   ⟨((upPort 1 [(CHM_CTRL, CHM_CTRL_en, 1), (CHM_P_CTRL 3, CHM_P_CTRL_en,
       1)]).setReg (CHM_EVT_MAP 63) 0x80001FFF).setInbox 43 [{ tok0 with kind := .event, ctag := 4095 }], 3, 1,
       { tok0 with kind := .event, ctag := 4095 }, [], 63, by unfold linkFree; dsimp only; decide +kernel⟩,
   ⟨wr [(CHM_MAP_CTRL, CHM_MAP_CTRL_arm, 1)], 0x300, by dsimp only; decide⟩,
   ⟨State.reset, 0x300, by dsimp only; decide⟩,
   ⟨State.reset, 0x300, 3, 8, by dsimp only; decide⟩,
   ⟨State.reset, 0x300, 0x30, by dsimp only; decide⟩,
   ⟨State.reset, 0x300, 1, by dsimp only; decide⟩,
   ⟨wr [(CHM_CTRL, CHM_CTRL_en, 1)], 0x300, (wr [(CHM_CTRL, CHM_CTRL_en, 0)]).reg CHM_CTRL, by dsimp only; decide⟩,
   ⟨State.reset, 0x300, 3, 0x610000, by dsimp only; decide⟩,
   ⟨State.reset, 0x300, 3, 1, by dsimp only; decide⟩,
   ⟨(wr [(CHM_CTRL, CHM_CTRL_en, 1)]).modChmPort 3 fun c => { c with lock := true }, 0x300, 3, 1, by dsimp only; decide⟩,
   ⟨wr [(CHM_P_CTRL 3, CHM_P_CTRL_en, 1)], 0x300, 3, State.reset.reg (CHM_P_CTRL 3), by dsimp only; decide⟩⟩

theorem met_RemoteAccessAndKickoffs :
  (∃ (s : State) (o : Fin 4) (r : Fin 4) (k : ChmPacket) (rest : List (Nat × ChmPacket)),
    let dup := s.bit CHM_ID CHM_ID_dup
    let taken (kind : Nat) : Prop := s.chm.ctrlIn = (r.val, k) :: rest ∧ k.kind = kind
    s.awake = true ∧ s.pwr.xoLost = false ∧ s.quiet = true ∧ s.chm.raWait = [] ∧ s.answers = [] ∧ taken 0 ∧
        s.chmHop k.src = some o.val ∧ linkFree s o.val 3 ∧ dup = true) ∧
  (∃ (s : State) (o : Fin 4) (r : Fin 4) (k : ChmPacket) (rest : List (Nat × ChmPacket)),
    let dup := s.bit CHM_ID CHM_ID_dup
    let taken (kind : Nat) : Prop := s.chm.ctrlIn = (r.val, k) :: rest ∧ k.kind = kind
    let asker := 0x320 + k.src
    s.awake = true ∧ s.pwr.xoLost = false ∧ s.quiet = true ∧ s.chm.raWait = [] ∧ s.answers = [] ∧ taken 0 ∧
        s.chmHop k.src = some o.val ∧ linkFree s o.val 3 ∧ dup = false ∧ s.isSup asker = true ∧ k.field 36 36 = 0 ∧
        k.word % 2 ^ 32 = CHM_P_DELAY 0) ∧
  (∃ (s : State) (r : Fin 4) (k : ChmPacket) (rest : List (Nat × ChmPacket)) (mid : Nat) (w : Bool),
    let taken (kind : Nat) : Prop := s.chm.ctrlIn = (r.val, k) :: rest ∧ k.kind = kind
    s.awake = true ∧ s.pwr.xoLost = false ∧ s.quiet = true ∧ s.chm.raWait = [] ∧ s.answers = [] ∧ taken 1 ∧
        s.tagOf k.tag = .busy mid w .nobody ∧ k.field 39 37 = 0) ∧
  (∃ (s : State) (r : Fin 4) (k : ChmPacket) (rest : List (Nat × ChmPacket)),
    let taken (kind : Nat) : Prop := s.chm.ctrlIn = (r.val, k) :: rest ∧ k.kind = kind
    s.awake = true ∧ s.pwr.xoLost = false ∧ s.quiet = true ∧ s.chm.raWait = [] ∧ s.answers = [] ∧ taken 1 ∧
        (s.tagOf k.tag = .free ∨ s.tagOf k.tag = .quarantined)) ∧
  (∃ (s : State) (tf : Fin 256) (mid : Nat) (w : Bool),
    s.awake = true ∧ s.pwr.xoLost = false ∧ s.quiet = true ∧ s.chm.raWait = [] ∧ s.answers = [] ∧
        s.tagOf tf.val = .busy mid w .nobody) ∧
  (∃ (s : State) (tf : Fin 256),
    s.awake = true ∧ s.pwr.xoLost = false ∧ s.quiet = true ∧ s.chm.raWait = [] ∧ s.answers = [] ∧
        s.tagOf tf.val = .quarantined) ∧
  (∃ (s : State) (r : Fin 4) (k : ChmPacket) (rest : List (Nat × ChmPacket)),
    let taken (kind : Nat) : Prop := s.chm.ctrlIn = (r.val, k) :: rest ∧ k.kind = kind
    let set := k.word / 2 ^ 48 % 2 ^ 4
    let sc := DMP_SET_COUNT set
    let ready : Prop := s.bit DMP_CTRL DMP_CTRL_en = true ∧ s.bit sc DMP_SET_COUNT_pending = false
    s.awake = true ∧ s.pwr.xoLost = false ∧ s.quiet = true ∧ s.chm.raWait = [] ∧ s.answers = [] ∧ taken 2 ∧
        k.word / 2 ^ 52 % 2 = 0 ∧ (¬ready)) ∧
  (∃ (s : State) (r : Fin 4) (k : ChmPacket) (rest : List (Nat × ChmPacket)) (d : Nat),
    let taken (kind : Nat) : Prop := s.chm.ctrlIn = (r.val, k) :: rest ∧ k.kind = kind
    let set := k.word / 2 ^ 48 % 2 ^ 4
    let count := k.word % 2 ^ 48
    let sc := DMP_SET_COUNT set
    let sa (j : Nat) : Nat := (s.reg DMP_STG_BASE).toNat + 0x10000 * set + 8 * j
    let ready : Prop := s.bit DMP_CTRL DMP_CTRL_en = true ∧ s.bit sc DMP_SET_COUNT_pending = false
    s.awake = true ∧ s.pwr.xoLost = false ∧ s.quiet = true ∧ s.chm.raWait = [] ∧ s.answers = [] ∧ taken 2 ∧
        k.word / 2 ^ 52 % 2 = 0 ∧ ready ∧ s.dmp.fill < 1024 ∧ s.dmp.begun = none ∧ s.dmp.closed = [] ∧ ahead s count d ∧
        s.dmpLead < d ∧ d < 2 ^ 47 ∧ (s.reg DMP_STG_BASE).toNat % 8 = 0 ∧ (∀ j,
        j < s.fld sc DMP_SET_COUNT_count → sa j + 8 ≤ 0x800000 ∧ s.flipsOf (sa j / 8) = 0)) :=
  ⟨⟨{ upPort 1 [(CHM_ID, CHM_ID_dup, 1)] with chm := { State.reset.chm with ctrlIn := [(1, pk typCtrl (2 ^ 22) [0])] } },
      1, 1, pk typCtrl (2 ^ 22) [0], [], by unfold linkFree; dsimp only; decide +kernel⟩,
   ⟨{ (upPort 1 []).setReg (CHM_RA_ALLOW 0) 2 with chm := { State.reset.chm with ctrlIn := [(1, pk typCtrl (2 ^ 22) [CHM_P_DELAY 0])] } }, 1, 1, pk typCtrl (2 ^ 22) [CHM_P_DELAY 0], [], by unfold linkFree; dsimp only; decide +kernel⟩,
   ⟨{ State.reset with chm := { State.reset.chm with tags := [(255, .busy 5 false .nobody)], ctrlIn := [(1, pk typCtrl (2 ^ 12 + 255 * 2 ^ 28) [0])] } }, 1, pk typCtrl (2 ^ 12 + 255 * 2 ^ 28) [0], [], 5, false, by dsimp only; decide +kernel⟩,
   ⟨{ State.reset with chm := { State.reset.chm with ctrlIn := [(1, pk typCtrl (2 ^ 12) [0])] } }, 1,
       pk typCtrl (2 ^ 12) [0], [], by dsimp only; decide +kernel⟩,
   ⟨{ State.reset with chm := { State.reset.chm with tags := [(255, .busy 5 true .nobody)] } }, 255, 5, true, by decide⟩,
   ⟨{ State.reset with chm := { State.reset.chm with tags := [(255, .quarantined)] } }, 255, by decide⟩,
   ⟨{ State.reset with chm := { State.reset.chm with ctrlIn := [(1, pk typCtrl (2 * 2 ^ 12) [15 * 2 ^ 48])] } }, 1,
       pk typCtrl (2 * 2 ^ 12) [15 * 2 ^ 48], [], by dsimp only; decide +kernel⟩,
   ⟨{ wr [(DMP_CTRL, DMP_CTRL_en, 1)] with chm := { State.reset.chm with ctrlIn := [(1, pk typCtrl (2 * 2 ^ 12) [15 * 2 ^ 48 + 2 ^ 47 - 1])] } }, 1, pk typCtrl (2 * 2 ^ 12) [15 * 2 ^ 48 + 2 ^ 47 - 1], [], 2 ^ 47 - 1, by unfold ahead; dsimp only; decide +kernel⟩⟩

theorem met_KeeperCommandsAndOtp :
  (∃ (s : State) (m : Mid) (v : Word) (x : (SkpEvt → Instr) × Nat),
    let cmds : List ((SkpEvt → Instr) × Nat) := [(.load, 1), (.store, 2), (.scan, 3), (.erase, 4), (.loadBoot, 5),
        (.storeBoot, 6), (.hash, 7)]
    let busy := s.bit SKP_STAT SKP_STAT_busy
    let pair := v.toNat / 2 ^ 4 % 2 ^ 11
    let noPair : Prop := s.fld SKP_SCN_CFG SKP_SCN_CFG_pairs + 1 ≤ pair
    let closed : Prop := s.pins.pfailLow = true ∨ s.inLight = true
    s.awake = true ∧ s.pwr.xoLost = false ∧ s.ramOpen = true ∧ s.bit MEMC_INJ_CTRL MEMC_INJ_CTRL_arm = false ∧
        s.isSup m.val = true ∧ s.noneWaits m.val = true ∧ x ∈ cmds ∧ (closed ∨ busy = true ∨ noPair)) ∧
  (∃ (s : State) (m : Mid) (v : Word) (x : (SkpEvt → Instr) × Nat),
    let cmds : List ((SkpEvt → Instr) × Nat) := [(.load, 1), (.store, 2), (.scan, 3), (.erase, 4), (.loadBoot, 5),
        (.storeBoot, 6), (.hash, 7)]
    let busy := s.bit SKP_STAT SKP_STAT_busy
    let pair := v.toNat / 2 ^ 4 % 2 ^ 11
    let noPair : Prop := s.fld SKP_SCN_CFG SKP_SCN_CFG_pairs + 1 ≤ pair
    let closed : Prop := s.pins.pfailLow = true ∨ s.inLight = true
    s.awake = true ∧ s.pwr.xoLost = false ∧ s.ramOpen = true ∧ s.bit MEMC_INJ_CTRL MEMC_INJ_CTRL_arm = false ∧
        s.isSup m.val = true ∧ s.noneWaits m.val = true ∧ x ∈ cmds ∧ (¬closed) ∧ busy = false ∧ (¬noPair)) ∧
  (∃ (s : State) (j : SkpJob),
    let cmd (c : Nat) : Prop := s.fld SKP_CMD SKP_CMD_op = c
    let fits (n : Nat) : Prop := s.skpBuf % 8 = 0 ∧ s.skpBuf + n ≤ 0x800000
    let quietJob : Prop := s.skp.job = some j ∧ j.op = none
    s.awake = true ∧ s.pwr.xoLost = false ∧ s.ramOpen = true ∧ s.bit MEMC_INJ_CTRL MEMC_INJ_CTRL_arm = false ∧ cmd 7 ∧
        quietJob ∧ (∀ k, s.flipsOf k = 0) ∧ fits s.skpLen) ∧
  (∃ (s : State) (j : SkpJob),
    let cmd (c : Nat) : Prop := s.fld SKP_CMD SKP_CMD_op = c
    let fits (n : Nat) : Prop := s.skpBuf % 8 = 0 ∧ s.skpBuf + n ≤ 0x800000
    let quietJob : Prop := s.skp.job = some j ∧ j.op = none
    s.awake = true ∧ s.pwr.xoLost = false ∧ s.ramOpen = true ∧ s.bit MEMC_INJ_CTRL MEMC_INJ_CTRL_arm = false ∧ cmd 7 ∧
        quietJob ∧ (∀ k, s.flipsOf k = 0) ∧ (¬fits s.skpLen)) ∧
  (∃ (s : State),
    let cmd (c : Nat) : Prop := s.fld SKP_CMD SKP_CMD_op = c
    let began : Prop := s.skp.job = some jobReset
    s.awake = true ∧ s.pwr.xoLost = false ∧ s.ramOpen = true ∧ s.bit MEMC_INJ_CTRL MEMC_INJ_CTRL_arm = false ∧ cmd 1 ∧
        began) ∧
  (∃ (s : State),
    let cmd (c : Nat) : Prop := s.fld SKP_CMD SKP_CMD_op = c
    let began : Prop := s.skp.job = some jobReset
    s.awake = true ∧ s.pwr.xoLost = false ∧ s.ramOpen = true ∧ s.bit MEMC_INJ_CTRL MEMC_INJ_CTRL_arm = false ∧ cmd 5 ∧
        began) ∧
  (∃ (s : State),
    let cmd (c : Nat) : Prop := s.fld SKP_CMD SKP_CMD_op = c
    let began : Prop := s.skp.job = some jobReset
    s.awake = true ∧ s.pwr.xoLost = false ∧ s.ramOpen = true ∧ s.bit MEMC_INJ_CTRL MEMC_INJ_CTRL_arm = false ∧ cmd 2 ∧
        began) ∧
  (∃ (s : State),
    let cmd (c : Nat) : Prop := s.fld SKP_CMD SKP_CMD_op = c
    let began : Prop := s.skp.job = some jobReset
    s.awake = true ∧ s.pwr.xoLost = false ∧ s.ramOpen = true ∧ s.bit MEMC_INJ_CTRL MEMC_INJ_CTRL_arm = false ∧ cmd 6 ∧
        began) ∧
  (∃ (s : State) (j : SkpJob),
    let cmd (c : Nat) : Prop := s.fld SKP_CMD SKP_CMD_op = c
    let quietJob : Prop := s.skp.job = some j ∧ j.op = none
    let last := s.fld SKP_SCN_CFG SKP_SCN_CFG_pairs
    let noSlot (x : Bool) : Prop := s.slotIntact (.scene last) (s.bit SKP_CMD SKP_CMD_deep) x = none
    let entry := s.skpBuf + 8 * last
    s.awake = true ∧ s.pwr.xoLost = false ∧ s.ramOpen = true ∧ s.bit MEMC_INJ_CTRL MEMC_INJ_CTRL_arm = false ∧ cmd 3 ∧
        quietJob ∧ j.begun = true ∧ j.unit = last ∧ entry % 8 = 0 ∧ entry + 8 ≤ 0x800000 ∧ noSlot false ∧ noSlot true) ∧
  (∃ (s : State),
    let cmd (c : Nat) : Prop := s.fld SKP_CMD SKP_CMD_op = c
    let began : Prop := s.skp.job = some jobReset
    let named : PairId := .scene (s.fld SKP_CMD SKP_CMD_pair)
    let cur (p : PairId) (x : Option (Bool × SlotHdr × Bool)) : Prop := s.currentCopy p false = x
    s.awake = true ∧ s.pwr.xoLost = false ∧ s.ramOpen = true ∧ s.bit MEMC_INJ_CTRL MEMC_INJ_CTRL_arm = false ∧ cmd 4 ∧
        began ∧ cur named none) ∧
  (∃ (s : State) (b : Bool) (tie : Bool) (h : SlotHdr),
    let cmd (c : Nat) : Prop := s.fld SKP_CMD SKP_CMD_op = c
    let began : Prop := s.skp.job = some jobReset
    let named : PairId := .scene (s.fld SKP_CMD SKP_CMD_pair)
    let cur (p : PairId) (x : Option (Bool × SlotHdr × Bool)) : Prop := s.currentCopy p false = x
    s.awake = true ∧ s.pwr.xoLost = false ∧ s.ramOpen = true ∧ s.bit MEMC_INJ_CTRL MEMC_INJ_CTRL_arm = false ∧ cmd 4 ∧
        began ∧ cur named (some (b, h, tie))) ∧
  (∃ (s : State) (j : SkpJob) (op : FlashOp) (pa : Nat) (l : List Byte),
    let cmd (c : Nat) : Prop := s.fld SKP_CMD SKP_CMD_op = c
    let doing : Prop := s.skp.job = some j ∧ j.op = some op
    s.awake = true ∧ s.pwr.xoLost = false ∧ s.ramOpen = true ∧ s.bit MEMC_INJ_CTRL MEMC_INJ_CTRL_arm = false ∧ doing ∧
        j.stop = none ∧ (cmd 2 ∨ cmd 6) ∧ j.begun = true ∧ s.fld SKP_STAT SKP_STAT_step = 6 ∧ op = .program pa l) ∧
  (∃ (s : State) (w : Nat) (j : SkpJob) (op : FlashOp) (pa : Nat),
    let cmd (c : Nat) : Prop := s.fld SKP_CMD SKP_CMD_op = c
    let doing : Prop := s.skp.job = some j ∧ j.op = some op
    s.awake = true ∧ s.pwr.xoLost = false ∧ s.ramOpen = true ∧ s.bit MEMC_INJ_CTRL MEMC_INJ_CTRL_arm = false ∧ doing ∧
        j.stop = none ∧ cmd 4 ∧ j.begun = true ∧ j.unit = 2 ∧ op = .erase pa w) ∧
  (∃ (s : State) (j : SkpJob) (op : FlashOp) (pa : Nat) (l : List Byte),
    let doing : Prop := s.skp.job = some j ∧ j.op = some op
    s.awake = true ∧ s.pwr.xoLost = false ∧ s.ramOpen = true ∧ s.bit MEMC_INJ_CTRL MEMC_INJ_CTRL_arm = false ∧ doing ∧
        j.stop = some 7 ∧ op = .program pa l) ∧
  (∃ (s : State) (j : SkpJob) (op : FlashOp),
    let doing : Prop := s.skp.job = some j ∧ j.op = some op
    let limit : Nat := 100 * match op with | .erase _ _ => s.fld SKP_TIMING SKP_TIMING_erase_max | .program _ _ => s.fld SKP_TIMING SKP_TIMING_prog_max
    s.awake = true ∧ s.pwr.xoLost = false ∧ s.ramOpen = true ∧ s.bit MEMC_INJ_CTRL MEMC_INJ_CTRL_arm = false ∧ doing ∧
        j.polls < limit) ∧
  (∃ (s : State) (j : SkpJob) (op : FlashOp),
    let doing : Prop := s.skp.job = some j ∧ j.op = some op
    let limit : Nat := 100 * match op with | .erase _ _ => s.fld SKP_TIMING SKP_TIMING_erase_max | .program _ _ => s.fld SKP_TIMING SKP_TIMING_prog_max
    s.awake = true ∧ s.pwr.xoLost = false ∧ s.ramOpen = true ∧ s.bit MEMC_INJ_CTRL MEMC_INJ_CTRL_arm = false ∧ doing ∧
        limit ≤ j.polls) ∧
  (∃ (s : State) (m : Mid),
    let busy := s.bit SKP_STAT SKP_STAT_busy
    let closed : Prop := s.pins.pfailLow = true ∨ s.inLight = true
    s.awake = true ∧ s.pwr.xoLost = false ∧ s.ramOpen = true ∧ s.bit MEMC_INJ_CTRL MEMC_INJ_CTRL_arm = false ∧
        s.isSup m.val = true ∧ s.noneWaits m.val = true ∧ (¬closed) ∧ busy = true) ∧
  (∃ (s : State) (low : Bool),
    s.awake = true ∧ s.pwr.xoLost = false ∧ s.ramOpen = true ∧ s.bit MEMC_INJ_CTRL MEMC_INJ_CTRL_arm = false ∧
        low = true ∧ s.pins.pfailLow = false) ∧
  (∃ (s : State) (low : Bool),
    s.awake = true ∧ s.pwr.xoLost = false ∧ s.ramOpen = true ∧ s.bit MEMC_INJ_CTRL MEMC_INJ_CTRL_arm = false ∧
        low = false) ∧
  (∃ (s : State) (m : Mid),
    let ow := s.fld SKP_OTP_ADDR SKP_OTP_ADDR_addr
    let locked : Prop := ow ≤ 1 ∨ (3 ≤ ow ∧ ow ≤ 7) ∨ ((s.otpWord 2).getLsbD 31 = true ∧ 2 ≤ ow ∧ ow ≤ 39)
    s.awake = true ∧ s.pwr.xoLost = false ∧ s.ramOpen = true ∧ s.bit MEMC_INJ_CTRL MEMC_INJ_CTRL_arm = false ∧
        s.isSup m.val = true ∧ s.noneWaits m.val = true ∧ s.skp.otpProg = none ∧ locked) ∧
  (∃ (s : State) (m : Mid),
    let ow := s.fld SKP_OTP_ADDR SKP_OTP_ADDR_addr
    let locked : Prop := ow ≤ 1 ∨ (3 ≤ ow ∧ ow ≤ 7) ∨ ((s.otpWord 2).getLsbD 31 = true ∧ 2 ≤ ow ∧ ow ≤ 39)
    s.awake = true ∧ s.pwr.xoLost = false ∧ s.ramOpen = true ∧ s.bit MEMC_INJ_CTRL MEMC_INJ_CTRL_arm = false ∧
        s.isSup m.val = true ∧ s.noneWaits m.val = true ∧ s.skp.otpProg = none ∧ (¬locked)) ∧
  (∃ (s : State) (m : Mid),
    s.awake = true ∧ s.pwr.xoLost = false ∧ s.ramOpen = true ∧ s.bit MEMC_INJ_CTRL MEMC_INJ_CTRL_arm = false ∧
        s.isSup m.val = true ∧ s.noneWaits m.val = true ∧ s.skp.otpProg.isSome = true) ∧
  (∃ (s : State) (d : Word) (w : Nat),
    s.awake = true ∧ s.pwr.xoLost = false ∧ s.ramOpen = true ∧ s.bit MEMC_INJ_CTRL MEMC_INJ_CTRL_arm = false ∧
        s.skp.otpProg = some (w, d)) :=
  ⟨⟨openRam State.reset, 0x300, 0x7FF0, (.load, 1),
      ⟨by decide, by decide, by decide, by decide, by decide, by decide, .head _, .inr (.inr (by decide))⟩⟩,
   ⟨openRam State.reset, 0x300, 0, (.load, 1), ⟨by decide, by decide, by decide, by decide, by decide, by decide, .head _,
       by decide⟩⟩,
   ⟨openRam { (wr [(SKP_CMD, SKP_CMD_op, 7)]).setReg SKP_BUF 0x7FFFF8 |>.setReg SKP_LEN 8 with skp := { State.reset.skp with job := some jobReset } }, jobReset, ⟨by decide, by decide, by decide, by decide, by decide, by decide, fun _ => rfl, by decide⟩⟩,
   ⟨openRam { (wr [(SKP_CMD, SKP_CMD_op, 7)]).setReg SKP_BUF 0x7FFFF8 |>.setReg SKP_LEN 9 with skp := { State.reset.skp with job := some jobReset } }, jobReset, ⟨by decide, by decide, by decide, by decide, by decide, by decide, fun _ => rfl, by decide⟩⟩,
   ⟨openRam { wr [(SKP_CMD, SKP_CMD_op, 1)] with skp := { State.reset.skp with job := some jobReset } },
       by dsimp only; decide⟩,
   ⟨openRam { wr [(SKP_CMD, SKP_CMD_op, 5)] with skp := { State.reset.skp with job := some jobReset } },
       by dsimp only; decide⟩,
   ⟨openRam { wr [(SKP_CMD, SKP_CMD_op, 2)] with skp := { State.reset.skp with job := some jobReset } },
       by dsimp only; decide⟩,
   ⟨openRam { wr [(SKP_CMD, SKP_CMD_op, 6)] with skp := { State.reset.skp with job := some jobReset } },
       by dsimp only; decide⟩,
   ⟨openRam { wr [(SKP_CMD, SKP_CMD_op, 3), (SKP_SCN_CFG, SKP_SCN_CFG_pairs, 0)] with skp := { State.reset.skp with job := some { jobReset with begun := true } } }, { jobReset with begun := true }, by dsimp only; decide +kernel⟩,
   ⟨openRam { wr [(SKP_CMD, SKP_CMD_op, 4)] with skp := { State.reset.skp with job := some jobReset } },
       by dsimp only; decide +kernel⟩,
   ⟨openRam { wr [(SKP_CMD, SKP_CMD_op, 4)] with skp := { State.reset.skp with job := some jobReset, flash := cells (State.reset.slotAddr (.scene 0) false) (hdrBytes (.scene 0) 7 1 9 0) ++ cells (State.reset.slotAddr (.scene 0) false + 0xF8) (leBytes 4 7 ++ leBytes 4 (2 ^ 32 - 8)) } }, false, false, ⟨7, 1, 9, 0⟩, by dsimp only; decide +kernel⟩,
   ⟨openRam { wr [(SKP_CMD, SKP_CMD_op, 6), (SKP_STAT, SKP_STAT_step, 6)] with skp := { State.reset.skp with job := some { jobReset with begun := true, op := some (.program 0 [1]) } } }, { jobReset with begun := true, op := some (.program 0 [1]) }, .program 0 [1], 0, [1], by dsimp only; decide⟩,
   ⟨openRam { wr [(SKP_CMD, SKP_CMD_op, 4)] with skp := { State.reset.skp with job := some { jobReset with begun := true, unit := 2, op := some (.erase 0 4096) } } }, 4096, { jobReset with begun := true, unit := 2, op := some (.erase 0 4096) }, .erase 0 4096, 0, by dsimp only; decide⟩,
   ⟨openRam { State.reset with skp := { State.reset.skp with job := some { jobReset with stop := some 7, op := some (.program 0 [1]) } } }, { jobReset with stop := some 7, op := some (.program 0 [1]) }, .program 0 [1], 0, [1], by dsimp only; decide⟩,
   ⟨openRam { State.reset with skp := { State.reset.skp with job := some { jobReset with op := some (.program 0 [1]) } } },
       { jobReset with op := some (.program 0 [1]) }, .program 0 [1], by dsimp only; decide⟩,
   ⟨openRam { State.reset with skp := { State.reset.skp with job := some { jobReset with polls := 2 ^ 24, op := some (.program 0 [1]) } } }, { jobReset with polls := 2 ^ 24, op := some (.program 0 [1]) }, .program 0 [1], by dsimp only; decide⟩,
   ⟨openRam (wr [(SKP_STAT, SKP_STAT_busy, 1)]), 0x300, by dsimp only; decide⟩,
   ⟨openRam State.reset, true, by decide⟩,
   ⟨openRam { State.reset with pins := { State.reset.pins with pfailLow := true } }, false, by decide⟩,
   ⟨{ openRam (wr [(SKP_OTP_ADDR, SKP_OTP_ADDR_addr, 39)]) with otp := [(0, 1), (2, 0x80000000)] }, 0x300,
       by dsimp only; decide⟩,
   ⟨openRam (wr [(SKP_OTP_ADDR, SKP_OTP_ADDR_addr, 39)]), 0x300, by dsimp only; decide⟩,
   ⟨openRam { State.reset with skp := { State.reset.skp with otpProg := some (2, 1) } }, 0x300, by decide⟩,
   ⟨openRam { State.reset with skp := { State.reset.skp with otpProg := some (40, 3) } }, 3, 40, by decide⟩⟩

theorem met_SleepWakeAndReset :
  (∃ (s : State) (m : Mid) (v : Word),
    let pst := s.fld SYS_PWR_STAT SYS_PWR_STAT_state
    let target := v.toNat % 4
    s.awake = true ∧ s.isSup m.val = true ∧ s.noneWaits m.val = true ∧ (target = 0 ∨ pst ≠ 0)) ∧
  (∃ (s : State) (m : Mid) (v : Word),
    let pst := s.fld SYS_PWR_STAT SYS_PWR_STAT_state
    let target := v.toNat % 4
    let watching : Bool := (List.range 32).any fun j => s.watchOn j && s.watchTrue j
    let reason : Nat := if s.bit SKP_STAT SKP_STAT_busy = true ∨ s.dmpBusy = true then 1 else if watching then 2 else if target = 1 ∧ s.lightWake = true then 3 else 0
    s.awake = true ∧ s.isSup m.val = true ∧ s.noneWaits m.val = true ∧ target ≠ 0 ∧ pst = 0 ∧ reason ≠ 0) ∧
  (∃ (s : State) (m : Mid) (v : Word),
    let pst := s.fld SYS_PWR_STAT SYS_PWR_STAT_state
    let target := v.toNat % 4
    let watching : Bool := (List.range 32).any fun j => s.watchOn j && s.watchTrue j
    let reason : Nat := if s.bit SKP_STAT SKP_STAT_busy = true ∨ s.dmpBusy = true then 1 else if watching then 2 else if target = 1 ∧ s.lightWake = true then 3 else 0
    s.awake = true ∧ s.isSup m.val = true ∧ s.noneWaits m.val = true ∧ target ≠ 0 ∧ pst = 0 ∧ reason = 0) ∧
  (∃ (s : State) (m : Mid) (v : Word),
    let key := v.toNat / 2 ^ 8 % 2 ^ 8
    s.awake = true ∧ s.isSup m.val = true ∧ s.noneWaits m.val = true ∧ key ≠ 0xA5) ∧
  (∃ (s : State) (m : Mid) (v : Word),
    let key := v.toNat / 2 ^ 8 % 2 ^ 8
    s.awake = true ∧ s.isSup m.val = true ∧ s.noneWaits m.val = true ∧ key = 0xA5 ∧ v.getLsbD 0 = false) ∧
  (∃ (s : State) (m : Mid) (v : Word),
    let key := v.toNat / 2 ^ 8 % 2 ^ 8
    s.awake = true ∧ s.isSup m.val = true ∧ s.noneWaits m.val = true ∧ key = 0xA5 ∧ v.getLsbD 0 = true) ∧
  (∃ (s : State),
    let pst := s.fld SYS_PWR_STAT SYS_PWR_STAT_state
    s.awake = true ∧ pst = 4 ∧ s.pwr.due = true ∧ s.pwr.target = 1) ∧
  (∃ (s : State),
    let pst := s.fld SYS_PWR_STAT SYS_PWR_STAT_state
    s.awake = true ∧ pst = 4 ∧ s.pwr.due = true ∧ 2 ≤ s.pwr.target) ∧
  (∃ (s : State),
    s.awake = true ∧ s.inLight = true ∧ s.lightWake = true) ∧
  (∃ (s : State) (i : Fin 32),
    let found : Prop := s.watchOn i.val = true ∧ (s.watchByLevel i.val = true → s.watchTrue i.val = true)
    s.awake = true ∧ s.inLight = true ∧ found) ∧
  (∃ (s : State) (i : Fin 32),
    let found : Prop := s.watchOn i.val = true ∧ (s.watchByLevel i.val = true → s.watchTrue i.val = true)
    found ∧ (s.pwr.mode = .down ∨ s.pwr.mode = .asleep)) ∧
  (∃ (s : State) (i : Fin 32),
    let found : Prop := s.watchOn i.val = true ∧ (s.watchByLevel i.val = true → s.watchTrue i.val = true)
    found ∧ s.pwr.mode = .up) ∧
  (∃ (s : State) (k : Nat),
    s.pwr.mode = .asleep ∧ s.pwr.hit = some k) ∧
  (∃ (s : State) (e : Nat) (rest : List Nat),
    s.pwr.seq = e :: rest ∧ (s.pwr.mode = .down ∨ s.pwr.mode = .up)) ∧
  (∃ (s : State),
    let waits : Prop := s.pwr.mode = .up ∧ s.pwr.seq = []
    waits) ∧
  (∃ (s : State),
    s.powered = true ∧ s.pwr.pinReset = false) ∧
  (∃ (s : State),
    s.powered = true ∧ s.pwr.pinReset = true) ∧
  (∃ (s : State),
    s.awake = true ∧ s.bit EMB_XP_CFG EMB_XP_CFG_en = false ∧ (s.wideOf (wideKey .rtc)).load = none) ∧
  (∃ (s : State) (k : Nat),
    s.awake = true ∧ s.bit EMB_XP_CFG EMB_XP_CFG_en = false ∧ (s.wideOf (wideKey .rtc)).load = some k) ∧
  (∃ (s : State),
    let crit : Int := signed 16 (s.fld SYS_TEMP_CFG SYS_TEMP_CFG_crit)
    s.awake = true ∧ s.pwr.xoLost = false ∧ signed 16 (s.fld SYS_TEMP SYS_TEMP_temp) < crit) ∧
  (∃ (s : State),
    let crit : Int := signed 16 (s.fld SYS_TEMP_CFG SYS_TEMP_CFG_crit)
    s.awake = true ∧ s.pwr.xoLost = false ∧ crit ≤ signed 16 (s.fld SYS_TEMP SYS_TEMP_temp)) ∧
  (∃ (s : State) (i : Fin 32),
    let pst := s.fld SYS_PWR_STAT SYS_PWR_STAT_state
    let found : Prop := s.watchOn i.val = true ∧ (s.watchByLevel i.val = true → s.watchTrue i.val = true)
    found ∧ s.awake = true ∧ pst = 5) :=
  ⟨⟨State.reset, 0x300, 0, by dsimp only; decide⟩,
   ⟨wr [(SKP_STAT, SKP_STAT_busy, 1)], 0x300, 3, by dsimp only; decide +kernel⟩,
   ⟨State.reset, 0x300, 1, by dsimp only; decide +kernel⟩,
   ⟨State.reset, 0x300, 0xA401, by dsimp only; decide⟩,
   ⟨State.reset, 0x300, 0xA500, by dsimp only; decide⟩,
   ⟨State.reset, 0x300, 0xA501, by dsimp only; decide⟩,
   ⟨{ wr [(SYS_PWR_STAT, SYS_PWR_STAT_state, 4)] with pwr := { State.reset.pwr with due := true, target := 1 } },
       by dsimp only; decide⟩,
   ⟨{ wr [(SYS_PWR_STAT, SYS_PWR_STAT_state, 4)] with pwr := { State.reset.pwr with due := true, target := 2 } },
       by dsimp only; decide⟩,
   ⟨{ wr [(SYS_PWR_STAT, SYS_PWR_STAT_state, 1), (EVC_SRC_CFG 472, EVC_SRC_CFG_en, 1), (EVC_SRC_CFG 472, EVC_SRC_CFG_prio, 3)] with evc := { State.reset.evc with src := [(472, .pending)] } }, by decide +kernel⟩,
   ⟨wr [(SYS_PWR_STAT, SYS_PWR_STAT_state, 1), (EMB_WATCH 31, EMB_WATCH_en, 1), (EMB_WATCH 31, EMB_WATCH_sense, 1)], 31,
       by dsimp only; decide⟩,
   ⟨{ wr [(EMB_WATCH 31, EMB_WATCH_en, 1), (EMB_WATCH 31, EMB_WATCH_sense, 1)] with pwr := { State.reset.pwr with mode := .down } }, 31, by dsimp only; decide⟩,
   ⟨{ wr [(EMB_WATCH 31, EMB_WATCH_en, 1), (EMB_WATCH 31, EMB_WATCH_sense, 4)] with pwr := { State.reset.pwr with mode := .up } }, 31, by dsimp only; decide⟩,
   ⟨{ State.reset with pwr := { State.reset.pwr with mode := .asleep, hit := some 31 } }, 31, by decide⟩,
   ⟨{ State.reset with pwr := { State.reset.pwr with mode := .down, seq := [3] } }, 3, [], by decide⟩,
   ⟨{ State.reset with pwr := { State.reset.pwr with mode := .up } }, by dsimp only; decide⟩,
   ⟨State.reset, by decide⟩,
   ⟨{ State.reset with pwr := { State.reset.pwr with pinReset := true } }, by decide⟩,
   ⟨wr [(EMB_XP_CFG, EMB_XP_CFG_en, 0)], by decide⟩,
   ⟨(wr [(EMB_XP_CFG, EMB_XP_CFG_en, 0)]).setWide (wideKey .rtc) ⟨0, 0, 0, some (2 ^ 48 - 1)⟩, 2 ^ 48 - 1, by decide⟩,
   ⟨State.reset, by dsimp only; decide⟩,
   ⟨wr [(SYS_TEMP, SYS_TEMP_temp, 0x5F0), (SYS_TEMP_CFG, SYS_TEMP_CFG_crit, 0x5F0)], by dsimp only; decide⟩,
   ⟨wr [(SYS_PWR_STAT, SYS_PWR_STAT_state, 5), (EMB_WATCH 31, EMB_WATCH_en, 1), (EMB_WATCH 31, EMB_WATCH_sense, 1)], 31,
       by dsimp only; decide⟩⟩

theorem met_BootRomRuns :
  (∃ (s : State),
    s.awake = true ∧ s.pwr.xoLost = false ∧ s.jobs = [] ∧ s.ramOpen = true ∧ s.running 0 = true ∧
        s.bit SKP_STAT SKP_STAT_busy = false ∧ s.pins.pfailLow = false ∧ s.inLight = false ∧ s.isSup 0 = true ∧ (∀ k,
        s.flipsOf k = 0) ∧ s.bit MEMC_INJ_CTRL MEMC_INJ_CTRL_arm = false ∧
        ((List.finRange 192).all fun n => !(s.hearth n.val).stepping) = true ∧ s.skp.rom ≠ .idle ∧ s.answers = []) ∧
  (∃ (s : State) (src : Nat) (e : Nat) (left : List (Nat × Word)) (r : Reply),
    s.awake = true ∧ s.pwr.xoLost = false ∧ s.jobs = [] ∧ s.ramOpen = true ∧ s.running 0 = true ∧
        s.bit SKP_STAT SKP_STAT_busy = false ∧ s.pins.pfailLow = false ∧ s.inLight = false ∧ s.isSup 0 = true ∧ (∀ k,
        s.flipsOf k = 0) ∧ s.bit MEMC_INJ_CTRL MEMC_INJ_CTRL_arm = false ∧
        ((List.finRange 192).all fun n => !(s.hearth n.val).stepping) = true ∧ src < 4 ∧
        s.skp.rom = .applying src e left ∧ s.answers = [(.rom, r)] ∧ r.resp = .ok ∧ left = []) ∧
  (∃ (s : State) (src : Nat) (e : Nat) (left : List (Nat × Word)) (r : Reply),
    s.awake = true ∧ s.pwr.xoLost = false ∧ s.jobs = [] ∧ s.ramOpen = true ∧ s.running 0 = true ∧
        s.bit SKP_STAT SKP_STAT_busy = false ∧ s.pins.pfailLow = false ∧ s.inLight = false ∧ s.isSup 0 = true ∧ (∀ k,
        s.flipsOf k = 0) ∧ s.bit MEMC_INJ_CTRL MEMC_INJ_CTRL_arm = false ∧
        ((List.finRange 192).all fun n => !(s.hearth n.val).stepping) = true ∧ src < 4 ∧
        s.skp.rom = .applying src e left ∧ s.answers = [(.rom, r)] ∧ r.resp ≠ .ok ∧ src = 3) ∧
  (∃ (s : State),
    let resumes : Prop := s.bit EMB_RESUME EMB_RESUME_en = true ∧ s.fld EMB_CAUSE EMB_CAUSE_cause = 5 ∧
        s.fld EMB_CAUSE EMB_CAUSE_from = 2
    s.awake = true ∧ s.pwr.xoLost = false ∧ s.jobs = [] ∧ s.ramOpen = true ∧ s.running 0 = true ∧
        s.bit SKP_STAT SKP_STAT_busy = false ∧ s.pins.pfailLow = false ∧ s.inLight = false ∧ s.isSup 0 = true ∧ (∀ k,
        s.flipsOf k = 0) ∧ s.bit MEMC_INJ_CTRL MEMC_INJ_CTRL_arm = false ∧
        ((List.finRange 192).all fun n => !(s.hearth n.val).stepping) = true ∧ s.skp.rom = .idle ∧ resumes) ∧
  (∃ (s : State),
    let resumes : Prop := s.bit EMB_RESUME EMB_RESUME_en = true ∧ s.fld EMB_CAUSE EMB_CAUSE_cause = 5 ∧
        s.fld EMB_CAUSE EMB_CAUSE_from = 2
    let mode := s.fld SKP_BOOT_STAT SKP_BOOT_STAT_boot_mode
    s.awake = true ∧ s.pwr.xoLost = false ∧ s.jobs = [] ∧ s.ramOpen = true ∧ s.running 0 = true ∧
        s.bit SKP_STAT SKP_STAT_busy = false ∧ s.pins.pfailLow = false ∧ s.inLight = false ∧ s.isSup 0 = true ∧ (∀ k,
        s.flipsOf k = 0) ∧ s.bit MEMC_INJ_CTRL MEMC_INJ_CTRL_arm = false ∧
        ((List.finRange 192).all fun n => !(s.hearth n.val).stepping) = true ∧ s.skp.rom = .idle ∧ (¬resumes) ∧
        (mode = 1 ∨ mode = 2) ∧ s.bit SKP_BOOT_GO SKP_BOOT_GO_go = false) ∧
  (∃ (s : State),
    let resumes : Prop := s.bit EMB_RESUME EMB_RESUME_en = true ∧ s.fld EMB_CAUSE EMB_CAUSE_cause = 5 ∧
        s.fld EMB_CAUSE EMB_CAUSE_from = 2
    let mode := s.fld SKP_BOOT_STAT SKP_BOOT_STAT_boot_mode
    s.awake = true ∧ s.pwr.xoLost = false ∧ s.jobs = [] ∧ s.ramOpen = true ∧ s.running 0 = true ∧
        s.bit SKP_STAT SKP_STAT_busy = false ∧ s.pins.pfailLow = false ∧ s.inLight = false ∧ s.isSup 0 = true ∧ (∀ k,
        s.flipsOf k = 0) ∧ s.bit MEMC_INJ_CTRL MEMC_INJ_CTRL_arm = false ∧
        ((List.finRange 192).all fun n => !(s.hearth n.val).stepping) = true ∧ s.skp.rom = .idle ∧ (¬resumes) ∧
        mode = 0 ∧ s.currentCopy .boot false = none) ∧
  (∃ (s : State) (m : Mid),
    s.awake = true ∧ s.pwr.xoLost = false ∧ s.jobs = [] ∧ s.ramOpen = true ∧ s.running 0 = true ∧
        s.bit SKP_STAT SKP_STAT_busy = false ∧ s.pins.pfailLow = false ∧ s.inLight = false ∧ s.isSup 0 = true ∧ (∀ k,
        s.flipsOf k = 0) ∧ s.bit MEMC_INJ_CTRL MEMC_INJ_CTRL_arm = false ∧
        ((List.finRange 192).all fun n => !(s.hearth n.val).stepping) = true ∧ s.isSup m.val = true ∧
        s.skp.rom ≠ .waiting) ∧
  (∃ (s : State) (m : Mid),
    let page := (List.range 32).map fun j => s.mantelByte (0x005FFF00 + j)
    let staged (x : Option SlotHdr) : Prop := s.skp.rom = .waiting ∧ hdrOf .boot 0x200000 page = x
    s.awake = true ∧ s.pwr.xoLost = false ∧ s.jobs = [] ∧ s.ramOpen = true ∧ s.running 0 = true ∧
        s.bit SKP_STAT SKP_STAT_busy = false ∧ s.pins.pfailLow = false ∧ s.inLight = false ∧ s.isSup 0 = true ∧ (∀ k,
        s.flipsOf k = 0) ∧ s.bit MEMC_INJ_CTRL MEMC_INJ_CTRL_arm = false ∧
        ((List.finRange 192).all fun n => !(s.hearth n.val).stepping) = true ∧ s.isSup m.val = true ∧ staged none) ∧
  (∃ (s : State) (m : Mid) (hd : SlotHdr),
    let option (i : Nat) : Bool := (s.otpWord 2).getLsbD i
    let page := (List.range 32).map fun j => s.mantelByte (0x005FFF00 + j)
    let image (n : Nat) : List Byte := (List.range n).map fun j => s.mantelByte (0x00600000 + j)
    let staged (x : Option SlotHdr) : Prop := s.skp.rom = .waiting ∧ hdrOf .boot 0x200000 page = x
    s.awake = true ∧ s.pwr.xoLost = false ∧ s.jobs = [] ∧ s.ramOpen = true ∧ s.running 0 = true ∧
        s.bit SKP_STAT SKP_STAT_busy = false ∧ s.pins.pfailLow = false ∧ s.inLight = false ∧ s.isSup 0 = true ∧ (∀ k,
        s.flipsOf k = 0) ∧ s.bit MEMC_INJ_CTRL MEMC_INJ_CTRL_arm = false ∧
        ((List.finRange 192).all fun n => !(s.hearth n.val).stepping) = true ∧ s.isSup m.val = true ∧ staged (some hd) ∧
        hd.flags % 2 = 0 ∧ hd.len = 8 ∧ hd.pcrc = crc32c (image 8) ∧ option 0 = false ∧
        (mantelWord32 s 0x00600004).toNat / 2 ^ 24 % 16 = 15) :=
  ⟨⟨{ bootState with skp := { State.reset.skp with rom := .done } },
      by and_intros <;> first | exact fun _ => rfl | decide +kernel⟩,
   ⟨{ bootState with answers := [(.rom, ⟨.ok, 0⟩)], skp := { State.reset.skp with rom := .applying 3 5 [] } }, 3, 5, [],
       ⟨.ok, 0⟩, by and_intros <;> first | exact fun _ => rfl | decide +kernel⟩,
   ⟨{ bootState with answers := [(.rom, ⟨.slverr, 0⟩)], skp := { State.reset.skp with rom := .applying 3 5 [] } }, 3, 5,
       [], ⟨.slverr, 0⟩, by and_intros <;> first | exact fun _ => rfl | decide +kernel⟩,
   ⟨flds [(EMB_RESUME, EMB_RESUME_en, 1), (EMB_CAUSE, EMB_CAUSE_cause, 5), (EMB_CAUSE, EMB_CAUSE_from, 2)] bootState,
       by dsimp only; and_intros <;> first | exact fun _ => rfl | decide +kernel⟩,
   ⟨flds [(SKP_BOOT_STAT, SKP_BOOT_STAT_boot_mode, 2)] bootState,
       by dsimp only; and_intros <;> first | exact fun _ => rfl | decide +kernel⟩,
   ⟨bootState, by dsimp only; and_intros <;> first | exact fun _ => rfl | decide +kernel⟩,
   ⟨bootState, 0x300, by and_intros <;> first | exact fun _ => rfl | decide +kernel⟩,
   ⟨{ bootState with skp := { State.reset.skp with rom := .waiting } }, 0x300,
       by dsimp only; and_intros <;> first | exact fun _ => rfl | decide +kernel⟩,
   ⟨{ bootState with skp := { State.reset.skp with rom := .waiting }, mantel := cells 0x005FFF00 (hdrBytes .boot 1 8 (crc32c (leBytes 8 0x0F00000000000000)) 0) ++ cells 0x00600000 (leBytes 8 0x0F00000000000000) }, 0x300, ⟨1, 8, crc32c (leBytes 8 0x0F00000000000000), 0⟩, by dsimp only; and_intros <;> first | exact fun _ => rfl | decide +kernel⟩⟩

theorem met_HostsReachTheEngine :
  (∃ (s : State) (r : PcieReq),
    let ps := HIF_PCIE_STAT
    let up := s.bit ps HIF_PCIE_STAT_link_up
    let unsupported : Prop := r.plain = false ∨ s.pcie.memEn = false ∨ s.pcie.d3hot = true ∨ (r.bar2 = true ∧
        0x800000 ≤ r.offset.toNat)
    s.awake = true ∧ s.pwr.xoLost = false ∧ s.quiet = true ∧ s.answers = [] ∧ up = true ∧ unsupported) ∧
  (∃ (s : State) (r : PcieReq),
    let ps := HIF_PCIE_STAT
    let up := s.bit ps HIF_PCIE_STAT_link_up
    let unsupported : Prop := r.plain = false ∨ s.pcie.memEn = false ∨ s.pcie.d3hot = true ∨ (r.bar2 = true ∧
        0x800000 ≤ r.offset.toNat)
    let toSleep : Prop := s.fld SYS_PWR_STAT SYS_PWR_STAT_state = 4 ∧ 2 ≤ s.pwr.target
    s.awake = true ∧ s.pwr.xoLost = false ∧ s.quiet = true ∧ s.answers = [] ∧ up = true ∧ (¬unsupported) ∧ (¬toSleep) ∧
        r.bar2 = false ∧ r.write = false ∧ r.offset.toNat = HIF_GPIO_OUT - 0x01000000 ∧ r.bytes.map (fun x => x.1) = [true,
        true, true, true]) ∧
  (∃ (s : State) (r : PcieReq),
    let ps := HIF_PCIE_STAT
    let up := s.bit ps HIF_PCIE_STAT_link_up
    let unsupported : Prop := r.plain = false ∨ s.pcie.memEn = false ∨ s.pcie.d3hot = true ∨ (r.bar2 = true ∧
        0x800000 ≤ r.offset.toNat)
    let toSleep : Prop := s.fld SYS_PWR_STAT SYS_PWR_STAT_state = 4 ∧ 2 ≤ s.pwr.target
    s.awake = true ∧ s.pwr.xoLost = false ∧ s.quiet = true ∧ s.answers = [] ∧ up = true ∧ (¬unsupported) ∧ (¬toSleep) ∧
        r.bar2 = true ∧ r.write = true ∧ r.offset.toNat % 8 = 0 ∧ s.ramOpen = true ∧
        s.bit MEMC_INJ_CTRL MEMC_INJ_CTRL_arm = false ∧ r.bytes.map (fun x => x.1) = List.replicate 8 true) ∧
  (∃ (s : State) (a : Word) (f : QspiWr),
    let qon := s.bit HIF_QSPI_CFG HIF_QSPI_CFG_en
    s.awake = true ∧ s.pwr.xoLost = false ∧ s.quiet = true ∧ s.answers = [] ∧ qon = true ∧ f.addr = some a ∧
        a.toNat % 4 ≠ 0) ∧
  (∃ (s : State) (f : QspiWr),
    let qon := s.bit HIF_QSPI_CFG HIF_QSPI_CFG_en
    s.awake = true ∧ s.pwr.xoLost = false ∧ s.quiet = true ∧ s.answers = [] ∧ qon = true ∧ f.addr = none) ∧
  (∃ (s : State) (a : Word) (addr : Option Word),
    let qon := s.bit HIF_QSPI_CFG HIF_QSPI_CFG_en
    s.awake = true ∧ s.pwr.xoLost = false ∧ s.quiet = true ∧ s.answers = [] ∧ qon = true ∧ addr = some a ∧
        a.toNat % 4 ≠ 0) ∧
  (∃ (s : State) (addr : Option Word),
    let qon := s.bit HIF_QSPI_CFG HIF_QSPI_CFG_en
    s.awake = true ∧ s.pwr.xoLost = false ∧ s.quiet = true ∧ s.answers = [] ∧ qon = true ∧ addr = none) ∧
  (∃ (s : State) (b : Byte),
    let qon := s.bit HIF_QSPI_CFG HIF_QSPI_CFG_en
    s.awake = true ∧ s.pwr.xoLost = false ∧ s.quiet = true ∧ s.answers = [] ∧ qon = true ∧ b ∉ [0x02, 0x0B, 0x05]) ∧
  (∃ (s : State) (v : Word) (f : QspiWr),
    let out := HIF_GPIO_OUT
    let qon := s.bit HIF_QSPI_CFG HIF_QSPI_CFG_en
    s.awake = true ∧ s.pwr.xoLost = false ∧ s.quiet = true ∧ s.answers = [] ∧ qon = true ∧
        f.addr = some (BitVec.ofNat 32 out) ∧ f.words = [v] ∧ f.rest = false) ∧
  (∃ (s : State) (cut : Bool) (addr : Option Word) (count : Option (Fin 64)),
    let out := HIF_GPIO_OUT
    let qon := s.bit HIF_QSPI_CFG HIF_QSPI_CFG_en
    s.awake = true ∧ s.pwr.xoLost = false ∧ s.quiet = true ∧ s.answers = [] ∧ qon = true ∧
        addr = some (BitVec.ofNat 32 out) ∧ count = some 0 ∧ cut = false) ∧
  (∃ (s : State) (a : Word) (op : Fin 4),
    let out := HIF_GPIO_OUT
    s.awake = true ∧ s.pwr.xoLost = false ∧ s.quiet = true ∧ s.answers = [] ∧ s.hif.tapIr = 0x10 ∧ s.hif.dbgStat ≠ 1 ∧
        a = BitVec.ofNat 32 out ∧ op.val = 1) ∧
  (∃ (s : State) (a : Word) (op : Fin 4),
    let out := HIF_GPIO_OUT
    s.awake = true ∧ s.pwr.xoLost = false ∧ s.quiet = true ∧ s.answers = [] ∧ s.hif.tapIr = 0x10 ∧ s.hif.dbgStat ≠ 1 ∧
        a = BitVec.ofNat 32 out ∧ op.val = 2) ∧
  (∃ (s : State) (m : Mid),
    s.awake = true ∧ s.pwr.xoLost = false ∧ s.quiet = true ∧ s.answers = [] ∧ s.isSup m.val = true ∧ s.hif.uartRx = []) ∧
  (∃ (s : State) (m : Mid) (b : Byte) (more : List Byte),
    s.awake = true ∧ s.pwr.xoLost = false ∧ s.quiet = true ∧ s.answers = [] ∧ s.isSup m.val = true ∧
        s.hif.uartRx = b :: more) ∧
  (∃ (s : State) (m : Mid) (n : Fin 64),
    s.awake = true ∧ s.pwr.xoLost = false ∧ s.quiet = true ∧ s.answers = [] ∧ s.isSup m.val = true ∧
        bitOf s.evc.pba n.val = false) ∧
  (∃ (s : State) (m : Mid) (n : Fin 64),
    let open_ : Prop := s.pcie.msixEn = true ∧ s.pcie.busMaster = true ∧ s.pcie.funcMask = false ∧ s.pcie.d3hot = false
    s.awake = true ∧ s.pwr.xoLost = false ∧ s.quiet = true ∧ s.answers = [] ∧ s.isSup m.val = true ∧
        bitOf s.evc.pba n.val = true ∧ open_) ∧
  (∃ (s : State) (c : Byte) (more : List Byte),
    let uon := s.bit HIF_UART_CTRL HIF_UART_CTRL_en
    s.awake = true ∧ s.pwr.xoLost = false ∧ s.quiet = true ∧ s.answers = [] ∧ uon = true ∧ s.hif.uartTx = c :: more) ∧
  (∃ (s : State),
    let uon := s.bit HIF_UART_CTRL HIF_UART_CTRL_en
    s.awake = true ∧ s.pwr.xoLost = false ∧ s.quiet = true ∧ s.answers = [] ∧ uon = true ∧ s.hif.uartRx.length < 64) ∧
  (∃ (s : State),
    let uon := s.bit HIF_UART_CTRL HIF_UART_CTRL_en
    s.awake = true ∧ s.pwr.xoLost = false ∧ s.quiet = true ∧ s.answers = [] ∧ uon = true ∧ 64 ≤ s.hif.uartRx.length) ∧
  (∃ (s : State) (speed : Fin 8) (width : Fin 8),
    let fits : Prop := 1 ≤ speed.val ∧ speed.val ≤ 3 ∧ (width.val = 1 ∨ width.val = 2 ∨ width.val = 4)
    s.awake = true ∧ s.pwr.xoLost = false ∧ s.quiet = true ∧ s.answers = [] ∧ fits ∧ s.pins.perstLow = false) ∧
  (∃ (s : State),
    let ps := HIF_PCIE_STAT
    let up := s.bit ps HIF_PCIE_STAT_link_up
    s.awake = true ∧ s.pwr.xoLost = false ∧ s.quiet = true ∧ s.answers = [] ∧ up = true ∧ s.evc.pba = 0 ∧
        s.hif.resend = false) ∧
  (∃ (s : State),
    s.awake = true ∧ s.pwr.xoLost = false ∧ s.quiet = true ∧ s.answers = [] ∧ s.pins.perstLow = false ∧
        s.bit HIF_PCIE_CTRL HIF_PCIE_CTRL_perst_sys = false) ∧
  (∃ (s : State),
    s.awake = true ∧ s.pwr.xoLost = false ∧ s.quiet = true ∧ s.answers = [] ∧ s.pins.perstLow = false ∧
        s.bit HIF_PCIE_CTRL HIF_PCIE_CTRL_perst_sys = true) :=
  ⟨⟨{ linked with pcie := ⟨true, true, false, false, false⟩ }, ⟨true, 0x800000, false, [], true⟩, by dsimp only; decide⟩,
   ⟨{ linked with pcie := ⟨true, true, false, false, false⟩ },
       ⟨false, BitVec.ofNat 26 (HIF_GPIO_OUT - 0x01000000), false, List.replicate 4 (true, 0), true⟩,
       by dsimp only; decide⟩,
   ⟨openRam { linked with pcie := ⟨true, true, false, false, false⟩ },
       ⟨true, 0x7FFFF8, true, List.replicate 8 (true, 1), true⟩, by dsimp only; decide⟩,
   ⟨wr [(HIF_QSPI_CFG, HIF_QSPI_CFG_en, 1)], 1, ⟨some 1, [], false⟩, by dsimp only; decide⟩,
   ⟨wr [(HIF_QSPI_CFG, HIF_QSPI_CFG_en, 1)], ⟨none, [], true⟩, by dsimp only; decide⟩,
   ⟨wr [(HIF_QSPI_CFG, HIF_QSPI_CFG_en, 1)], 3, some 3, by dsimp only; decide⟩,
   ⟨wr [(HIF_QSPI_CFG, HIF_QSPI_CFG_en, 1)], none, by dsimp only; decide⟩,
   ⟨wr [(HIF_QSPI_CFG, HIF_QSPI_CFG_en, 1)], 0xFF, by dsimp only; decide⟩,
   ⟨wr [(HIF_QSPI_CFG, HIF_QSPI_CFG_en, 1)], 0x8001, ⟨some (BitVec.ofNat 32 HIF_GPIO_OUT), [0x8001], false⟩,
       by dsimp only; decide⟩,
   ⟨wr [(HIF_QSPI_CFG, HIF_QSPI_CFG_en, 1)], false, some (BitVec.ofNat 32 HIF_GPIO_OUT), some 0, by dsimp only; decide⟩,
   ⟨{ State.reset with hif := { State.reset.hif with tapIr := 0x10 } }, BitVec.ofNat 32 HIF_GPIO_OUT, 1,
       by dsimp only; decide⟩,
   ⟨{ State.reset with hif := { State.reset.hif with tapIr := 0x10 } }, BitVec.ofNat 32 HIF_GPIO_OUT, 2,
       by dsimp only; decide⟩,
   ⟨State.reset, 0x300, by decide⟩,
   ⟨{ State.reset with hif := { State.reset.hif with uartRx := [0xFF] } }, 0x300, 0xFF, [], by decide⟩,
   ⟨State.reset, 0x300, 63, by decide⟩,
   ⟨{ State.reset with evc := { State.reset.evc with pba := 2 ^ 63 }, pcie := ⟨false, true, true, false, false⟩ }, 0x300,
       63, by dsimp only; decide⟩,
   ⟨{ wr [(HIF_UART_CTRL, HIF_UART_CTRL_en, 1)] with hif := { State.reset.hif with uartTx := [0xFF] } }, 0xFF, [],
       by dsimp only; decide⟩,
   ⟨{ wr [(HIF_UART_CTRL, HIF_UART_CTRL_en, 1)] with hif := { State.reset.hif with uartRx := List.replicate 63 0 } },
       by dsimp only; decide⟩,
   ⟨{ wr [(HIF_UART_CTRL, HIF_UART_CTRL_en, 1)] with hif := { State.reset.hif with uartRx := List.replicate 64 0 } },
       by dsimp only; decide⟩,
   ⟨State.reset, 3, 4, by dsimp only; decide⟩,
   ⟨linked, by dsimp only; decide⟩,
   ⟨flds [(HIF_PCIE_CTRL, HIF_PCIE_CTRL_perst_sys, 0)] State.reset, by decide⟩,
   ⟨flds [(HIF_PCIE_CTRL, HIF_PCIE_CTRL_perst_sys, 1)] State.reset, by decide⟩⟩

theorem met_StepRunsTheFrontCommand :
  (∃ (s : State) (c : Instr) (rest : List Instr),
    s.pending = c :: rest) ∧
  (∃ (s : State),
    s.pending = [] ∧ s.awake = true ∧ s.pwr.xoLost = false) ∧
  (∃ (s : State),
    s.pending = [] ∧ s.awake = false) :=
  ⟨⟨{ State.reset with pending := [.nop 1] }, .nop 1, [], by decide⟩,
   ⟨State.reset, by decide⟩,
   ⟨{ State.reset with pwr := { State.reset.pwr with mode := .asleep } }, by decide⟩⟩

theorem met_ResetState :
  (∃ (x : Nat × Word),
    x ∈ statedResets) :=
  ⟨(HIF_UART_CTRL, 0x03640001), by decide⟩


theorem met_HearthEncodingsAgree :
  (∃ (i : Instr) (w : Word),
    i.wellFormed = true ∧ encodeHearth i = some w) ∧
  (∃ (h : HearthId) (v : Word) (i : Instr),
    decodeHearth h v = some i) ∧
  (∃ (h : HearthId) (x : Word × Instr),
    x ∈ sampleWords h) :=
  ⟨⟨.movi 0 15 0x8000, 0x15E08000, by decide⟩,
   ⟨5, 0x15E08000, .movi 5 15 0x8000, by decide⟩,
   ⟨5, (0x15E08000, .movi 5 15 0x8000), by decide⟩⟩

end Sys2Proof.Tests
end

section
/-! Proofs about the step and the reset state: which command a step runs, and what every table reads after reset. -/

open Sys2Proof Sys2Proof.Machine

namespace Sys2Proof.Machine

/-! ### The frames of the meanings keep the queue -/

/-- A meaning answers a next state with the queue as it was, awake or not. -/
theorem State.run_keeps_pending (s : State) (f : State → State) : ∃ t, s.run f = .next t ∧ t.pending = s.pending := by
  cases h : s.awake with
  | true => exact ⟨_, s.run_awake f h, s.settle_pending _⟩
  | false => exact ⟨s, s.run_asleep f h, rfl⟩

/-- So does a meaning on the XO's time, with the clock or without it. -/
theorem State.runXo_keeps_pending (s : State) (f : State → State) : ∃ t, s.runXo f = .next t ∧ t.pending = s.pending :=
  s.run_keeps_pending _

/-- A meaning on the XO's time does nothing while the engine is not awake. -/
theorem State.runXo_asleep (s : State) (f : State → State) (h : s.awake = false) : s.runXo f = .next s :=
  s.run_asleep _ h

/-! ### The step -/

/-- A step with a command at the front of the queue. -/
theorem step_cons {s : State} {c : Instr} {rest : List Instr} (h : s.pending = c :: rest) :
    step s = exec c { s with pending := rest } := by
  simp only [step, h]

/-- A step with an empty queue. -/
theorem step_nil {s : State} (h : s.pending = []) : step s = s.runXo State.tick := by
  simp only [step, h]

/-! ### The reset state -/

/-- After reset nothing has changed a register. -/
theorem State.reset_reg (a : Nat) : State.reset.reg a = regReset a := rfl

/-- After reset no Hearth has begun. -/
theorem State.reset_hearth (n : Nat) : State.reset.hearth n = hearthDefault n := rfl

/-- The register tables give each register of the list the value stated for it. -/
theorem regReset_statedResets : ∀ x ∈ statedResets, regReset x.1 = x.2 := by decide

/-- After reset SYS_PWR_STAT says RUN. -/
theorem State.reset_inRun : State.reset.inRun = true := by decide

/-- After reset the clear of R326 has neither begun nor ended: a read of MEMC_STATUS gives 0. -/
theorem State.reset_memcStatus : State.reset.reg MEMC_STATUS = 0 := by decide

/-- The OTP's one word after reset stands in canonical form. -/
theorem State.reset_otpWf : State.reset.otpWf = true := by decide

end Sys2Proof.Machine

/-- Settles O57: the two rows of the step's match, the second one a meaning on the XO's time. -/
theorem Sys2Proof.stepRunsTheFrontCommand : Obligations.StepRunsTheFrontCommand := by
  unfold Obligations.StepRunsTheFrontCommand
  refine fun s c rest => ⟨step_cons, fun hempty => ?_⟩
  rw [step_nil hempty]
  refine ⟨?answers, s.runXo_awake State.tick, s.runXo_asleep State.tick⟩
  case answers =>
    obtain ⟨t, hnext, hpending⟩ := s.runXo_keeps_pending State.tick
    exact ⟨t, hnext, hpending.trans hempty⟩

/-- Settles O58: the fields of the reset state as written, and its registers read from the tables of their chapters. -/
theorem Sys2Proof.resetState : Obligations.ResetState := by
  unfold Obligations.ResetState
  have hregs : ∀ x, x ∈ statedResets → State.reset.reg x.1 = x.2 := fun x hx =>
    (State.reset_reg x.1).trans (regReset_statedResets x hx)
  have hopen : State.reset.ramOpen = false := by
    simp [State.ramOpen, State.bit, State.fld, Fld.get, State.reset_memcStatus]
  have hclearing : State.reset.bit MEMC_STATUS MEMC_STATUS_clearing = false := by
    simp [State.bit, State.fld, Fld.get, State.reset_memcStatus]
  exact ⟨rfl, rfl, rfl, State.reset_inRun, hopen, hclearing, rfl, rfl, rfl, rfl, hregs, rfl, State.reset_otpWf,
    fun n => by rw [State.reset_hearth]; exact ⟨rfl, rfl⟩⟩

end
